-- ==== Sys2Proof/Word.lean ====
section
/-! DEFINITION. Word.lean: the words of the module and the arithmetic on their bit fields, signed values and wide values. -/

namespace Sys2Proof

/-- A register or memory word: every access is one aligned 32-bit word (R290). -/
abbrev Word := BitVec 32

/-- The field of `width` bits of `w` that starts at bit `lsb`. -/
def getBits (w : Word) (lsb width : Nat) : Nat := (w.toNat >>> lsb) % 2 ^ width

/-- The mask with ones in the `width` bits from bit `lsb`. -/
def fieldMask (lsb width : Nat) : Word := BitVec.ofNat 32 ((2 ^ width - 1) <<< lsb)

/-- `w` with the field of `width` bits from bit `lsb` holding `v` modulo `2 ^ width`. -/
def putBits (w : Word) (lsb width v : Nat) : Word :=
  (w &&& ~~~ fieldMask lsb width) ||| BitVec.ofNat 32 ((v % 2 ^ width) <<< lsb)

/-- The two's complement value of the low `width` bits of `v`. -/
def toSigned (width v : Nat) : Int :=
  let r := v % 2 ^ width
  if 2 ^ (width - 1) ≤ r then (r : Int) - (2 ^ width : Nat) else (r : Int)

/-- The low `width` bits of a signed value, in two's complement. -/
def ofSigned (width : Nat) (i : Int) : Nat := (i % (2 ^ width : Nat)).toNat

/-- Bit `i` of a number. -/
def bitOf (v i : Nat) : Bool := v / 2 ^ i % 2 == 1

/-- `v` with bit `i` set to `b`. -/
def setBit (v i : Nat) (b : Bool) : Nat :=
  if bitOf v i = b then v else if b then v + 2 ^ i else v - 2 ^ i

/-- 1 for true, 0 for false: a status bit. -/
def b2n (b : Bool) : Nat := if b then 1 else 0

/-- A value limited to `hi`: a counter or field that saturates. -/
def satTo (hi v : Nat) : Nat := if v ≤ hi then v else hi

/-- An integer limited to `lo` to `hi`. -/
def clampInt (lo hi v : Int) : Int := if v < lo then lo else if hi < v then hi else v

end Sys2Proof
end

