-- ==== Sys2Proof/Config.lean ====
section
/-! DEFINITION. Config.lean: what a part fixes (its variant) and the free values: quantities the spec uses but never
states. Each free value is an opaque constant: nothing in Lean can evaluate it, and a statement about it holds for every
value of it. -/

namespace Sys2Proof

/-- The four variants of the part (R3). -/
inductive Variant where
  | vl512f | vl512d | vl256f | vl512fs
  deriving DecidableEq, Repr

/-- Banks present, as GLB.CAPS.BANKS reads (R3). -/
def Variant.banks : Variant → Nat
  | .vl256f => 0x3
  | _ => 0xF

/-- Coherent-measurement units and O34 present (R3). -/
def Variant.coh : Variant → Bool
  | .vl512d => false
  | _ => true

/-- Milestone chain ports present (R3). -/
def Variant.mc : Variant → Bool
  | .vl512fs => false
  | _ => true

/-- Number of groups present: four for each bank (R11, R13). -/
def Variant.groups : Variant → Nat
  | .vl256f => 8
  | _ => 16

/-- GLB.CAPS in full (R3, R415). -/
def Variant.caps (v : Variant) : Nat := v.banks + (b2n v.coh) * 16 + (b2n v.mc) * 32

namespace Config

/-- FREE VALUE (assumption 3): the charge-pump code that ICP_AUTO chooses (R46 states the bandwidth it must give, not the
code). Applied to the model's counter. -/
opaque icpCode : Nat → BitVec 5

/-- FREE VALUE (assumption 4): the challenge drawn from the noise source (R386), applied to the model's counter. -/
opaque noise : Nat → BitVec 32

/-- FREE VALUE (assumption 5): the error of the lock-in cosine for a phase Θ, plus 1; R222 bounds it by one unit either
way. -/
opaque lkiCosErr : BitVec 32 → Fin 3

/-- FREE VALUE (assumption 5): the error of the lock-in sine, plus 1, in the same way. -/
opaque lkiSinErr : BitVec 32 → Fin 3

/-- FREE VALUE (assumption 6): the error of FATN in millionths of a degree, plus 1,000; R228 bounds it by 0.001°. -/
opaque fatnErr : BitVec 32 → BitVec 32 → Fin 2001

/-- FREE VALUE (assumption 6): FATN where both operands are 0 or one is infinite, which R228 does not state. -/
opaque fatn : BitVec 32 → BitVec 32 → BitVec 32

/-- FREE VALUE (assumption 7): what MFS reads from HCTL, which is write only (R230). -/
opaque hctlRead : Nat → BitVec 32

/-- FREE VALUE (assumption 8): LKS on source 3, whose LSB R177 gives per count and not in volts. -/
opaque lksCount : BitVec 32

/-- FREE VALUE (assumption 9): SITE[5:0] of an engine whose channel belongs to no site (R230). -/
opaque noSite : Nat → BitVec 6

/-- FREE VALUE (assumption 10): the phase word of a sample taken while phase words are idle (R203). -/
opaque idlePhase : Nat → BitVec 32

/-- FREE VALUE (assumption 11): the STATUS of a command that ends because an engine's image is not a sealed digest, which
R238 does not name; a code from 0 to 11 (R258). -/
opaque sealedStatus : Fin 12

/-- FREE VALUE (assumption 12): DETAIL of a LOAD refused at an engine memory, which has no mailbox RESULT (R254). -/
opaque loadDetail : BitVec 8

/-- FREE VALUE (assumption 13): the reported temperature, in units of 0.125 °C, when no sensor is valid (R353), applied to the
model's counter. -/
opaque noTemp : Nat → BitVec 12

/-- FREE VALUE (assumption 14): KWY.STAT.TAG after a frame whose header, with its TAG, did not arrive whole (R306), applied to
the model's counter. -/
opaque noTag : Nat → BitVec 8

/-- FREE VALUE (assumption 80): the modulator output plus 3 in a PFD cycle of a small step (R50, R62), whose format at the
instantaneous ratio R62 leaves open; applied to the mark drawn at the step's acceptance and to the cycle. -/
opaque slewY : Nat → Nat → Fin 8

/-- FREE VALUE (assumption 80): an accumulator, or a carry of the history, at the load of a step's target (R62), applied to the
mark drawn at the step's acceptance and to its place: 0 to 2 the accumulators, 3 to 5 the carries. -/
opaque slewAcc : Nat → Nat → Nat

/-- FREE VALUE (assumption 92): by how many fine steps a continuation offset lies above the exact one (R145, R205), applied to the
model's counter and to the output: 0 O33, 1 the source. -/
opaque contFine : Nat → Nat → Fin 2

/-- FREE VALUE (assumption 92): the grid that a CONTINUOUS swing takes over after a small step (R63, R138), applied to the model's
counter and to its part: 0 and 1 the delays of O33 and of the source, 2 the edge number. -/
opaque contGrid : Nat → Nat → Nat

/-- FREE VALUE (assumption 79): how many header pages of B3 the interruption of BOOT finds programmed or in progress (R30, R37),
applied to the model's counter. -/
opaque bootPages : Nat → Fin 3

/-- FREE VALUE (assumption 93): Prabor's PCI-SIG vendor identifier (R242). -/
opaque vendor : BitVec 16

/-- FREE VALUE (assumption 100): the fraction of the reference period, in units of T_REF / 2^32, at which the timing mark of a sent
frame falls (R153), applied to the model's counter. -/
opaque markFrac : Nat → BitVec 32

/-- FREE VALUE (assumption 15): the silicon version, IDCODE [31:28] (R393). -/
opaque version : BitVec 4

/-- FREE VALUE (assumption 15): Prabor's JEDEC manufacturer identity, IDCODE [11:1] (R393). -/
opaque jedec : BitVec 11

end Config

end Sys2Proof
end

