-- ==== Sys2Proof/Syntax.lean ====
section
/-! DEFINITION. Syntax.lean: the commands of the module, one constructor for each row of spec/opcode_table.json, with what a
command carries: the agent that makes an access, the words it writes, the unit it concerns, and the values that the module
measures in it (R270 to R294 and the chapters that own the rows). -/

namespace Sys2Proof

/-- Which agent made a register access or a request (R24, R271). The test access port counts as the Keyway (R397). -/
inductive Src where
  | pcie | keyway
  deriving DecidableEq, Repr

namespace Machine

/-- One measured part of a calibration item: the new code, and the two residuals in millionths of the budget, all signed
(R312, R315). -/
abbrev CalPart := BitVec 16 × BitVec 32 × BitVec 32

/-- The measurement of one selected item of a rolling calibration: item, a code moved by more than its change limit, parts. -/
abbrev RollItem := Fin 11 × Bool × List CalPart

/-- A housekeeping round as it is read: the sensors, the trip sensors of PWR-A and PWR-B, and the round's duration in µs. -/
structure Round where
  reads : List (BitVec 12)
  tripA : BitVec 12
  tripB : BitVec 12
  dur : BitVec 16
  deriving DecidableEq, Repr

/-- What a request that a register write starts depends on beside the register: three words (the ratio in force for a
ratio-mailbox operation; CALV in µV and the CALT error in ppm for a reference check), a tuning sample, a flag (less than the
stated time since the last such request, or the half cycle of a restart), the operating millisecond, and whether a hardware
update of the register's SHP field falls in the cycle of the write (R277). -/
structure Meas where
  w0 : Word
  w1 : Word
  w2 : Word
  vt : BitVec 16
  flag : Bool
  ms : Fin 1000
  met : Bool := false
  deriving DecidableEq, Repr

/-- A frame of the power link (R416, R260): VIN and PIN averages, VIN outside its range for the whole frame or for part of it,
the six rails' voltage and current words, each rail against its set-point (0 inside ±2 % throughout, 1 below and 2 above for
the whole frame; the bin of RHIST), input energy in mJ, the energy in nJ of the banks and of AON, HOST and CLK together, and
the channel-BUS-cycles held in each bank by each command. -/
structure Telemetry where
  vin : BitVec 16
  pin : BitVec 16
  vinOut : Bool
  vinIn : Bool
  volts : List (BitVec 16)
  amps : List (BitVec 16)
  bins : List (Fin 3)
  outs : List Bool
  ins : List Bool
  hold : Bool
  energy : BitVec 16
  bankNj : List (BitVec 32)
  restNj : BitVec 32
  held : List (Word × List (BitVec 24))
  deriving DecidableEq, Repr

end Machine

/-- The commands of the module: one constructor for each row of the opcode table, in its order, with the rule that owns it. -/
inductive Instr where
  /-- R36: VIN rises through 4.3 V while the power dies are not latched off, and BOOT starts at B1. -/
  | vinRise
  /-- R37: VIN stays below 4.1 V for 2 µs; the module isolates VIN, feeds from the hold-up bank and enters SAFE with VINLOSS, or stops BOOT where it is. -/
  | vinLoss
  /-- R37: 50 µs after VIN loss detection the BANK domains go off, pins disconnect, leaves park and engines stop. -/
  | holdupBanksOff
  /-- R37: 1.0 ms after VIN loss detection, completions for abandoned descriptors are posted, a sector erase is abandoned through its journal and a slot write stops without its valid mark. -/
  | holdupAbandonWrites
  /-- R37: By 2.0 ms after VIN loss detection the SAFE record is written, with its valid mark last. -/
  | holdupSafeRecord
  /-- R37: 2.1 ms after VIN loss detection the CLK domain goes off and the clock root moves to the ring oscillator. -/
  | holdupClkOff
  /-- R37: The hold-up bank is exhausted, AON and HOST go off and the mode becomes OFF. -/
  | holdupBankExhausted
  /-- R39: VIN returns to 4.3 V or above before the bank is exhausted; the bank recharges, and the module stays in SAFE with VINLOSS cleared or BOOT restarts at B1. -/
  | vinReturn
  /-- R42: A power die's critical comparator reaches 140 °C and sends the trip notice to the core. -/
  | criticalTrip
  /-- R42: 2 µs after the trip notice every rail is cut, the power dies latch off and the mode becomes OFF. -/
  | railsCut
  /-- R8: The power-die telemetry declares a converter phase failed; a redundant phase takes its load, or SAFE with PHASES follows at the third failure. -/
  | phaseFailed (p : Fin 16)
  /-- R260: A power-link telemetry frame arrives every 16 µs; supply registers, histograms and per-command energy are updated from it. -/
  | telemetryFrame (t : Machine.Telemetry) (overrun : Bool)
  /-- R30: Phase B1 ends: the rails are up, the ring oscillator runs, AON is out of reset and the HOST domain is powered. -/
  | bootB1Done
  /-- R30: Phase B2 ends: the header copies and the chosen configuration image have been read, or the built-in defaults are loaded. -/
  | bootB2Done (answers : Bool)
  /-- R30: Phase B3 ends: the tumblers are loaded and the incremented power-cycle count is written to header copies A and B. -/
  | bootB3Done
  /-- R30: Phase B4 ends: the active calibration slot has been read into the calibration store. -/
  | bootB4Done
  /-- R33: Phase B5 ends: essential self-test is judged, BOOT moves to STANDBY or to SAFE with SELFTEST or PHASES, and a failed SYS leaf is retired. -/
  | bootB5Done (essential : Bool) (phases : BitVec 16) (sys : BitVec 2) (ms : Fin 1000)
  /-- R35: A PCI Express Configuration Request received before BOOT ends is answered with Configuration Request Retry Status. -/
  | configRequestRetry
  /-- R35: Assertion of PERST# resets the HOST domain and disables every ring, without changing GLB.MODE. -/
  | perst
  /-- R418: A Function Level Reset returns HIF and the MSI-X structures to reset and disables every ring. -/
  | functionLevelReset
  /-- R269: The PCI Express link or Bus Master Enable changes; memory requests pause while it is down or disabled and resume when it returns. -/
  | linkStateChange (up : Bool) (speed : BitVec 4) (width : BitVec 5) (bme : Bool)
  /-- R247: The link has been down for 100 ms; every ring goes to DISABLED as for DISABLE. -/
  | linkDownTimeout
  /-- R40: A GLB.MODE_REQ request for TARGET 0 runs the orderly power-down. -/
  | modeReqOff (src : Src)
  /-- R27: A request for TARGET 2 leaves CONFIGURE, ARMED or RUN for STANDBY, or requests the exit from SAFE. -/
  | modeReqStandby (src : Src)
  /-- R28: A request for TARGET 3 switches on the BANK units of the owned groups and places the pins at high impedance, if its preconditions hold. -/
  | modeReqConfigure (src : Src)
  /-- R28: A request for TARGET 4 waits for the required leaves to lock, or ends a calibration run, or leaves RUN. -/
  | modeReqArmed (src : Src)
  /-- R28: The last required leaf reaches LOCKED within 20 ms, so the mode becomes ARMED with the pins at their idle levels. -/
  | modeArmedLocked
  /-- R25: The 20 ms lock limit of an ARMED request expires; RESULT is TIMEOUT and the mode stays CONFIGURE. -/
  | modeArmedTimeout
  /-- R321: A request for TARGET 6 starts module-wide calibration when its preconditions hold. -/
  | modeReqCalibrate (src : Src) (calv ppm : Word)
  /-- R27: A request for TARGET 7 enters SAFE with cause REQUEST. -/
  | modeReqSafe (src : Src)
  /-- R25: A request for TARGET 1 or 5 returns ILLEGAL and changes nothing. -/
  | modeReqIllegalTarget (src : Src) (five : Bool)
  /-- R27: For a SYSLOST exit, no SYS leaf locks within 20 ms; the CLK domain goes off again and RESULT is CAUSE. -/
  | safeExitSysTimeout
  /-- R272: A software write to a register without a row of its own is applied, or refused, by the access code and Wins rule of each field. -/
  | registerWrite (src : Src) (a : BitVec 24) (v : Word) (be : BitVec 4) (m : Machine.Meas)
  /-- R288: A register access not complete 2 µs after it was taken is ended, returning 0xFFFF_FFFF or discarding the write, and is counted. -/
  | stallTimeout (src : Src) (a : BitVec 24) (write : Bool)
  /-- R45: A write to SYS.REF_HZ is accepted only in STANDBY or SAFE with a legal value, and re-derives the SYS settings and relocks the SYS leaves. -/
  | sysRefHzWrite (src : Src) (v : Word)
  /-- R58: Ratio mailbox READ loads the ratio in force into Q0 to Q2. -/
  | rmbRead (src : Src) (n : Fin 34) (q0 q1 q2 : Word)
  /-- R58: Ratio mailbox STAGE checks a ratio against R44 and holds it as the staged ratio. -/
  | rmbStage (src : Src) (n : Fin 34) (q0 q1 q2 : Word)
  /-- R61: Ratio mailbox STEP checks and accepts, or refuses, a small step of the locked leaf's ratio. -/
  | rmbStep (src : Src) (n : Fin 34) (q0 q1 q2 : Word) (vt : BitVec 16)
  /-- R59: Ratio mailbox OP 3 is refused with ILLEGAL. -/
  | rmbReservedOp (src : Src) (n : Fin 34) (q0 q1 q2 : Word)
  /-- R58: A ratio mailbox operation completes: RESULT posted, GO cleared and VALID set in one cycle. -/
  | rmbComplete (n : Fin 34)
  /-- R62: The slewing ratio reaches its target, which is loaded exactly, and SLEWING clears. -/
  | smallStepEnd (n : Fin 34)
  /-- R63: 64 PFD cycles after a small step's target is loaded, the widened lock window returns to normal. -/
  | stepWindowEnd (n : Fin 34)
  /-- R48: The fast-lock boost hold expires and the boost begins its removal. -/
  | boostHoldEnd (n : Fin 34)
  /-- R48: One of the four equal boost removal steps, 16 PFD cycles apart, is taken. -/
  | boostStepDown (n : Fin 34)
  /-- R69: A band-search counting window ends and its decision on the band or KVCO is taken; after window 9 the loop is closed at the predicted voltage. -/
  | bandSearchWindowEnd (n : Fin 34) (f : BitVec 34)
  /-- R71: 40 ns after P0 of a cached hop, the DAC is released and the pump closes the loop with boost. -/
  | cachedHopDacRelease (n : Fin 34)
  /-- R71: At twice the cached ±1 ppm maximum the leaf is checked; a cache miss starts a band search and counts MISSCNT. -/
  | cacheMissCheck (n : Fin 34) (reached : Bool) (vt : BitVec 16)
  /-- R76: Route mailbox RD_WP reads waypoint IDX into Q0 to Q3. -/
  | rdWp (src : Src) (g : Fin 16) (inc : Bool)
  /-- R77: Route mailbox WR_WP checks and writes waypoint IDX from D0 to D3. -/
  | wrWp (src : Src) (g : Fin 16) (inc : Bool)
  /-- R76: Route mailbox RD_RAT reads a rational store entry. -/
  | rdRat (src : Src) (g : Fin 16) (inc : Bool)
  /-- R77: Route mailbox WR_RAT checks and writes a rational store entry. -/
  | wrRat (src : Src) (g : Fin 16) (inc : Bool)
  /-- R76: Route mailbox RD_CB reads a leaf B cache entry. -/
  | rdCb (src : Src) (g : Fin 16) (inc : Bool)
  /-- R77: Route mailbox WR_CB checks and writes a leaf B cache entry. -/
  | wrCb (src : Src) (g : Fin 16) (inc : Bool)
  /-- R76: Route mailbox CLR returns all of the group's route memory to its switch-on contents. -/
  | rtClr (src : Src) (g : Fin 16) (inc : Bool)
  /-- R77: Route mailbox OP 7 is refused with ILLEGAL. -/
  | rtReservedOp (src : Src) (g : Fin 16) (inc : Bool)
  /-- R76: A route mailbox operation completes: RESULT posted, GO cleared, VALID set and IDX incremented when INC is set. -/
  | rtMailboxComplete (g : Fin 16) (clash : Option (Src × Word))
  /-- R79: A register-path START begins a route at its start instant, at once or at the next milestone. -/
  | rctlStart (src : Src) (g : Fin 16) (start : BitVec 12) (ms : Bool)
  /-- R80: A register-path NEXT gives a host advance trigger to a register-started route. -/
  | rctlNext (src : Src) (g : Fin 16) (start : BitVec 12)
  /-- R81: A register-path STOP ends the register-started route with END_ST = STOP. -/
  | rctlStop (src : Src) (g : Fin 16) (start : BitVec 12)
  /-- R79: RCTL OP 3 is refused with ILLEGAL. -/
  | rctlReservedOp (src : Src) (g : Fin 16) (start : BitVec 12)
  /-- R79: A register-path single hop to waypoint INDEX is requested. -/
  | hopctlHopWaypoint (src : Src) (g : Fin 16) (i : BitVec 12)
  /-- R79: A register-path single hop to the staged ratio, with a searched band, is requested. -/
  | hopctlHopStaged (src : Src) (g : Fin 16) (i : BitVec 12)
  /-- R79: A waypoint's dwell expires; for ADV 0 this sets the next hop instant, and otherwise a held trigger may be taken. -/
  | dwellExpiry (g : Fin 16)
  /-- R80: An engine, pattern or host advance trigger arrives at the group and is taken, held or discarded into TRIGDROP. -/
  | routeTrigger (g : Fin 16) (kind : Fin 3) (joined : Bool)
  /-- R83: At P0, the first PFD edge at or after the hop instant, the new ratio is loaded, the band is set or searched, the point-start mark is sent and HOPPING sets. -/
  | hopStart (g : Fin 16) (half ready : Bool)
  /-- R83: The leaf, or both leaves under GUARDED, report LOCKED at the new setting, so HOPPING clears and LASTHOP is written. -/
  | hopCompletion (g : Fin 16) (lockt : BitVec 32) (va vb : BitVec 16)
  /-- R85: A hop held while the active leaf was not LOCKED is taken at the first reference edge after LOCKED, and the slip is added to SLIPCNT. -/
  | heldHopRelease (g : Fin 16) (half ready : Bool)
  /-- R89: A waiting route start or single hop at the head of the group's route queue starts once the route or guarantee blocking it ends. -/
  | routeQueueServe (g : Fin 16)
  /-- R86: Under PING-PONG, the idle leaf starts to pre-lock waypoint NEXT at the first reference edge after the swing has completed. -/
  | prelockStart (g : Fin 16)
  /-- R91: The in-window count completes and the leaf becomes LOCKED, or completes RELOCK, with the clock-tree swing at the first SYS lock. -/
  | lockInWindow (n : Fin 34) (vt : BitVec 16)
  /-- R92: The error lies outside the lock window for UCNT + 1 cycles, or the tuning voltage leaves its range, so the leaf leaves LOCKED. -/
  | unlock (n : Fin 34) (mean : BitVec 24) (ms : Fin 1000)
  /-- R93: No reference edge arrives within 1.5 reference periods; the monitor declares a loss and the leaves enter HOLDOVER. -/
  | missingEdge (own quiet : BitVec 34) (means : List (BitVec 24))
  /-- R94: A monitor gate of 65,536 oscillator cycles ends; a frequency excursion may be declared and good gates are counted. -/
  | monitorGateEnd (n : Fin 34) (count : BitVec 24) (means : List (BitVec 24)) (quiet : BitVec 34) (ht : Word) (own : BitVec 34 := 0)
  /-- R99: The lock timer expires before in window; the leaf retries or enters FAULT. -/
  | lockTimerExpiry (n : Fin 34) (ms : Fin 1000)
  /-- R106: The phase jump J is measured over 8 PFD cycles, and capture, REALIGN, REBASE or SNAP is applied as the leaf enters RELOCK. -/
  | phaseJumpMeasured (n : Fin 32) (j : BitVec 48) (ht : Word)
  /-- R109: The REALIGN return offset is fully removed, REALIGNING clears and the leaf may become LOCKED. -/
  | realignSlewEnd (g : Fin 16)
  /-- R98: In HOLDOVER, the tuning monitor or DAC is out of range in self-check and the leaf enters FAULT. -/
  | holdoverSelfcheckFail (n : Fin 34) (ms : Fin 1000)
  /-- R110: HOLDCTL.CLROFS requests a slew of EPOFS to 0. -/
  | clrofsRequest (src : Src) (g : Fin 16) (retpol : BitVec 2) (pause : Bool) (rate : BitVec 7)
  /-- R110: A waiting CLROFS slew starts once no descriptor or PHASE_HOLD blocks it, and CLROFS clears. -/
  | clrofsSlewStart (g : Fin 16)
  /-- R110: The CLROFS slew completes and EPOFS reads 0. -/
  | clrofsSlewEnd (g : Fin 16)
  /-- R118: PJ_CTRL.GO requests a snapshot of J or EPOFS. -/
  | pjSnapshot (src : Src) (g : Fin 16) (sel : Bool)
  /-- R118: The phase snapshot is copied to PJ_Q0 and PJ_Q1, VALID sets and GO clears. -/
  | pjComplete (g : Fin 16)
  /-- R127: A write to OCFG.EN parks the output after its high phase or releases it on a later grid edge, without a runt. -/
  | outputEnableWrite (src : Src) (g : Fin 16) (o : Fin 36) (v : Word)
  /-- R134: OUTg.APPLY requests a restart of kind 5 at the next PFD edge or the next milestone the group takes. -/
  | apply (src : Src) (g : Fin 16) (milestone half : Bool)
  /-- R166: A scheduled milestone falls, and every group that takes it restarts, skips it or uses it for a route advance. -/
  | milestone
  /-- R132: SYS.EP_CTRL.GO copies the epoch counter to EP_Q0 and EP_Q1, then VALID sets and GO clears. -/
  | epochSnapshot (src : Src)
  /-- R139: Phase measurement averages the residual of output SEL over 2^AVG edges. -/
  | pmMeasure (src : Src) (g : Fin 16) (sel : BitVec 6) (avg : BitVec 4)
  /-- R139: The anchor in force and its kind code are written to PM_Q0 to PM_Q2. -/
  | pmAnchor (src : Src) (g : Fin 16) (sel : BitVec 6) (avg : BitVec 4)
  /-- R139: PM_CTRL OP 2 or 3 returns ILLEGAL. -/
  | pmReservedOp (src : Src) (g : Fin 16) (op : Bool) (sel : BitVec 6) (avg : BitVec 4)
  /-- R139: A phase measurement completes or is interrupted; the result is posted, VALID sets and the recorder extreme is updated. -/
  | pmComplete (g : Fin 16) (mean : BitVec 48)
  /-- R140: At C = S + 2 T_PFD the swing is complete, HOPPING clears and the counters and LASTHOP are written. -/
  | swingComplete (g : Fin 16) (lockt : BitVec 32)
  /-- R147: The active leaf's feedback edge is missing 1.5 PFD periods after the previous one, causing a fault swing or a recovery. -/
  | treeWatchdog (g : Fin 16) (mean : BitVec 24) (ms : Fin 1000) (atS : Bool := false)
  /-- R147: The active leaf's feedback edge leaves the twin window while the guard's stays in it for 2 cycles, causing a fault swing. -/
  | twinComparator (g : Fin 16) (ms : Fin 1000)
  /-- R148: POLICY.FORCE swings the tree to the guard, or is refused as NOGUARD, BUSY or DENIED. -/
  | policyForce (src : Src) (g : Fin 16) (pol swmode : Bool) (twin : BitVec 4)
  /-- R146: A pending POL takes effect at the first idle cycle, and under GUARDED the idle leaf joins. -/
  | policyTakesEffect (g : Fin 16)
  /-- R150: At F + 40 ns the other leaf is set to the recovery entry. -/
  | recoveryEntrySet (g : Fin 16) (mean : BitVec 24)
  /-- R150: At F + 700 ns, or when a missed recovering leaf locks, the tree is driven again on the anchor's grid and GAP clears. -/
  | recoveryResume (g : Fin 16)
  /-- R152: A chain receiver holds alignment without error for 1,024 characters and is up. -/
  | chainRxUp (dn : Bool)
  /-- R152: A chain receiver is down after 128 ns without a valid character or after 16 errors, moving the module to DOWN or SEGHEAD. -/
  | chainRxDown (dn : Bool)
  /-- R154: MC_UP_RX has not come up 100 ms after the CLK domain came on, so the module becomes head by timeout. -/
  | headTimeout
  /-- R153: A chain frame with a good CRC is taken; its timing exchange, announcement and SEGMENT flag are used. -/
  | chainFrame (up : Bool) (chars : List (BitVec 8)) (seghd : BitVec 12) (frac : Word := 0) (lat : BitVec 48 := 0)
  /-- R156: An enumeration frame with position p is checked, and the position is taken and forwarded or ENUM is entered. -/
  | enumerationFrame (p : BitVec 13) (refhz : Word) (lat : BitVec 48 := 0)
  /-- R156: A LEN reply from downstream sets CHAIN.LEN and is passed upstream. -/
  | lenReply (n : BitVec 13) (lat : BitVec 48)
  /-- R161: 65,536 exchanges are averaged; θ_c is subtracted from the epoch and the module becomes ALIGNED, or a segment head changes reference. -/
  | measureComplete (count th rt skew : BitVec 48) (means : List (BitVec 24)) (quiet : BitVec 34)
  /-- R156: MSC.CTRL ENUM starts an enumeration at the head. -/
  | mscEnum (src : Src)
  /-- R160: MSC.CTRL REMEASURE restarts the hop-delay average without leaving ALIGNED. -/
  | mscRemeasure (src : Src)
  /-- R165: MSC.CTRL SCHED sets a new milestone schedule from MS_INT and NEWBASE, or refuses it. -/
  | mscSched (src : Src)
  /-- R165: MSC.CTRL OP 3 to 7 is refused with ILLEGAL. -/
  | mscReservedOp (src : Src) (op : Fin 5)
  /-- R285: The chain wide-value mailbox reads the value that SEL names into MB_Q0 and MB_Q1. -/
  | mbRead (src : Src) (sel : BitVec 3)
  /-- R285: The chain wide-value mailbox writes D0 and D1 to NEWBASE. -/
  | mbWriteNewbase (src : Src) (sel : BitVec 3)
  /-- R169: When no leaf is in HOLDOVER or RELOCK, or 100 ms after measurement, a segment head forms Δ and starts slewing its link reference. -/
  | rejoinSlewStart (delta : BitVec 48) (late : Bool)
  /-- R169: The rejoin slew ends and the segment head, with its segment, becomes ALIGNED. -/
  | rejoinSlewEnd
  /-- R153: MSC.MSG_TX.GO sends a 14-byte chain message, or refuses it. -/
  | messageSend (src : Src) (dest : BitVec 12) (all soon : Bool)
  /-- R153: MSC.MSG_RX.POP removes the oldest received message. -/
  | messagePop (src : Src)
  /-- R175: Written channel settings take effect at once or at the next test-step boundary, or are kept pending with ILLEG when illegal. -/
  | channelSettingsApply (c : Fin 528)
  /-- R181: Site map and configuration writes take effect at the first cycle in which no test step executes on the group. -/
  | siteSettingsApply (g : Fin 16)
  /-- R180: At a quiet point, the incoming set's force switch closes and the outgoing set's opens within 1 ns. -/
  | pinSwingHandover (c : Fin 512) (tight : Bool)
  /-- R180: A pin swing has waited 100 ms without a quiet point and is made at the next vector boundary with SUSPECT. -/
  | pinSwingTimeout (c : Fin 512)
  /-- R204: An ADC or counter sample with its phase word and flags enters the channel's sample FIFO. -/
  | adcSampleEntry (c : Fin 512) (code : BitVec 18) (n : BitVec 48) (susp settled pclamp : Bool)
  /-- R191: A ready step's first vector is issued on the first grid edge of O_v, once every start check of R192 passes. -/
  | testStepStart (g : Fin 16)
  /-- R187: Micro-operation NEXT moves to the next line. -/
  | patNext (g : Fin 16) (fails clips : Word) (settled : Bool := true)
  /-- R187: Micro-operation REPEAT issues the vector r + 1 times. -/
  | patRepeat (g : Fin 16) (fails clips : Word) (settled : Bool := true)
  /-- R187: Micro-operation LSET loads loop counter k. -/
  | patLset (g : Fin 16) (fails clips : Word) (settled : Bool := true)
  /-- R188: Micro-operation LEND decrements counter k and jumps while it is not 0. -/
  | patLend (g : Fin 16) (fails clips : Word) (settled : Bool := true)
  /-- R187: Micro-operation JUMP moves to the given address. -/
  | patJump (g : Fin 16) (fails clips : Word) (settled : Bool := true)
  /-- R189: Micro-operation MATCH repeats the vector until every enabled site has matched or n + 1 issues have been made. -/
  | patMatch (g : Fin 16) (fails clips : Word) (settled : Bool := true)
  /-- R187: Micro-operation RADV gives the route a pattern advance trigger. -/
  | patRadv (g : Fin 16) (fails clips : Word) (settled : Bool := true)
  /-- R187: Micro-operation MARK sends a pattern mark with its tag and vector count to the engines of every enabled site. -/
  | patMark (g : Fin 16) (fails clips : Word) (settled : Bool := true)
  /-- R187: Micro-operation WAIT repeats the vector while the group hops or while a route runs. -/
  | patWait (g : Fin 16) (fails clips : Word) (settled : Bool := true)
  /-- R187: Micro-operation NORPL marks the executing step non-replayable from this vector. -/
  | patNorpl (g : Fin 16) (fails clips : Word) (settled : Bool := true)
  /-- R187: Micro-operation HALT ends the test step; outcomes, FAILCNT and FIRSTFAIL are reported and a replay is decided. -/
  | patHalt (g : Fin 16) (fails clips : Word) (settled : Bool := true)
  /-- R195: With the compare-result FIFO full, the sequencer holds at the next vector boundary, and HOLDCNT and FHOLD move. -/
  | compareFifoHold (g : Fin 16)
  /-- R195: Space frees in the compare-result FIFO and the held sequencer resumes. -/
  | compareFifoRelease (g : Fin 16)
  /-- R236: A fail capture record of TYPE 0x80 leaves the compare-result FIFO for the lead engine's inbox once the inbox has room. -/
  | failCaptureDelivery (g : Fin 16)
  /-- R236: The waiting FAILCNT and FIRSTFAIL words of a step end enter the engine's comparator FIFO once two words are free. -/
  | comparatorWordsEnter (p : Fin 528)
  /-- R190: The pattern mailbox reads the line at ADDR. -/
  | pmbRead (src : Src) (g : Fin 16) (inc : Bool)
  /-- R190: The pattern mailbox checks and writes the line at ADDR. -/
  | pmbWrite (src : Src) (g : Fin 16) (inc : Bool)
  /-- R190: A pattern mailbox operation completes and ADDR advances when INC is set. -/
  | pmbComplete (g : Fin 16) (clash : Option (Src × Word))
  /-- R228: Engine instruction NOP does nothing. -/
  | engNop (p : Fin 528)
  /-- R228: Engine instruction ADD sets d := a + b. -/
  | engAdd (p : Fin 528)
  /-- R228: Engine instruction SUB sets d := a − b. -/
  | engSub (p : Fin 528)
  /-- R228: Engine instruction AND forms the bitwise and. -/
  | engAnd (p : Fin 528)
  /-- R228: Engine instruction OR forms the bitwise or. -/
  | engOr (p : Fin 528)
  /-- R228: Engine instruction SHL shifts left. -/
  | engShl (p : Fin 528)
  /-- R228: Engine instruction SHR makes a logical right shift. -/
  | engShr (p : Fin 528)
  /-- R228: Engine instruction SRA makes an arithmetic right shift. -/
  | engSra (p : Fin 528)
  /-- R228: Engine instruction MUL keeps the low 32 bits of the product. -/
  | engMul (p : Fin 528)
  /-- R228: Engine instruction ADDI adds a signed immediate. -/
  | engAddi (p : Fin 528)
  /-- R228: Engine instruction ORI ors a zero-extended immediate. -/
  | engOri (p : Fin 528)
  /-- R228: Engine instruction LUI loads imm << 14. -/
  | engLui (p : Fin 528)
  /-- R229: Engine instruction CMP sets a predicate from an integer comparison of registers. -/
  | engCmp (p : Fin 528)
  /-- R229: Engine instruction CMPI sets a predicate from a comparison with an immediate. -/
  | engCmpi (p : Fin 528)
  /-- R228: Engine instruction LD loads a data-memory word. -/
  | engLd (p : Fin 528) (parity : Bool) (ms : Fin 1000)
  /-- R228: Engine instruction ST stores a data-memory word. -/
  | engSt (p : Fin 528)
  /-- R228: Engine instruction BR branches on a predicate or always. -/
  | engBr (p : Fin 528)
  /-- R228: Engine instruction CALL pushes PC + 1 and jumps. -/
  | engCall (p : Fin 528)
  /-- R228: Engine instruction RET pops the PC. -/
  | engRet (p : Fin 528)
  /-- R232: Engine instruction LOOP starts a hardware loop with a register count. -/
  | engLoop (p : Fin 528)
  /-- R232: Engine instruction LOOPI starts a hardware loop with an immediate count. -/
  | engLoopi (p : Fin 528)
  /-- R216: Engine instruction HALT sets the engine to HALTED. -/
  | engHalt (p : Fin 528)
  /-- R230: Engine instruction MFS reads a special register. -/
  | engMfs (p : Fin 528) (cycle : Word)
  /-- R230: Engine instruction MTS writes a special register, with its side effects on RFLG, MIN, LIMCNT and HCTL. -/
  | engMts (p : Fin 528)
  /-- R228: Engine instruction CLR zeroes the named g and a registers. -/
  | engClr (p : Fin 528)
  /-- R228: Engine instruction MAC accumulates a product, saturating with AOV. -/
  | engMac (p : Fin 528)
  /-- R228: Engine instruction STA stores an accumulator as two words. -/
  | engSta (p : Fin 528)
  /-- R228: Engine instruction AFL converts an accumulator to binary32. -/
  | engAfl (p : Fin 528)
  /-- R219: Engine instruction POP consumes a sample entry and sets d and PW. -/
  | engPop (p : Fin 528)
  /-- R222: Engine instruction LKI consumes a sample entry and accumulates it into lock-in pair n. -/
  | engLki (p : Fin 528)
  /-- R219: Engine instruction SKIP discards up to a sample entries, stopping at a mark. -/
  | engSkip (p : Fin 528)
  /-- R219: Engine instruction WMK discards samples until a mark, then consumes the mark. -/
  | engWmk (p : Fin 528)
  /-- R223: Engine instruction HST adds 1 to a histogram bin. -/
  | engHst (p : Fin 528)
  /-- R228: Engine instruction HRD reads a histogram bin. -/
  | engHrd (p : Fin 528)
  /-- R223: Engine instruction MMX updates MIN and MAX. -/
  | engMmx (p : Fin 528)
  /-- R223: Engine instruction LIM compares a value with the limits and counts failures. -/
  | engLim (p : Fin 528)
  /-- R225: Engine instruction RECV copies the oldest inbox record to data memory. -/
  | engRecv (p : Fin 528)
  /-- R225: Engine instruction EMIT with destination LEAD copies a record into the emitter for the site lead's inbox. -/
  | engEmitLead (p : Fin 528)
  /-- R226: Engine instruction EMIT with destination HOST copies a record into the emitter for the command's result buffer. -/
  | engEmitHost (p : Fin 528)
  /-- R228: Engine instruction RADV gives the route an engine advance trigger. -/
  | engRadv (p : Fin 528)
  /-- R228: Engine instruction CFP reads the oldest comparator-FIFO word. -/
  | engCfp (p : Fin 528)
  /-- R228: Engine instruction FADD adds binary32 values. -/
  | engFadd (p : Fin 528)
  /-- R228: Engine instruction FSUB subtracts binary32 values. -/
  | engFsub (p : Fin 528)
  /-- R228: Engine instruction FMUL multiplies binary32 values. -/
  | engFmul (p : Fin 528)
  /-- R228: Engine instruction FMAC multiply-accumulates, or subtracts when N = 1, with one rounding. -/
  | engFmac (p : Fin 528)
  /-- R228: Engine instruction FDIV divides binary32 values. -/
  | engFdiv (p : Fin 528)
  /-- R228: Engine instruction FSQRT takes a binary32 square root. -/
  | engFsqrt (p : Fin 528)
  /-- R228: Engine instruction FATN computes atan2 in degrees. -/
  | engFatn (p : Fin 528)
  /-- R228: Engine instruction FCVT converts int32 to binary32. -/
  | engFcvt (p : Fin 528)
  /-- R228: Engine instruction FINT converts binary32 to int32, saturating. -/
  | engFint (p : Fin 528)
  /-- R229: Engine instruction FCMP sets a predicate from a binary32 comparison. -/
  | engFcmp (p : Fin 528)
  /-- R234: An engine instruction with opcode 0x32 to 0x3F takes exception ILLOP. -/
  | engIllegalOpcode (p : Fin 528)
  /-- R216: A waiting engine's awaited entry, record or space arrives, and the waiting instruction completes. -/
  | engineResume (p : Fin 528)
  /-- R234: A waiting engine's stream can no longer be filled, because no route, step or capture is left, so it takes exception STARVE. -/
  | engineStarve (p : Fin 528)
  /-- R225: A record in the emitter is delivered into the lead's inbox once there is space. -/
  | emitDelivery (p : Fin 528)
  /-- R226: A HOST record, or a module record of R261, is written into the command's result buffer in host memory. -/
  | resultRecordWrite (e : Option (Fin 528))
  /-- R237: IMGCRC is recomputed after a program-memory write and CRCBUSY clears. -/
  | imgcrcDone (p : Fin 528)
  /-- R239: ECTL.START requests a register-path engine start at ENTRY. -/
  | ectlStart (src : Src) (e : Fin 528) (entry : BitVec 10)
  /-- R239: Once IMGCRC is current, an engine start is accepted or refused as SEALED, and the program state is initialised. -/
  | engineStartAccepted (p : Fin 528)
  /-- R235: ECTL.STOP gives a running or waiting engine exception STOPPED. -/
  | ectlStop (src : Src) (e : Fin 528) (entry : BitVec 10)
  /-- R217: A host write to an engine's program or data memory is accepted, or refused as locked while the engine runs. -/
  | engineMemoryWrite (src : Src) (e : Fin 528) (i : Fin 3072) (v : Word)
  /-- R248: A write to a ring's SQ tail doorbell adds descriptors, or is discarded and counted in DBERR. -/
  | sqTailDoorbell (r : Fin 16) (v : Word) (whole : Bool)
  /-- R248: A write to a ring's CQ head doorbell frees completion slots, or is discarded. -/
  | cqHeadDoorbell (r : Fin 16) (v : Word) (whole : Bool)
  /-- R248: A write to HIF.EVHEAD frees event-ring slots, checked as a doorbell. -/
  | evheadWrite (src : Src) (v : Word)
  /-- R249: A fetched descriptor is checked for ISSUE, opcode, absent resources and ownership, and completes at once if it fails. -/
  | descriptorFetch (d : List Word)
  /-- R252: Command NOP completes at fetch, or after earlier commands when FENCE is set. -/
  | cmdNop (h : Word)
  /-- R253: Command EXEC starts engines, a route and a test step on its groups. -/
  | exec (h left : Word) (rem : List (Word × Word))
  /-- R252: Command HOP makes a single hop on every group of the command. -/
  | hop (h left : Word) (rem : List (Word × Word))
  /-- R255: Command CANCEL ends a live command of its own ring. -/
  | cancel (h : Word)
  /-- R254: Command LOAD copies entries between host memory and a module memory, checking each write. -/
  | load (h : Word) (ws : List Word)
  /-- R264: Command HOLD requests a PHASE_HOLD or GUARDED guarantee. -/
  | hold (h left : Word) (rem : List (Word × Word))
  /-- R255: Command RELEASE ends a granted guarantee, or cancels a waiting HOLD. -/
  | release (h : Word)
  /-- R264: A waiting guarantee becomes grantable on all its groups and is granted. -/
  | guaranteeGrant (h : Word) (rem : List (Word × Word) := [])
  /-- R264: A PHASE_HOLD reaches LENGTH µs after grant and lapses, releasing what waited behind it. -/
  | phaseHoldLapse (h : Word)
  /-- R267: A waiting command's DEADLINE expires and it completes BLOCKED. -/
  | deadlineExpiry (h : Word) (rem : List (Word × Word) := []) (tie : Bool := false)
  /-- R257: A command's completion is written to its CQ after all its records, and the ring's vector may fire. -/
  | completionPost (r : Fin 16)
  /-- R263: CTIME µs have passed since the oldest unsignalled completion, and the vector fires. -/
  | coalesceTimer (r : Fin 17)
  /-- R244: A write that clears an MSI-X vector mask or the function mask sends the pending messages. -/
  | msixMaskWrite (v : Option (Fin 64)) (w : Word)
  /-- R247: A fetch or completion write returns an error and the ring enters ERROR, or a result-buffer access error gives DMAERR. -/
  | dmaErrorResponse (r : Fin 17) (h : Option Word)
  /-- R246: RSET READ returns a ring's stored configuration. -/
  | rsetRead (src : Src) (r : BitVec 5)
  /-- R246: RSET CONFIGURE stores a DISABLED ring's bases, depth, vector, coalescing and sites. -/
  | rsetConfigure (src : Src) (r : BitVec 5)
  /-- R247: RSET ENABLE moves a ring to ACTIVE, and for ring 16 writes the level records and the boot queue. -/
  | rsetEnable (src : Src) (r : BitVec 5)
  /-- R247: RSET STOP moves an ACTIVE ring to STOPPING. -/
  | rsetStop (src : Src) (r : BitVec 5)
  /-- R247: RSET DISABLE moves a ring to DISABLED, ending its commands without completions. -/
  | rsetDisable (src : Src) (r : BitVec 5)
  /-- R246: RSET OP 5 to 7 is refused with ILLEGAL. -/
  | rsetReservedOp (src : Src) (op : Fin 3) (r : BitVec 5)
  /-- R246: An RSET operation completes within 64 BUS cycles with RESULT and Q0 to Q6. -/
  | rsetComplete
  /-- R408: The board controller acknowledges pin-routed events by writing PCOUNT to PSEEN. -/
  | pseenWrite (src : Src) (v : Word)
  /-- R409: A write to RMASK, PMASK or VMAP acts from the next cycle; a 0-to-1 change on an active level event reports it. -/
  | eventMaskWrite (src : Src) (i : Fin 80) (v : Word)
  /-- R301: A Keyway write frame ends at KW_SEL_n high and is committed or discarded whole with its outcome. -/
  | keywayWriteFrame (hdr : BitVec 64) (edges : BitVec 16) (ws : List Word) (crc : BitVec 16)
  /-- R303: A Keyway read frame's header is taken and its words are fetched and returned against KW_STB with a trailer. -/
  | keywayReadFrame (hdr : BitVec 64) (edges strobes : BitVec 16) (late : List (Fin 256))
  /-- R302: One word of a committed write frame crosses to the register bus and is applied. -/
  | keywayWordApply (m : Machine.Meas)
  /-- R305: A read has held KW_STB for 4,096 edges and is aborted with CODE STALL. -/
  | keywayReadAbort (hdr : BitVec 64) (k : BitVec 9)
  /-- R329: CAL.CTRL READ returns a unit's calibration status and CQs. -/
  | calRead (src : Src) (index : BitVec 10)
  /-- R332: CAL.CTRL RECORD returns four words of the active slot's calibration record. -/
  | calRecord (src : Src) (index : BitVec 10)
  /-- R329: CAL.CTRL STORE copies the calibration store and starts writing the older slot, or is refused. -/
  | calStore (src : Src) (index : BitVec 10)
  /-- R313: CAL.CTRL CHECKREF measures CALV and CALT against their declarations. -/
  | calCheckref (src : Src) (index : BitVec 10) (calv ppm : Word)
  /-- R329: CAL.CTRL OP 4 to 7 is refused with ILLEGAL. -/
  | calReservedOp (src : Src) (index : BitVec 10) (op : Fin 4)
  /-- R285: A CAL.CTRL operation completes and posts its RESULT and Q registers. -/
  | calCtrlComplete
  /-- R329: A calibration store ends after erase, program, mark and read-back, and LASTSTORE and STORES are updated. -/
  | calStoreEnd (ok : Bool)
  /-- R323: Every group of a module-wide run has finished; the module returns to ARMED, restarts groups, raises EV216 and may autostore. -/
  | calibrationRunEnd
  /-- R325: The rolling period has passed, so the next eligible channel's reference check and shadowing begin. -/
  | rollingCalStart (g : Fin 16) (calv : Word)
  /-- R326: The isolated set's precondition and items finish, its switch opens and it shadows the spare for the swing back. -/
  | rollingCalItemsDone (g : Fin 16) (pass coast : Bool) (items : List Machine.RollItem) (ms : Fin 1000)
  /-- R318: Pending set trims under BOUNDARY act at the set's next idle period. -/
  | trimApply (c : Fin 528)
  /-- R334: A delay-line servo loses lock, giving a TIMING fault occurrence and takeover by the spare. -/
  | timingServoLoss (c : Fin 528) (ms : Fin 1000)
  /-- R334: A set's local rail switch exceeds its current limit, giving a SUPPLY fault occurrence. -/
  | supplyOvercurrent (c : Fin 528) (ms : Fin 1000)
  /-- R335: 1 ms after the previous try, an isolated set repeats its failing check; a pass is transient and a third failure is permanent. -/
  | setRetry (c : Fin 528) (pass : Bool)
  /-- R334: A set's 200 µs self-test ends in a pass or in a permanent occurrence. -/
  | setSelftestDone (c : Fin 528) (pass : Bool) (ms : Fin 1000)
  /-- R335: An engine's 2 ms self-test ends in a pass or a failure. -/
  | engineSelftestDone (p : Fin 528) (pass : Bool) (ms : Fin 1000)
  /-- R336: A failed engine's memories have been copied to its spare, which takes over. -/
  | engineCopyDone (sp : Fin 16) (prog : Option (Fin 1024 × Word)) (bad : List (Fin 2048))
  /-- R337: A transient engine takes back the spare's memories once the command on its site has completed. -/
  | engineReturn (p : Fin 528)
  /-- R340: A configuration-image store after a retirement or commit ends, with its valid mark or as a failure. -/
  | configStoreEnd (ok : Bool)
  /-- R342: A replayed step's discarded results are rewound, its engines restart and it starts again once the R192 checks pass. -/
  | replayStart (g : Fin 16)
  /-- R346: After an UNRETIRE commit, once no command executes on the unit's group or bank, the unit's self-test starts. -/
  | unretireStart
  /-- R346: The un-retiring self-test ends; on a pass the maps clear and the unit returns, and UNRES reports the outcome. -/
  | unretireDone (pass : Bool)
  /-- R348: In the HK cycle ending channel 23, sensors are judged, the temperatures formed, throttle, WARN and SHUTDOWN decided and the tumblers scrubbed. -/
  | hkEvaluation (r : Machine.Round) (copies : List (BitVec 24 × Word × Word × Word)) (levels : List (Fin 528)) (ms : Fin 1000)
  /-- R363: Operating seconds advance by one, and the SERVICE lease counts down each operating minute. -/
  | operatingSecond
  /-- R383: LEASE reaches 0 in SERVICE and the protection state returns to SEALED. -/
  | leaseExpiry
  /-- R369: INTERVAL operating minutes after the previous trigger, a PERIODIC record is triggered. -/
  | recordPeriodic
  /-- R370: A record page is programmed and read back; a mismatch fails the attempt. -/
  | recordPageDone (ok : Bool)
  /-- R370: The record's mark is programmed and read back, so the record is stored and EV243 is raised. -/
  | recordStored (ok : Bool)
  /-- R375: The record die does not answer within 10 ms, which fails the attempt. -/
  | recordDieTimeout
  /-- R373: A journaled erase is verified blank and a DONE entry is appended. -/
  | sectorEraseDone
  /-- R378: After BOOT, the journaled erase, any header erase and the GAP record are finished and the recorder becomes READY. -/
  | recoverDone
  /-- R381: REC.CTRL READ loads the valid record with the given SEQ into the window. -/
  | recRead (src : Src)
  /-- R381: REC.CTRL LIVE loads the present period's data into the window. -/
  | recLive (src : Src)
  /-- R381: REC.CTRL TIME returns device time and HOST_EPOCH. -/
  | recTime (src : Src)
  /-- R364: REC.CTRL SETEPOCH sets HOST_EPOCH for later records. -/
  | recSetepoch (src : Src)
  /-- R381: REC.CTRL WRITE makes a REQUEST trigger, or is refused BUSY. -/
  | recWrite (src : Src) (soon : Bool)
  /-- R381: REC.CTRL OP 5 to 7 is refused with ILLEGAL. -/
  | recReservedOp (src : Src) (op : Fin 3)
  /-- R380: A REC.CTRL operation completes, updating the window and Q registers. -/
  | recCtrlComplete
  /-- R386: PROT.CTRL.ARM copies and checks the staged change and publishes a challenge. -/
  | arm (src : Src) (ms : Fin 1000)
  /-- R388: PROT.CTRL.ABORT ends the live challenge with ABORTED. -/
  | abort (src : Src)
  /-- R387: A write of key A over PCI Express is taken, and a matching second key applies the change. -/
  | keyaWrite (src : Src) (v : Word) (ms : Fin 1000)
  /-- R387: A write of key B over the Keyway is taken, and a matching second key applies the change. -/
  | keybWrite (src : Src) (v : Word) (ms : Fin 1000)
  /-- R388: 250 ms after the first correct key, without the second, the challenge ends EXPIRED. -/
  | keyWindowExpiry (ms : Fin 1000)
  /-- R388: 10 s after ARM, without any correct key, the challenge ends EXPIRED. -/
  | armWindowExpiry (ms : Fin 1000)
  /-- R392: TRST_n resets the TAP controller and sets the debug level to D0. -/
  | tapReset
  /-- R394: TAP instruction EXTEST drives the balls from the boundary register in Standby. -/
  | extest (cap load : BitVec 1560)
  /-- R392: TAP instruction SAMPLE/PRELOAD samples and preloads the boundary register. -/
  | samplePreload (cap load : BitVec 1560)
  /-- R393: TAP instruction IDCODE selects the identification register. -/
  | idcode
  /-- R394: TAP instruction CLAMP holds the boundary outputs with bypass selected. -/
  | clamp
  /-- R394: TAP instruction HIGHZ places the outputs at high impedance. -/
  | highz
  /-- R394: TAP instruction EXTEST_PULSE makes IEEE 1149.6 pulse tests. -/
  | extestPulse (cap load : BitVec 1560)
  /-- R394: TAP instruction EXTEST_TRAIN makes IEEE 1149.6 train tests. -/
  | extestTrain (cap load : BitVec 1560)
  /-- R395: TAP instruction DBG_LEVEL grants the lowest of the requested level, DBGMAX and the protection ceiling. -/
  | dbgLevel (req : BitVec 2)
  /-- R397: TAP instruction DBG_ACCESS takes a register read or write in the Keyway's bus slot. -/
  | dbgAccess (wr : Bool) (waddr : BitVec 22) (data : Word) (late : Bool) (m : Machine.Meas)
  /-- R398: DBG_ENG OP 0 captures an engine's PC and gate. -/
  | dbgEngStatus (e : BitVec 10)
  /-- R398: DBG_ENG OP 1 gates an engine's clock. -/
  | dbgEngGate (e : BitVec 10)
  /-- R398: DBG_ENG OP 2 lets one instruction issue. -/
  | dbgEngStep (e : BitVec 10)
  /-- R398: DBG_ENG OP 3 removes the gate. -/
  | dbgEngUngate (e : BitVec 10)
  /-- R398: DBG_ENG OP 4 sets a breakpoint at an address. -/
  | dbgEngBreakSet (e a : BitVec 10)
  /-- R398: DBG_ENG OP 5 clears the breakpoint. -/
  | dbgEngBreakClear (e : BitVec 10)
  /-- R392: TAP instruction BYPASS, or any code not listed, selects the bypass register. -/
  | bypass (c : BitVec 8)
  /-- R35: PERST# is deasserted, releasing the HOST domain from reset so that the endpoint enters link training within 20 ms. -/
  | perstDeassert
  /-- R42: After a critical trip, VIN falls below 4.1 V at some instant, which meets the first condition for unlatching the power dies. -/
  | tripLatchVinLow
  /-- R322: In a module-wide calibration, the measurement of an item, or of a precondition, on a set, leaf or output completes; R315 accepts or rejects it, and the run moves on to the next item or unit. -/
  | calItemMeasured (u : Fin 578) (item : Fin 16) (o : Fin 36) (pass coast moved : Bool) (parts : List Machine.CalPart)
  deriving DecidableEq, Repr

end Sys2Proof
end

