-- ==== Sys2Proof/Decode.lean ====
section
/-! DEFINITION. Decode.lean: the command that a word spells by the bits of spec/opcode_table.json. The table gives no row any bits:
commands reach the module as register accesses, frames, doorbells, pins and events, not as words of an instruction memory. -/

namespace Sys2Proof

/-- No word spells a command: every row of the opcode table has an empty list of fields. -/
def decodeTableWord (_nbits _w : Nat) : Option Instr := none

end Sys2Proof
end

