-- ==== Sys2Proof/Machine/RegMap.lean ====
section
/-! DEFINITION. Machine/RegMap.lean: where every register field of the module lies (R411 to R416 and the field tables of the
chapters) and the access code of every bit (R6). A field is `⟨offset in its block, least significant bit, width⟩`; the
access rows give, for each register, the bits of each access code and the Reset column (R417), with the built-in defaults
of R32 and R442 and the nominal trim codes of R316 for the entries Image and Slot. -/

namespace Sys2Proof.Machine

/-- A register field: offset of its register from its block's (or page's) base, least significant bit, width in bits. -/
structure Fld where
  off : Nat
  lsb : Nat
  width : Nat
  deriving DecidableEq, Repr

/-- One register, or an array of `count` registers `stride` apart: the bits of each access code of R6 (`cn` is CNT),
the bits whose Reset column reads Image (`img`) or Slot (`slot`), the tumbler bits (`tmb`), and the reset word. -/
structure RegRow where
  off : Nat
  count : Nat := 1
  stride : Nat := 4
  rw : Nat := 0
  go : Nat := 0
  cn : Nat := 0
  sh : Nat := 0
  shp : Nat := 0
  bolt : Nat := 0
  img : Nat := 0
  slot : Nat := 0
  tmb : Nat := 0
  rst : Nat := 0
  deriving DecidableEq, Repr

namespace R

/-! ### GLB fields -/
def GLB_ID_DEVICE : Fld := ⟨0x0, 0, 16⟩
def GLB_ID_FAMILY : Fld := ⟨0x0, 16, 16⟩
def GLB_CAPS_BANKS : Fld := ⟨0x4, 0, 4⟩
def GLB_CAPS_COH : Fld := ⟨0x4, 4, 1⟩
def GLB_CAPS_MC : Fld := ⟨0x4, 5, 1⟩
def GLB_MODE_CUR : Fld := ⟨0x8, 0, 3⟩
def GLB_MODE_PREV : Fld := ⟨0x8, 4, 3⟩
def GLB_MODE_SAFE_CAUSE : Fld := ⟨0x8, 8, 4⟩
def GLB_MODE_RESULT : Fld := ⟨0x8, 12, 3⟩
def GLB_MODE_PDRDY : Fld := ⟨0x8, 16, 1⟩
def GLB_MODE_IMGDEF : Fld := ⟨0x8, 17, 1⟩
def GLB_MODE_CLKSRC : Fld := ⟨0x8, 18, 1⟩
def GLB_MODE_REQ_TARGET : Fld := ⟨0xC, 0, 3⟩
def GLB_MODE_REQ_GO : Fld := ⟨0xC, 31, 1⟩
def GLB_REFUSED : Fld := ⟨0x20, 0, 32⟩
def GLB_LOSTUPD : Fld := ⟨0x24, 0, 32⟩
def GLB_NARROW : Fld := ⟨0x28, 0, 32⟩
def GLB_STALLTO : Fld := ⟨0x2C, 0, 32⟩
def GLB_TMBDIS : Fld := ⟨0x30, 0, 32⟩
def GLB_TMBSPLIT : Fld := ⟨0x34, 0, 32⟩
def GLB_LASTREF_OFFSET : Fld := ⟨0x38, 0, 24⟩
def GLB_LASTREF_CAUSE : Fld := ⟨0x38, 24, 3⟩
def GLB_LASTREF_SRC : Fld := ⟨0x38, 27, 1⟩

/-! ### PROT fields -/
def PROT_STATE_PSTATE : Fld := ⟨0x0, 0, 2⟩
def PROT_STATE_DBGMAX : Fld := ⟨0x0, 2, 2⟩
def PROT_STATE_DBGLVL : Fld := ⟨0x0, 4, 2⟩
def PROT_STATE_LEASE : Fld := ⟨0x0, 8, 8⟩
def PROT_CTRL_ARM : Fld := ⟨0x4, 0, 1⟩
def PROT_CTRL_ABORT : Fld := ⟨0x4, 1, 1⟩
def PROT_CTRL_RESULT : Fld := ⟨0x4, 4, 4⟩
def PROT_CTRL_LIVE : Fld := ⟨0x4, 8, 1⟩
def PROT_CTRL_AOK : Fld := ⟨0x4, 9, 1⟩
def PROT_CTRL_BOK : Fld := ⟨0x4, 10, 1⟩
def PROT_STAGE_KIND : Fld := ⟨0x8, 0, 4⟩
def PROT_STAGE_ARG : Fld := ⟨0x8, 8, 8⟩
def PROT_DVAL : Fld := ⟨0xC, 0, 32⟩
def PROT_CHAL : Fld := ⟨0x10, 0, 32⟩
def PROT_KEYA : Fld := ⟨0x14, 0, 32⟩
def PROT_KEYB : Fld := ⟨0x18, 0, 32⟩
def PROT_DIG : Fld := ⟨0x20, 0, 32⟩
def PROT_FAILCNT : Fld := ⟨0x60, 0, 32⟩
def PROT_COMMITS : Fld := ⟨0x64, 0, 32⟩
def PROT_CFGWA : Fld := ⟨0x68, 0, 32⟩
def PROT_CFGWK : Fld := ⟨0x6C, 0, 32⟩

/-! ### HIF fields -/
def HIF_LINK_SPEED : Fld := ⟨0x0, 0, 4⟩
def HIF_LINK_WIDTH : Fld := ⟨0x0, 4, 5⟩
def HIF_LINK_BME : Fld := ⟨0x0, 9, 1⟩
def HIF_LINK_UP : Fld := ⟨0x0, 10, 1⟩
def HIF_RSET_CTRL_RING : Fld := ⟨0x10, 0, 5⟩
def HIF_RSET_CTRL_OP : Fld := ⟨0x10, 5, 3⟩
def HIF_RSET_CTRL_GO : Fld := ⟨0x10, 8, 1⟩
def HIF_RSET_CTRL_VALID : Fld := ⟨0x10, 9, 1⟩
def HIF_RSET_CTRL_RESULT : Fld := ⟨0x10, 10, 3⟩
def HIF_RSET_D0 : Fld := ⟨0x14, 0, 32⟩
def HIF_RSET_D1 : Fld := ⟨0x18, 0, 32⟩
def HIF_RSET_D2 : Fld := ⟨0x1C, 0, 32⟩
def HIF_RSET_D3 : Fld := ⟨0x20, 0, 32⟩
def HIF_RSET_D4 : Fld := ⟨0x24, 0, 32⟩
def HIF_RSET_D5 : Fld := ⟨0x28, 0, 32⟩
def HIF_RSET_D6 : Fld := ⟨0x2C, 0, 32⟩
def HIF_RSET_Q0 : Fld := ⟨0x34, 0, 32⟩
def HIF_RSET_Q1 : Fld := ⟨0x38, 0, 32⟩
def HIF_RSET_Q2 : Fld := ⟨0x3C, 0, 32⟩
def HIF_RSET_Q3 : Fld := ⟨0x40, 0, 32⟩
def HIF_RSET_Q4 : Fld := ⟨0x44, 0, 32⟩
def HIF_RSET_Q5 : Fld := ⟨0x48, 0, 32⟩
def HIF_RSET_Q6 : Fld := ⟨0x4C, 0, 32⟩
def HIF_RSTAT_STATE : Fld := ⟨0x100, 0, 3⟩
def HIF_RSTAT_CQFULL : Fld := ⟨0x100, 3, 1⟩
def HIF_RSTAT_SQHEAD : Fld := ⟨0x100, 4, 12⟩
def HIF_RSTAT_CQTAIL : Fld := ⟨0x100, 16, 12⟩
def HIF_RNEXT_ISSUE : Fld := ⟨0x104, 0, 16⟩
def HIF_RNEXT_SQTAIL : Fld := ⟨0x104, 16, 12⟩
def HIF_DBERR : Fld := ⟨0x108, 0, 32⟩
def HIF_EVHEAD : Fld := ⟨0x300, 0, 12⟩
def HIF_EVLOST : Fld := ⟨0x304, 0, 32⟩
def HIF_HSTAT_PHOLD : Fld := ⟨0x380, 0, 16⟩
def HIF_HSTAT_GUARD : Fld := ⟨0x380, 16, 16⟩
def HIF_MSIX_ADDR : Fld := ⟨0x800, 2, 30⟩
def HIF_MSIX_UADDR : Fld := ⟨0x804, 0, 32⟩
def HIF_MSIX_DATA : Fld := ⟨0x808, 0, 32⟩
def HIF_MSIX_CTRL : Fld := ⟨0x80C, 0, 1⟩
def HIF_PBA : Fld := ⟨0xC00, 0, 32⟩

/-! ### KWY fields -/
def KWY_LEN : Fld := ⟨0x0, 0, 14⟩
def KWY_STAT_LAST : Fld := ⟨0x4, 0, 4⟩
def KWY_STAT_WRAP : Fld := ⟨0x4, 4, 1⟩
def KWY_STAT_BUSTO : Fld := ⟨0x4, 5, 1⟩
def KWY_STAT_PEND : Fld := ⟨0x4, 6, 1⟩
def KWY_STAT_FULL : Fld := ⟨0x4, 7, 1⟩
def KWY_STAT_TAG : Fld := ⟨0x4, 8, 8⟩
def KWY_STAT_WORDS : Fld := ⟨0x4, 16, 9⟩
def KWY_STAT_PARTIAL : Fld := ⟨0x4, 25, 1⟩
def KWY_FRAMES : Fld := ⟨0x10, 0, 32⟩
def KWY_DISCARDS : Fld := ⟨0x14, 0, 32⟩
def KWY_ABORTS : Fld := ⟨0x18, 0, 32⟩

/-! ### HK fields -/
def HK_VIN_VIN : Fld := ⟨0x0, 0, 16⟩
def HK_VIN_INRANGE : Fld := ⟨0x0, 16, 1⟩
def HK_PIN : Fld := ⟨0x4, 0, 16⟩
def HK_RAIL_V : Fld := ⟨0x8, 0, 16⟩
def HK_RAIL_I : Fld := ⟨0x8, 16, 16⟩
def HK_PHASES_FAILED : Fld := ⟨0x20, 0, 16⟩
def HK_PHASES_NFAIL : Fld := ⟨0x20, 16, 4⟩
def HK_PHASES_HOLDOK : Fld := ⟨0x20, 20, 1⟩
def HK_ENERGY : Fld := ⟨0x24, 0, 32⟩
def HK_TCFG_WARN : Fld := ⟨0x100, 0, 8⟩
def HK_TCFG_THROTTLE : Fld := ⟨0x100, 8, 8⟩
def HK_TCFG_SHUTDOWN : Fld := ⟨0x100, 16, 8⟩
def HK_TCFG_HYST : Fld := ⟨0x100, 24, 4⟩
def HK_TFLOOR : Fld := ⟨0x104, 0, 2⟩
def HK_TSTAT_LEVEL : Fld := ⟨0x108, 0, 2⟩
def HK_TSTAT_WARN : Fld := ⟨0x108, 2, 1⟩
def HK_TSTAT_SHUT : Fld := ⟨0x108, 3, 1⟩
def HK_TSTAT_ILLEG : Fld := ⟨0x108, 4, 1⟩
def HK_TSTAT_NFAIL : Fld := ⟨0x108, 5, 5⟩
def HK_TSTAT_HELD : Fld := ⟨0x108, 10, 1⟩
def HK_TEMP_TREP : Fld := ⟨0x10C, 0, 8⟩
def HK_TEMP_TCTL : Fld := ⟨0x10C, 8, 8⟩
def HK_TEMP_HOT : Fld := ⟨0x10C, 16, 5⟩
def HK_TEMP_SUBST : Fld := ⟨0x10C, 21, 1⟩
def HK_SFAIL : Fld := ⟨0x110, 0, 24⟩
def HK_THRCNT : Fld := ⟨0x120, 0, 32⟩
def HK_SFAILCNT : Fld := ⟨0x124, 0, 32⟩
def HK_SHUTCNT : Fld := ⟨0x128, 0, 32⟩
def HK_SENS_READ : Fld := ⟨0x140, 0, 12⟩
def HK_SENS_FAIL : Fld := ⟨0x140, 12, 1⟩
def HK_SENS_CAUSE : Fld := ⟨0x140, 13, 2⟩
def HK_SENS_LOCKOUT : Fld := ⟨0x140, 15, 1⟩
def HK_SENS_SUBV : Fld := ⟨0x140, 16, 8⟩

/-! ### REC fields -/
def REC_CFG : Fld := ⟨0x0, 0, 11⟩
def REC_CTRL_OP : Fld := ⟨0x4, 0, 3⟩
def REC_CTRL_GO : Fld := ⟨0x4, 4, 1⟩
def REC_CTRL_VALID : Fld := ⟨0x4, 5, 1⟩
def REC_CTRL_RESULT : Fld := ⟨0x4, 6, 3⟩
def REC_D0 : Fld := ⟨0x8, 0, 32⟩
def REC_D1 : Fld := ⟨0xC, 0, 32⟩
def REC_Q0 : Fld := ⟨0x10, 0, 32⟩
def REC_Q1 : Fld := ⟨0x14, 0, 32⟩
def REC_Q2 : Fld := ⟨0x18, 0, 32⟩
def REC_Q3 : Fld := ⟨0x1C, 0, 32⟩
def REC_STAT_STATE : Fld := ⟨0x20, 0, 3⟩
def REC_STAT_JOPEN : Fld := ⟨0x20, 3, 1⟩
def REC_STAT_TIMEVAL : Fld := ⟨0x20, 4, 1⟩
def REC_STAT_SPARES : Fld := ⟨0x20, 5, 9⟩
def REC_NEWEST : Fld := ⟨0x24, 0, 32⟩
def REC_OLDEST : Fld := ⟨0x28, 0, 32⟩
def REC_PCOUNT : Fld := ⟨0x2C, 0, 11⟩
def REC_FAILCNT : Fld := ⟨0x30, 0, 32⟩
def REC_WRITES : Fld := ⟨0x34, 0, 32⟩
def REC_REMAPS : Fld := ⟨0x38, 0, 32⟩
def REC_GAPS : Fld := ⟨0x3C, 0, 32⟩
def REC_WIN : Fld := ⟨0x100, 0, 32⟩

/-! ### CAL fields -/
def CAL_CFG_APPLY : Fld := ⟨0x0, 0, 1⟩
def CAL_CFG_AUTOSTORE : Fld := ⟨0x0, 1, 1⟩
def CAL_CFG_NOCHG : Fld := ⟨0x0, 2, 1⟩
def CAL_CFG_PLATE : Fld := ⟨0x0, 3, 2⟩
def CAL_CFG_TWARN : Fld := ⟨0x0, 8, 8⟩
def CAL_CFG_GROUPS : Fld := ⟨0x0, 16, 16⟩
def CAL_ITEMS_SETS : Fld := ⟨0x4, 0, 11⟩
def CAL_ITEMS_OD : Fld := ⟨0x4, 11, 1⟩
def CAL_ITEMS_LEAF : Fld := ⟨0x4, 12, 3⟩
def CAL_VDECL : Fld := ⟨0x8, 0, 32⟩
def CAL_TCFG : Fld := ⟨0xC, 0, 16⟩
def CAL_TSKEW : Fld := ⟨0x10, 0, 32⟩
def CAL_ROLL_EN : Fld := ⟨0x14, 0, 16⟩
def CAL_ROLL_PERIOD : Fld := ⟨0x14, 16, 16⟩
def CAL_CTRL_OP : Fld := ⟨0x18, 0, 3⟩
def CAL_CTRL_GO : Fld := ⟨0x18, 4, 1⟩
def CAL_CTRL_VALID : Fld := ⟨0x18, 5, 1⟩
def CAL_CTRL_RESULT : Fld := ⟨0x18, 6, 4⟩
def CAL_CTRL_INDEX : Fld := ⟨0x18, 10, 10⟩
def CAL_STAT_PHASE : Fld := ⟨0x1C, 0, 3⟩
def CAL_STAT_ROLLACT : Fld := ⟨0x1C, 3, 1⟩
def CAL_STAT_STOREBUSY : Fld := ⟨0x1C, 4, 1⟩
def CAL_STAT_NOCAL : Fld := ⟨0x1C, 5, 1⟩
def CAL_STAT_REFOK : Fld := ⟨0x1C, 6, 1⟩
def CAL_STAT_LPEND : Fld := ⟨0x1C, 7, 1⟩
def CAL_STAT_CQMOD : Fld := ⟨0x1C, 8, 8⟩
def CAL_STAT_LASTRUN : Fld := ⟨0x1C, 16, 3⟩
def CAL_GSTAT_TDRIFT : Fld := ⟨0x20, 0, 16⟩
def CAL_GSTAT_ROLLBLK : Fld := ⟨0x20, 16, 16⟩
def CAL_SLOT_ACT : Fld := ⟨0x24, 0, 1⟩
def CAL_SLOT_VALA : Fld := ⟨0x24, 1, 1⟩
def CAL_SLOT_VALB : Fld := ⟨0x24, 2, 1⟩
def CAL_SLOT_LASTSTORE : Fld := ⟨0x24, 3, 2⟩
def CAL_Q0 : Fld := ⟨0x30, 0, 32⟩
def CAL_Q1 : Fld := ⟨0x34, 0, 32⟩
def CAL_Q2 : Fld := ⟨0x38, 0, 32⟩
def CAL_Q3 : Fld := ⟨0x3C, 0, 32⟩
def CAL_RUNS : Fld := ⟨0x40, 0, 32⟩
def CAL_REJECTS : Fld := ⟨0x44, 0, 32⟩
def CAL_PRECONDS : Fld := ⟨0x48, 0, 32⟩
def CAL_SLOTLOSS : Fld := ⟨0x4C, 0, 32⟩
def CAL_STORES : Fld := ⟨0x50, 0, 32⟩
def CAL_LTRIM0_CPM : Fld := ⟨0x400, 0, 10⟩
def CAL_LTRIM0_DBL : Fld := ⟨0x400, 16, 10⟩
def CAL_LTRIM1 : Fld := ⟨0x404, 0, 12⟩

/-! ### MSC fields -/
def MSC_CFG_REFSRC : Fld := ⟨0x0, 0, 2⟩
def MSC_CFG_HEAD : Fld := ⟨0x0, 2, 1⟩
def MSC_CFG_DNEN : Fld := ⟨0x0, 3, 1⟩
def MSC_CFG_RATE : Fld := ⟨0x0, 4, 7⟩
def MSC_CTRL_OP : Fld := ⟨0x4, 0, 3⟩
def MSC_CTRL_GO : Fld := ⟨0x4, 4, 1⟩
def MSC_CTRL_RESULT : Fld := ⟨0x4, 8, 3⟩
def MSC_STAT_STATE : Fld := ⟨0x8, 0, 3⟩
def MSC_STAT_UPLINK : Fld := ⟨0x8, 3, 1⟩
def MSC_STAT_DNLINK : Fld := ⟨0x8, 4, 1⟩
def MSC_STAT_REFMIS : Fld := ⟨0x8, 5, 1⟩
def MSC_STAT_OVERLONG : Fld := ⟨0x8, 6, 1⟩
def MSC_STAT_SLEWING : Fld := ⟨0x8, 7, 1⟩
def MSC_STAT_POS : Fld := ⟨0x8, 8, 12⟩
def MSC_CHAIN_LEN : Fld := ⟨0xC, 0, 13⟩
def MSC_CHAIN_SEGHD : Fld := ⟨0xC, 13, 12⟩
def MSC_MS_INT : Fld := ⟨0x10, 0, 32⟩
def MSC_MS_NUM : Fld := ⟨0x14, 0, 32⟩
def MSC_ASYM : Fld := ⟨0x18, 0, 32⟩
def MSC_MB_CTRL_SEL : Fld := ⟨0x20, 0, 3⟩
def MSC_MB_CTRL_WR : Fld := ⟨0x20, 3, 1⟩
def MSC_MB_CTRL_GO : Fld := ⟨0x20, 4, 1⟩
def MSC_MB_CTRL_VALID : Fld := ⟨0x20, 5, 1⟩
def MSC_MB_CTRL_RESULT : Fld := ⟨0x20, 6, 2⟩
def MSC_MB_D0 : Fld := ⟨0x24, 0, 32⟩
def MSC_MB_D1 : Fld := ⟨0x28, 0, 32⟩
def MSC_MB_Q0 : Fld := ⟨0x2C, 0, 32⟩
def MSC_MB_Q1 : Fld := ⟨0x30, 0, 32⟩
def MSC_LINKDN : Fld := ⟨0x40, 0, 32⟩
def MSC_ENUMCNT : Fld := ⟨0x44, 0, 32⟩
def MSC_ANNERR : Fld := ⟨0x48, 0, 32⟩
def MSC_CRCERR : Fld := ⟨0x4C, 0, 32⟩
def MSC_SEGCNT : Fld := ⟨0x50, 0, 32⟩
def MSC_MSGDROP : Fld := ⟨0x54, 0, 32⟩
def MSC_MSG_TX_DEST : Fld := ⟨0x60, 0, 12⟩
def MSC_MSG_TX_ALL : Fld := ⟨0x60, 12, 1⟩
def MSC_MSG_TX_GO : Fld := ⟨0x60, 16, 1⟩
def MSC_MSG_TX_RESULT : Fld := ⟨0x60, 17, 2⟩
def MSC_MSG_TD0 : Fld := ⟨0x64, 0, 32⟩
def MSC_MSG_TD1 : Fld := ⟨0x68, 0, 32⟩
def MSC_MSG_TD2 : Fld := ⟨0x6C, 0, 32⟩
def MSC_MSG_TD3 : Fld := ⟨0x70, 0, 16⟩
def MSC_MSG_RX_COUNT : Fld := ⟨0x74, 0, 5⟩
def MSC_MSG_RX_POP : Fld := ⟨0x74, 16, 1⟩
def MSC_MSG_RX_SRC : Fld := ⟨0x74, 17, 12⟩
def MSC_MSG_RD0 : Fld := ⟨0x78, 0, 32⟩
def MSC_MSG_RD1 : Fld := ⟨0x7C, 0, 32⟩
def MSC_MSG_RD2 : Fld := ⟨0x80, 0, 32⟩
def MSC_MSG_RD3 : Fld := ⟨0x84, 0, 32⟩

/-! ### SYS fields -/
def SYS_REF_HZ : Fld := ⟨0x10, 0, 32⟩
def SYS_SYSSTAT_ACT : Fld := ⟨0x14, 0, 1⟩
def SYS_SYSSTAT_STRAND : Fld := ⟨0x14, 1, 1⟩
def SYS_SYSSTAT_EPSYS : Fld := ⟨0x14, 2, 1⟩
def SYS_SYSSTAT_RETURN : Fld := ⟨0x14, 3, 1⟩
def SYS_EP_CTRL_GO : Fld := ⟨0x20, 0, 1⟩
def SYS_EP_CTRL_VALID : Fld := ⟨0x20, 1, 1⟩
def SYS_EP_Q0 : Fld := ⟨0x24, 0, 32⟩
def SYS_EP_Q1 : Fld := ⟨0x28, 0, 32⟩
def SYS_MONSEL_GRP : Fld := ⟨0x2C, 0, 4⟩
def SYS_MONSEL_EN : Fld := ⟨0x2C, 4, 1⟩

/-! ### EVT fields -/
def EVT_RMASK_0 : Fld := ⟨0x0, 0, 32⟩
def EVT_RMASK_1 : Fld := ⟨0x4, 0, 32⟩
def EVT_RMASK_2 : Fld := ⟨0x8, 0, 32⟩
def EVT_RMASK_3 : Fld := ⟨0xC, 0, 32⟩
def EVT_RMASK_4 : Fld := ⟨0x10, 0, 32⟩
def EVT_RMASK_5 : Fld := ⟨0x14, 0, 32⟩
def EVT_RMASK_6 : Fld := ⟨0x18, 0, 32⟩
def EVT_RMASK_7 : Fld := ⟨0x1C, 0, 32⟩
def EVT_PMASK_0 : Fld := ⟨0x20, 0, 32⟩
def EVT_PMASK_1 : Fld := ⟨0x24, 0, 32⟩
def EVT_PMASK_2 : Fld := ⟨0x28, 0, 32⟩
def EVT_PMASK_3 : Fld := ⟨0x2C, 0, 32⟩
def EVT_PMASK_4 : Fld := ⟨0x30, 0, 32⟩
def EVT_PMASK_5 : Fld := ⟨0x34, 0, 32⟩
def EVT_PMASK_6 : Fld := ⟨0x38, 0, 32⟩
def EVT_PMASK_7 : Fld := ⟨0x3C, 0, 32⟩
def EVT_ACT : Fld := ⟨0x40, 0, 32⟩
def EVT_PCOUNT : Fld := ⟨0x60, 0, 32⟩
def EVT_PSEEN : Fld := ⟨0x64, 0, 32⟩
def EVT_PSTAT_PIN : Fld := ⟨0x68, 0, 1⟩
def EVT_PSTAT_LEVEL : Fld := ⟨0x68, 1, 1⟩
def EVT_PSTAT_UNSEEN : Fld := ⟨0x68, 2, 1⟩
def EVT_PSTAT_SAFE : Fld := ⟨0x68, 3, 1⟩
def EVT_SEQ : Fld := ⟨0x6C, 0, 16⟩
def EVT_VMAP : Fld := ⟨0x100, 0, 32⟩

/-! ### FLT fields -/
def FLT_CFG : Fld := ⟨0x0, 0, 2⟩
def FLT_STAT_GRPDOWN : Fld := ⟨0x4, 0, 1⟩
def FLT_STAT_SPUSED : Fld := ⟨0x4, 1, 1⟩
def FLT_STAT_ESEXH : Fld := ⟨0x4, 2, 1⟩
def FLT_STAT_CHDOWN : Fld := ⟨0x4, 3, 1⟩
def FLT_STAT_EDOWN : Fld := ⟨0x4, 4, 1⟩
def FLT_STAT_SYSONE : Fld := ⟨0x4, 5, 1⟩
def FLT_STAT_STORE : Fld := ⟨0x4, 6, 1⟩
def FLT_LAST_UNIT : Fld := ⟨0x8, 0, 11⟩
def FLT_LAST_CAUSE : Fld := ⟨0x8, 11, 4⟩
def FLT_LAST_OUTCOME : Fld := ⟨0x8, 15, 3⟩
def FLT_LAST_OCC : Fld := ⟨0x8, 18, 2⟩
def FLT_SPMAP_CH : Fld := ⟨0x10, 0, 5⟩
def FLT_SPMAP_SERVES : Fld := ⟨0x10, 5, 1⟩
def FLT_SPMAP_SPRET : Fld := ⟨0x10, 6, 1⟩
def FLT_CHDOWN : Fld := ⟨0x50, 0, 32⟩
def FLT_LEAFRET : Fld := ⟨0x90, 0, 32⟩
def FLT_SYSRET : Fld := ⟨0x94, 0, 2⟩
def FLT_ESMAP_ENG : Fld := ⟨0xA0, 0, 10⟩
def FLT_ESMAP_SERVES : Fld := ⟨0xA0, 10, 1⟩
def FLT_ESMAP_RETIRED : Fld := ⟨0xA0, 11, 1⟩
def FLT_EDOWN : Fld := ⟨0xE0, 0, 32⟩
def FLT_UNRET : Fld := ⟨0x120, 0, 11⟩
def FLT_UNRES : Fld := ⟨0x124, 0, 3⟩
def FLT_TRANSCNT : Fld := ⟨0x140, 0, 32⟩
def FLT_PERMCNT : Fld := ⟨0x144, 0, 32⟩
def FLT_REPLAYCNT : Fld := ⟨0x148, 0, 32⟩
def FLT_NRPLCNT : Fld := ⟨0x14C, 0, 32⟩
def FLT_PARERR : Fld := ⟨0x150, 0, 32⟩
def FLT_STOREFAIL : Fld := ⟨0x154, 0, 32⟩
def FLT_DOWNCNT : Fld := ⟨0x158, 0, 32⟩

/-! ### GS fields -/
def GS_BANDCFG_CEN_A : Fld := ⟨0x0, 0, 1⟩
def GS_BANDCFG_CEN_B : Fld := ⟨0x0, 1, 1⟩
def GS_BANDCFG_OVL : Fld := ⟨0x0, 2, 2⟩
def GS_RCTL_START : Fld := ⟨0x4, 0, 12⟩
def GS_RCTL_OP : Fld := ⟨0x4, 12, 2⟩
def GS_RCTL_WHEN : Fld := ⟨0x4, 14, 1⟩
def GS_RCTL_GO : Fld := ⟨0x4, 16, 1⟩
def GS_RCTL_RESULT : Fld := ⟨0x4, 17, 3⟩
def GS_RSTAT_CUR : Fld := ⟨0x8, 0, 12⟩
def GS_RSTAT_RUN : Fld := ⟨0x8, 12, 1⟩
def GS_RSTAT_WAIT : Fld := ⟨0x8, 13, 1⟩
def GS_RSTAT_HELD : Fld := ⟨0x8, 14, 1⟩
def GS_RSTAT_HOPPING : Fld := ⟨0x8, 15, 1⟩
def GS_RSTAT_CLEARED : Fld := ⟨0x8, 16, 1⟩
def GS_RSTAT_ORIGIN : Fld := ⟨0x8, 17, 2⟩
def GS_RSTAT_RING : Fld := ⟨0x8, 20, 4⟩
def GS_RSTAT_END_ST : Fld := ⟨0x8, 24, 3⟩
def GS_HOPCTL_INDEX : Fld := ⟨0xC, 0, 12⟩
def GS_HOPCTL_SRC : Fld := ⟨0xC, 12, 1⟩
def GS_HOPCTL_GO : Fld := ⟨0xC, 16, 1⟩
def GS_HOPCTL_RESULT : Fld := ⟨0xC, 17, 3⟩
def GS_LASTHOP_LOCKT : Fld := ⟨0x10, 0, 16⟩
def GS_LASTHOP_SEARCHED : Fld := ⟨0x10, 16, 1⟩
def GS_LASTHOP_MISS : Fld := ⟨0x10, 17, 1⟩
def GS_LASTHOP_DISTRUST : Fld := ⟨0x10, 18, 1⟩
def GS_LASTHOP_FALLBACK : Fld := ⟨0x10, 19, 1⟩
def GS_LASTHOP_SWING : Fld := ⟨0x10, 20, 1⟩
def GS_HOPCNT : Fld := ⟨0x14, 0, 32⟩
def GS_SRCHCNT : Fld := ⟨0x18, 0, 32⟩
def GS_MISSCNT : Fld := ⟨0x1C, 0, 32⟩
def GS_SLIPCNT : Fld := ⟨0x20, 0, 32⟩
def GS_TRIGDROP : Fld := ⟨0x24, 0, 32⟩
def GS_HOLDCTL_RETPOL : Fld := ⟨0x40, 0, 2⟩
def GS_HOLDCTL_PAUSE : Fld := ⟨0x40, 2, 1⟩
def GS_HOLDCTL_RATE : Fld := ⟨0x40, 4, 7⟩
def GS_HOLDCTL_CLROFS : Fld := ⟨0x40, 16, 1⟩
def GS_HOLDSTAT_COAST : Fld := ⟨0x44, 0, 1⟩
def GS_HOLDSTAT_PAUSED : Fld := ⟨0x44, 1, 1⟩
def GS_HOLDSTAT_REALIGNING : Fld := ⟨0x44, 2, 1⟩
def GS_HOLDSTAT_OFSNZ : Fld := ⟨0x44, 3, 1⟩
def GS_HOLDSTAT_LASTRET : Fld := ⟨0x44, 4, 3⟩
def GS_HOLDSTAT_DEFER : Fld := ⟨0x44, 7, 1⟩
def GS_PJ_CTRL_SEL : Fld := ⟨0x48, 0, 1⟩
def GS_PJ_CTRL_GO : Fld := ⟨0x48, 4, 1⟩
def GS_PJ_CTRL_VALID : Fld := ⟨0x48, 5, 1⟩
def GS_PJ_Q0 : Fld := ⟨0x4C, 0, 32⟩
def GS_PJ_Q1 : Fld := ⟨0x50, 0, 32⟩
def GS_POLICY_POL : Fld := ⟨0x60, 0, 1⟩
def GS_POLICY_SWMODE : Fld := ⟨0x60, 1, 1⟩
def GS_POLICY_TWIN : Fld := ⟨0x60, 4, 4⟩
def GS_POLICY_FORCE : Fld := ⟨0x60, 16, 1⟩
def GS_POLICY_FRES : Fld := ⟨0x60, 17, 2⟩
def GS_SWSTAT_ACT : Fld := ⟨0x64, 0, 1⟩
def GS_SWSTAT_POLIF : Fld := ⟨0x64, 1, 1⟩
def GS_SWSTAT_POLPEND : Fld := ⟨0x64, 2, 1⟩
def GS_SWSTAT_GUARD : Fld := ⟨0x64, 3, 1⟩
def GS_SWSTAT_EXPOSED : Fld := ⟨0x64, 4, 1⟩
def GS_SWSTAT_PRELOCK : Fld := ⟨0x64, 5, 1⟩
def GS_SWSTAT_GAP : Fld := ⟨0x64, 6, 1⟩
def GS_SWSTAT_UNANCH : Fld := ⟨0x64, 7, 1⟩
def GS_SWSTAT_ANKIND : Fld := ⟨0x64, 8, 3⟩
def GS_MSCFG_TAKE : Fld := ⟨0x68, 0, 1⟩
def GS_MSCFG_EVERY : Fld := ⟨0x68, 1, 5⟩
def GS_SWCNT : Fld := ⟨0x6C, 0, 32⟩
def GS_FSWCNT : Fld := ⟨0x70, 0, 32⟩
def GS_GAPCNT : Fld := ⟨0x74, 0, 32⟩
def GS_FBCNT : Fld := ⟨0x78, 0, 32⟩
def GS_MSCNT : Fld := ⟨0x7C, 0, 32⟩
def GS_MSSKIP : Fld := ⟨0x80, 0, 32⟩
def GS_PCFG_VSRC : Fld := ⟨0x300, 0, 5⟩
def GS_PCFG_WIDTH : Fld := ⟨0x300, 5, 6⟩
def GS_PSTAT_STEP : Fld := ⟨0x304, 0, 1⟩
def GS_PSTAT_FHOLD : Fld := ⟨0x304, 1, 1⟩
def GS_PSTAT_TWAIT : Fld := ⟨0x304, 2, 1⟩
def GS_PSTAT_CLEARED : Fld := ⟨0x304, 3, 1⟩
def GS_PSTAT_LINE : Fld := ⟨0x304, 4, 17⟩
def GS_PSTAT_OVL : Fld := ⟨0x304, 21, 1⟩
def GS_PSTAT_SITEPEND : Fld := ⟨0x304, 22, 1⟩
def GS_STEPCNT : Fld := ⟨0x308, 0, 32⟩
def GS_HOLDCNT : Fld := ⟨0x30C, 0, 32⟩
def GS_SITE_MAP : Fld := ⟨0x320, 0, 32⟩
def GS_SITE_CFG_EN : Fld := ⟨0x330, 0, 1⟩
def GS_SITE_CFG_LEAD : Fld := ⟨0x330, 1, 5⟩
def GS_PMB_CTRL_OP : Fld := ⟨0x340, 0, 1⟩
def GS_PMB_CTRL_INC : Fld := ⟨0x340, 1, 1⟩
def GS_PMB_CTRL_GO : Fld := ⟨0x340, 4, 1⟩
def GS_PMB_CTRL_VALID : Fld := ⟨0x340, 5, 1⟩
def GS_PMB_CTRL_RESULT : Fld := ⟨0x340, 6, 2⟩
def GS_PMB_ADDR : Fld := ⟨0x344, 0, 17⟩
def GS_PMB_D0 : Fld := ⟨0x350, 0, 32⟩
def GS_PMB_D1 : Fld := ⟨0x354, 0, 32⟩
def GS_PMB_D2 : Fld := ⟨0x358, 0, 32⟩
def GS_PMB_D3 : Fld := ⟨0x35C, 0, 32⟩
def GS_PMB_Q0 : Fld := ⟨0x360, 0, 32⟩
def GS_PMB_Q1 : Fld := ⟨0x364, 0, 32⟩
def GS_PMB_Q2 : Fld := ⟨0x368, 0, 32⟩
def GS_PMB_Q3 : Fld := ⟨0x36C, 0, 32⟩

/-! ### Leaf page fields -/
def LP_LCFG_REFDIV : Fld := ⟨0x0, 0, 10⟩
def LP_LCFG_DBL : Fld := ⟨0x0, 10, 1⟩
def LP_LCFG_DITHER : Fld := ⟨0x0, 11, 1⟩
def LP_LCFG_CPLIN : Fld := ⟨0x0, 12, 1⟩
def LP_LCFG_FLB_EN : Fld := ⟨0x0, 13, 1⟩
def LP_LCFG_ICP : Fld := ⟨0x0, 16, 5⟩
def LP_LCFG_ICP_AUTO : Fld := ⟨0x0, 21, 1⟩
def LP_LCFG_LBW : Fld := ⟨0x0, 24, 4⟩
def LP_LBOOST : Fld := ⟨0x4, 0, 8⟩
def LP_SEED : Fld := ⟨0x8, 0, 32⟩
def LP_SLEW : Fld := ⟨0xC, 0, 6⟩
def LP_LSTAT_BAND : Fld := ⟨0x10, 0, 7⟩
def LP_LSTAT_ICP_USED : Fld := ⟨0x10, 8, 5⟩
def LP_LSTAT_LBW_USED : Fld := ⟨0x10, 16, 4⟩
def LP_LSTAT_CFGPEND : Fld := ⟨0x10, 20, 1⟩
def LP_LSTAT_SLEWING : Fld := ⟨0x10, 21, 1⟩
def LP_LSTAT_SLEWCLAMP : Fld := ⟨0x10, 22, 1⟩
def LP_LSTAT_BOOST : Fld := ⟨0x10, 23, 1⟩
def LP_LSTAT_DITH_ACT : Fld := ⟨0x10, 24, 1⟩
def LP_LSTAT_SPUR1 : Fld := ⟨0x10, 26, 1⟩
def LP_LSTAT_SPUR2 : Fld := ⟨0x10, 27, 1⟩
def LP_LSTAT_SPUR3 : Fld := ⟨0x10, 28, 1⟩
def LP_LSTAT_SPUR4 : Fld := ⟨0x10, 29, 1⟩
def LP_LSTAT_SPUR5 : Fld := ⟨0x10, 30, 1⟩
def LP_KVCO : Fld := ⟨0x14, 0, 16⟩
def LP_RMB_CTRL_OP : Fld := ⟨0x20, 0, 2⟩
def LP_RMB_CTRL_GO : Fld := ⟨0x20, 4, 1⟩
def LP_RMB_CTRL_VALID : Fld := ⟨0x20, 5, 1⟩
def LP_RMB_CTRL_RESULT : Fld := ⟨0x20, 8, 3⟩
def LP_RMB_D0 : Fld := ⟨0x24, 0, 32⟩
def LP_RMB_D1 : Fld := ⟨0x28, 0, 32⟩
def LP_RMB_D2 : Fld := ⟨0x2C, 0, 32⟩
def LP_RMB_Q0 : Fld := ⟨0x30, 0, 32⟩
def LP_RMB_Q1 : Fld := ⟨0x34, 0, 32⟩
def LP_RMB_Q2 : Fld := ⟨0x38, 0, 32⟩
def LP_LDCFG_WIN : Fld := ⟨0x40, 0, 6⟩
def LP_LDCFG_KC : Fld := ⟨0x40, 8, 4⟩
def LP_LDCFG_UCNT : Fld := ⟨0x40, 12, 4⟩
def LP_LDCFG_TOEXP : Fld := ⟨0x40, 16, 4⟩
def LP_HCFG_AVG : Fld := ⟨0x44, 0, 4⟩
def LP_HCFG_QUAL : Fld := ⟨0x44, 4, 3⟩
def LP_LSTATE_STATE : Fld := ⟨0x48, 0, 3⟩
def LP_LSTATE_REFOK : Fld := ⟨0x48, 3, 1⟩
def LP_LSTATE_HOLDQ : Fld := ⟨0x48, 4, 1⟩
def LP_LSTATE_FOLLOW : Fld := ⟨0x48, 5, 1⟩
def LP_LSTATE_OFFSET : Fld := ⟨0x48, 6, 1⟩
def LP_LSTATE_WAITREF : Fld := ⟨0x48, 7, 1⟩
def LP_LSTATE_RETRY : Fld := ⟨0x48, 8, 2⟩
def LP_LSTATE_CAUSE : Fld := ⟨0x48, 12, 3⟩
def LP_TMON : Fld := ⟨0x4C, 0, 16⟩
def LP_TAVG : Fld := ⟨0x50, 0, 24⟩
def LP_HDAC_DACV : Fld := ⟨0x54, 0, 24⟩
def LP_HDAC_ENG : Fld := ⟨0x54, 24, 1⟩
def LP_HOLDT : Fld := ⟨0x58, 0, 32⟩
def LP_LOSSCNT : Fld := ⟨0x5C, 0, 32⟩
def LP_HOLDCNT : Fld := ⟨0x60, 0, 32⟩
def LP_RETRYCNT : Fld := ⟨0x64, 0, 32⟩

/-! ### OUT fields -/
def OUT_PM_CTRL_SEL : Fld := ⟨0x400, 0, 6⟩
def OUT_PM_CTRL_OP : Fld := ⟨0x400, 6, 2⟩
def OUT_PM_CTRL_AVG : Fld := ⟨0x400, 8, 4⟩
def OUT_PM_CTRL_GO : Fld := ⟨0x400, 12, 1⟩
def OUT_PM_CTRL_VALID : Fld := ⟨0x400, 13, 1⟩
def OUT_PM_CTRL_RESULT : Fld := ⟨0x400, 14, 2⟩
def OUT_PM_Q0 : Fld := ⟨0x404, 0, 32⟩
def OUT_PM_Q1 : Fld := ⟨0x408, 0, 32⟩
def OUT_PM_Q2 : Fld := ⟨0x40C, 0, 32⟩
def OUT_APPLY_WHEN : Fld := ⟨0x420, 0, 1⟩
def OUT_APPLY_GO : Fld := ⟨0x420, 4, 1⟩
def OUT_APPLY_RESULT : Fld := ⟨0x420, 5, 2⟩
def OUT_PW_CFG_SRC : Fld := ⟨0x440, 0, 6⟩
def OUT_PW_CFG_EN : Fld := ⟨0x440, 6, 1⟩
def OUT_PW_OFS : Fld := ⟨0x444, 0, 32⟩
def OUT_PW_STAT_PEND : Fld := ⟨0x448, 0, 1⟩
def OUT_PW_STAT_RUN : Fld := ⟨0x448, 1, 1⟩
def OUT_PW_STAT_ILLEG : Fld := ⟨0x448, 2, 1⟩
def OUT_PW_STAT_FIT : Fld := ⟨0x448, 3, 1⟩
def OUT_PW_STAT_UNSET : Fld := ⟨0x448, 4, 1⟩
def OUT_PW_STAT_CONT : Fld := ⟨0x448, 5, 1⟩
def OUT_COH_N0 : Fld := ⟨0x44C, 0, 32⟩
def OUT_COH_J0 : Fld := ⟨0x450, 0, 32⟩
def OUT_PWRST : Fld := ⟨0x454, 0, 32⟩
def OUT_ODTRIM : Fld := ⟨0x600, 0, 10⟩

/-! ### Output (OUTg, per output) fields -/
def OP_OCFG_ODIV : Fld := ⟨0x0, 0, 16⟩
def OP_OCFG_PS : Fld := ⟨0x0, 16, 5⟩
def OP_OCFG_EN : Fld := ⟨0x0, 24, 1⟩
def OP_ODFRAC : Fld := ⟨0x4, 0, 32⟩
def OP_ODLY_COARSE : Fld := ⟨0x8, 0, 16⟩
def OP_ODLY_FINE : Fld := ⟨0x8, 16, 8⟩
def OP_OSTAT_PEND : Fld := ⟨0xC, 0, 1⟩
def OP_OSTAT_ON : Fld := ⟨0xC, 1, 1⟩
def OP_OSTAT_LIVE : Fld := ⟨0xC, 2, 1⟩
def OP_OSTAT_PARKED : Fld := ⟨0xC, 3, 1⟩
def OP_OSTAT_ILLEG : Fld := ⟨0xC, 4, 1⟩
def OP_OSTAT_SPUR6 : Fld := ⟨0xC, 5, 1⟩
def OP_OSTAT_SPUR7 : Fld := ⟨0xC, 6, 1⟩
def OP_OSTAT_CARRY : Fld := ⟨0xC, 7, 1⟩

/-! ### RT fields -/
def RT_CTRL_OP : Fld := ⟨0x0, 0, 3⟩
def RT_CTRL_INC : Fld := ⟨0x0, 3, 1⟩
def RT_CTRL_GO : Fld := ⟨0x0, 4, 1⟩
def RT_CTRL_VALID : Fld := ⟨0x0, 5, 1⟩
def RT_CTRL_RESULT : Fld := ⟨0x0, 6, 3⟩
def RT_INDEX : Fld := ⟨0x4, 0, 12⟩
def RT_D0 : Fld := ⟨0x10, 0, 32⟩
def RT_D1 : Fld := ⟨0x14, 0, 32⟩
def RT_D2 : Fld := ⟨0x18, 0, 32⟩
def RT_D3 : Fld := ⟨0x1C, 0, 32⟩
def RT_Q0 : Fld := ⟨0x20, 0, 32⟩
def RT_Q1 : Fld := ⟨0x24, 0, 32⟩
def RT_Q2 : Fld := ⟨0x28, 0, 32⟩
def RT_Q3 : Fld := ⟨0x2C, 0, 32⟩

/-! ### CH fields -/
def CH_CMODE_MODE : Fld := ⟨0x0, 0, 3⟩
def CH_CMODE_DRV : Fld := ⟨0x0, 3, 1⟩
def CH_CMODE_IDLE : Fld := ⟨0x0, 4, 2⟩
def CH_CMODE_TEN : Fld := ⟨0x0, 6, 1⟩
def CH_CMODE_ADCEN : Fld := ⟨0x0, 7, 1⟩
def CH_CMODE_ADCSRC : Fld := ⟨0x0, 8, 2⟩
def CH_CMODE_ADCRNG : Fld := ⟨0x0, 10, 1⟩
def CH_CSTAT_MODEIF : Fld := ⟨0x4, 0, 3⟩
def CH_CSTAT_PEND : Fld := ⟨0x4, 3, 1⟩
def CH_CSTAT_ILLEG : Fld := ⟨0x4, 4, 1⟩
def CH_CSTAT_SPARE : Fld := ⟨0x4, 5, 1⟩
def CH_CSTAT_SHADOW : Fld := ⟨0x4, 6, 1⟩
def CH_CSTAT_PCLAMP : Fld := ⟨0x4, 7, 1⟩
def CH_CSTAT_INSITE : Fld := ⟨0x4, 8, 1⟩
def CH_DRVLVL_VIH : Fld := ⟨0x8, 0, 16⟩
def CH_DRVLVL_VIL : Fld := ⟨0x8, 16, 16⟩
def CH_CMPLVL_VCH : Fld := ⟨0xC, 0, 16⟩
def CH_CMPLVL_VCL : Fld := ⟨0xC, 16, 16⟩
def CH_AUXLVL_VTERM : Fld := ⟨0x10, 0, 16⟩
def CH_AUXLVL_ACEN : Fld := ⟨0x10, 16, 16⟩
def CH_PMUCFG_PFM : Fld := ⟨0x14, 0, 1⟩
def CH_PMUCFG_IRNG : Fld := ⟨0x14, 1, 3⟩
def CH_PMUVAL_FORCE : Fld := ⟨0x18, 0, 16⟩
def CH_PMUVAL_CLAMP : Fld := ⟨0x18, 16, 16⟩
def CH_TSFMT : Fld := ⟨0x1C, 0, 32⟩
def CH_FAILCNT : Fld := ⟨0x20, 0, 32⟩
def CH_FIRSTFAIL : Fld := ⟨0x24, 0, 32⟩
def CH_OVFCNT : Fld := ⟨0x28, 0, 32⟩
def CH_CLIPCNT : Fld := ⟨0x2C, 0, 32⟩
def CH_TS_ON_COARSE : Fld := ⟨0x100, 0, 16⟩
def CH_TS_ON_FINE : Fld := ⟨0x100, 16, 8⟩
def CH_TS_DATA_COARSE : Fld := ⟨0x104, 0, 16⟩
def CH_TS_DATA_FINE : Fld := ⟨0x104, 16, 8⟩
def CH_TS_OFF_COARSE : Fld := ⟨0x108, 0, 16⟩
def CH_TS_OFF_FINE : Fld := ⟨0x108, 16, 8⟩
def CH_TS_STRB_COARSE : Fld := ⟨0x10C, 0, 16⟩
def CH_TS_STRB_FINE : Fld := ⟨0x10C, 16, 8⟩
def CH_TR_DRVF_OFS : Fld := ⟨0x200, 0, 12⟩
def CH_TR_DRVF_GAIN : Fld := ⟨0x200, 16, 12⟩
def CH_TR_DRVA_OFS : Fld := ⟨0x204, 0, 12⟩
def CH_TR_DRVA_GAIN : Fld := ⟨0x204, 16, 12⟩
def CH_TR_CMP_H : Fld := ⟨0x208, 0, 10⟩
def CH_TR_CMP_L : Fld := ⟨0x208, 16, 10⟩
def CH_TR_PMUFV_OFS : Fld := ⟨0x20C, 0, 14⟩
def CH_TR_PMUFV_GAIN : Fld := ⟨0x20C, 16, 14⟩
def CH_TR_PMUMI_OFS : Fld := ⟨0x210, 0, 14⟩
def CH_TR_PMUMI_GAIN : Fld := ⟨0x210, 16, 14⟩
def CH_TR_ADC_OFS : Fld := ⟨0x224, 0, 14⟩
def CH_TR_ADC_GAIN : Fld := ⟨0x224, 16, 14⟩
def CH_TR_TIME0_ON : Fld := ⟨0x22C, 0, 10⟩
def CH_TR_TIME0_DATA : Fld := ⟨0x22C, 16, 10⟩
def CH_TR_TIME1_OFF : Fld := ⟨0x230, 0, 10⟩
def CH_TR_TIME1_STRB : Fld := ⟨0x230, 16, 10⟩
def CH_TR_PATH_DRV : Fld := ⟨0x234, 0, 16⟩
def CH_TR_PATH_STRB : Fld := ⟨0x234, 16, 16⟩
def CH_TR_APER : Fld := ⟨0x238, 0, 16⟩
def CH_CALINFO_STATUS : Fld := ⟨0x23C, 0, 4⟩
def CH_CALINFO_CQ : Fld := ⟨0x23C, 4, 8⟩
def CH_CALINFO_TEMP : Fld := ⟨0x23C, 12, 8⟩
def CH_CALINFO_NOCAL : Fld := ⟨0x23C, 20, 1⟩
def CH_CALINFO_TRPEND : Fld := ⟨0x23C, 21, 1⟩
def CH_SPPATH_DRV : Fld := ⟨0x280, 0, 16⟩
def CH_SPPATH_STRB : Fld := ⟨0x280, 16, 16⟩

/-! ### ENG fields -/
def ENG_ECTL_ENTRY : Fld := ⟨0x0, 0, 10⟩
def ENG_ECTL_START : Fld := ⟨0x0, 16, 1⟩
def ENG_ECTL_STOP : Fld := ⟨0x0, 17, 1⟩
def ENG_ECTL_RESULT : Fld := ⟨0x0, 18, 3⟩
def ENG_ESTAT_STATE : Fld := ⟨0x4, 0, 3⟩
def ENG_ESTAT_CRCBUSY : Fld := ⟨0x4, 3, 1⟩
def ENG_ESTAT_WAITON : Fld := ⟨0x4, 4, 2⟩
def ENG_ESTAT_SPARE : Fld := ⟨0x4, 6, 1⟩
def ENG_ESTAT_PC : Fld := ⟨0x4, 8, 10⟩
def ENG_EXCINFO_CODE : Fld := ⟨0x8, 0, 4⟩
def ENG_EXCINFO_PC : Fld := ⟨0x8, 8, 10⟩
def ENG_IMGCRC : Fld := ⟨0xC, 0, 32⟩
def ENG_EXCCNT : Fld := ⟨0x10, 0, 32⟩
def ENG_DISCCNT : Fld := ⟨0x14, 0, 32⟩
def ENG_EMITCNT : Fld := ⟨0x18, 0, 32⟩
def ENG_LEVELS_SFIFO : Fld := ⟨0x20, 0, 7⟩
def ENG_LEVELS_INBOX : Fld := ⟨0x20, 8, 10⟩
def ENG_LEVELS_CFIFO : Fld := ⟨0x20, 18, 5⟩
def ENG_SERVES_ENG : Fld := ⟨0x30, 0, 10⟩
def ENG_SERVES_VALID : Fld := ⟨0x30, 15, 1⟩

end R

/-- Access rows of GLB. -/
def rowsGLB : List RegRow :=
  [ { off := 0x0, rst := 0x50420512 }
  , { off := 0x4 }
  , { off := 0x8, rst := 0x10, tmb := 0x7 }
  , { off := 0xC, rw := 0x7, go := 0x80000000 }
  , { off := 0x20, cn := 0xFFFFFFFF }
  , { off := 0x24, cn := 0xFFFFFFFF }
  , { off := 0x28, cn := 0xFFFFFFFF }
  , { off := 0x2C, cn := 0xFFFFFFFF }
  , { off := 0x30, cn := 0xFFFFFFFF }
  , { off := 0x34, cn := 0xFFFFFFFF }
  , { off := 0x38 } ]

/-- Access rows of PROT. -/
def rowsPROT : List RegRow :=
  [ { off := 0x0, shp := 0xF, img := 0xF, rst := 0x5, tmb := 0xF }
  , { off := 0x4, go := 0x3 }
  , { off := 0x8, rw := 0xFF0F }
  , { off := 0xC, rw := 0xFFFFFFFF }
  , { off := 0x10 }
  , { off := 0x14, bolt := 0xFFFFFFFF }
  , { off := 0x18, bolt := 0xFFFFFFFF }
  , { off := 0x20, count := 16, stride := 4, bolt := 0xFFFFFFFF, img := 0xFFFFFFFF }
  , { off := 0x60, cn := 0xFFFFFFFF }
  , { off := 0x64, cn := 0xFFFFFFFF }
  , { off := 0x68, cn := 0xFFFFFFFF }
  , { off := 0x6C, cn := 0xFFFFFFFF } ]

/-- Access rows of HIF. -/
def rowsHIFA : List RegRow :=
  [ { off := 0x0 }
  , { off := 0x10, rw := 0xFF, go := 0x100 }
  , { off := 0x14, rw := 0xFFFFFFFF }
  , { off := 0x18, rw := 0xFFFFFFFF }
  , { off := 0x1C, rw := 0xFFFFFFFF }
  , { off := 0x20, rw := 0xFFFFFFFF }
  , { off := 0x24, rw := 0xFFFFFFFF }
  , { off := 0x28, rw := 0xFFFFFFFF }
  , { off := 0x2C, rw := 0xFFFFFFFF }
  , { off := 0x34 }
  , { off := 0x38 }
  , { off := 0x3C }
  , { off := 0x40 }
  , { off := 0x44 }
  , { off := 0x48 }
  , { off := 0x4C }
  , { off := 0x100, count := 17, stride := 16 }
  , { off := 0x104, count := 17, stride := 16 }
  , { off := 0x108, count := 17, stride := 16, cn := 0xFFFFFFFF }
  , { off := 0x300, rw := 0xFFF }
  , { off := 0x304, cn := 0xFFFFFFFF }
  , { off := 0x380, count := 16, stride := 4 }
  , { off := 0x800, count := 64, stride := 16, rw := 0xFFFFFFFC }
  , { off := 0x804, count := 64, stride := 16, rw := 0xFFFFFFFF } ]

/-- Access rows of HIF. -/
def rowsHIFB : List RegRow :=
  [ { off := 0x808, count := 64, stride := 16, rw := 0xFFFFFFFF }
  , { off := 0x80C, count := 64, stride := 16, rw := 0x1, rst := 0x1 }
  , { off := 0xC00, count := 2, stride := 4 } ]

/-- Access rows of HIF. -/
def rowsHIF : List RegRow := rowsHIFA ++ rowsHIFB

/-- Access rows of KWY. -/
def rowsKWY : List RegRow :=
  [ { off := 0x0, rw := 0x3FFF, rst := 0x20 }
  , { off := 0x4 }
  , { off := 0x10, cn := 0xFFFFFFFF }
  , { off := 0x14, cn := 0xFFFFFFFF }
  , { off := 0x18, cn := 0xFFFFFFFF } ]

/-- Access rows of HK. -/
def rowsHK : List RegRow :=
  [ { off := 0x0 }
  , { off := 0x4 }
  , { off := 0x8, count := 6, stride := 4 }
  , { off := 0x20 }
  , { off := 0x24, cn := 0xFFFFFFFF }
  , { off := 0x100, rw := 0xFFFFFFF, img := 0xFFFFFFF, rst := 0x67D7369, tmb := 0xFFFFFFF }
  , { off := 0x104, bolt := 0x3, img := 0x3, tmb := 0x3 }
  , { off := 0x108 }
  , { off := 0x10C }
  , { off := 0x110 }
  , { off := 0x120, cn := 0xFFFFFFFF }
  , { off := 0x124, cn := 0xFFFFFFFF }
  , { off := 0x128, cn := 0xFFFFFFFF }
  , { off := 0x140, count := 24, stride := 4 } ]

/-- Access rows of REC. -/
def rowsREC : List RegRow :=
  [ { off := 0x0, rw := 0x7FF, img := 0x7FF, rst := 0x3C }
  , { off := 0x4, rw := 0x7, go := 0x10 }
  , { off := 0x8, rw := 0xFFFFFFFF }
  , { off := 0xC, rw := 0xFFFFFFFF }
  , { off := 0x10 }
  , { off := 0x14 }
  , { off := 0x18 }
  , { off := 0x1C }
  , { off := 0x20 }
  , { off := 0x24 }
  , { off := 0x28 }
  , { off := 0x2C }
  , { off := 0x30, cn := 0xFFFFFFFF, tmb := 0xFFFFFFFF }
  , { off := 0x34, cn := 0xFFFFFFFF }
  , { off := 0x38, cn := 0xFFFFFFFF }
  , { off := 0x3C, cn := 0xFFFFFFFF }
  , { off := 0x100, count := 64, stride := 4 } ]

/-- Access rows of CAL. -/
def rowsCAL : List RegRow :=
  [ { off := 0x0, rw := 0xFFFFFF1B, bolt := 0x4, img := 0xFFFFFF1B }
  , { off := 0x4, rw := 0x7FFF, img := 0x7FFF }
  , { off := 0x8, rw := 0xFFFFFFFF, img := 0xFFFFFFFF }
  , { off := 0xC, rw := 0xFFFF, img := 0xFFFF }
  , { off := 0x10, rw := 0xFFFFFFFF, img := 0xFFFFFFFF }
  , { off := 0x14, rw := 0xFFFFFFFF, img := 0xFFFFFFFF }
  , { off := 0x18, rw := 0xFFC07, go := 0x10 }
  , { off := 0x1C, slot := 0xFF00 }
  , { off := 0x20 }
  , { off := 0x24 }
  , { off := 0x30 }
  , { off := 0x34 }
  , { off := 0x38 }
  , { off := 0x3C }
  , { off := 0x40, cn := 0xFFFFFFFF }
  , { off := 0x44, cn := 0xFFFFFFFF }
  , { off := 0x48, cn := 0xFFFFFFFF }
  , { off := 0x4C, cn := 0xFFFFFFFF }
  , { off := 0x50, cn := 0xFFFFFFFF }
  , { off := 0x400, count := 34, stride := 8, bolt := 0x3FF03FF, slot := 0x3FF03FF }
  , { off := 0x404, count := 34, stride := 8, bolt := 0xFFF, slot := 0xFFF, rst := 0x800 } ]

/-- Access rows of MSC. -/
def rowsMSCA : List RegRow :=
  [ { off := 0x0, rw := 0x7FF, img := 0x7FF, rst := 0x8 }
  , { off := 0x4, rw := 0x7, go := 0x10 }
  , { off := 0x8 }
  , { off := 0xC }
  , { off := 0x10, rw := 0xFFFFFFFF, img := 0xFFFFFFFF }
  , { off := 0x14 }
  , { off := 0x18, rw := 0xFFFFFFFF, img := 0xFFFFFFFF }
  , { off := 0x20, rw := 0xF, go := 0x10 }
  , { off := 0x24, rw := 0xFFFFFFFF }
  , { off := 0x28, rw := 0xFFFFFFFF }
  , { off := 0x2C }
  , { off := 0x30 }
  , { off := 0x40, cn := 0xFFFFFFFF }
  , { off := 0x44, cn := 0xFFFFFFFF }
  , { off := 0x48, cn := 0xFFFFFFFF }
  , { off := 0x4C, cn := 0xFFFFFFFF }
  , { off := 0x50, cn := 0xFFFFFFFF }
  , { off := 0x54, cn := 0xFFFFFFFF }
  , { off := 0x60, rw := 0x1FFF, go := 0x10000 }
  , { off := 0x64, rw := 0xFFFFFFFF }
  , { off := 0x68, rw := 0xFFFFFFFF }
  , { off := 0x6C, rw := 0xFFFFFFFF }
  , { off := 0x70, rw := 0xFFFF }
  , { off := 0x74, go := 0x10000 } ]

/-- Access rows of MSC. -/
def rowsMSCB : List RegRow :=
  [ { off := 0x78 }
  , { off := 0x7C }
  , { off := 0x80 }
  , { off := 0x84 } ]

/-- Access rows of MSC. -/
def rowsMSC : List RegRow := rowsMSCA ++ rowsMSCB

/-- Access rows of SYS. -/
def rowsSYS : List RegRow :=
  [ { off := 0x10, bolt := 0xFFFFFFFF, img := 0xFFFFFFFF, rst := 0x5F5E100 }
  , { off := 0x14 }
  , { off := 0x20, go := 0x1 }
  , { off := 0x24 }
  , { off := 0x28 }
  , { off := 0x2C, rw := 0x1F, img := 0x1F } ]

/-- Access rows of EVT. -/
def rowsEVT : List RegRow :=
  [ { off := 0x0, rw := 0xFFFFFFFF, img := 0xFFFFFFFF, rst := 0xFFFFFFFF }
  , { off := 0x4, rw := 0xFFFFFFFF, img := 0xFFFFFFFF, rst := 0xFFFFFFFF }
  , { off := 0x8, rw := 0xFFFFFFFF, img := 0xFFFFFFFF, rst := 0xFFFFFFFF }
  , { off := 0xC, rw := 0xFFFFFFFF, img := 0xFFFFFFFF, rst := 0xFFFFFFFF }
  , { off := 0x10, rw := 0xFFFFFFFF, img := 0xFFFFFFFF, rst := 0xFFFFFFFF }
  , { off := 0x14, rw := 0xFFFFFFFF, img := 0xFFFFFFFF, rst := 0xFFFFFFFF }
  , { off := 0x18, rw := 0xFFFFFFFF, img := 0xFFFFFFFF, rst := 0xFFFFFFFF }
  , { off := 0x1C, rw := 0xFFFFFFFF, img := 0xFFFFFFFF, rst := 0xFFFFFFFF }
  , { off := 0x20, rw := 0xFFFFFFFF, img := 0xFFFFFFFF }
  , { off := 0x24, rw := 0xFFFFFFFF, img := 0xFFFFFFFF }
  , { off := 0x28, rw := 0xFFFFFFFF, img := 0xFFFFFFFF }
  , { off := 0x2C, rw := 0xFFFFFFFF, img := 0xFFFFFFFF }
  , { off := 0x30, rw := 0xFFFFFFFF, img := 0xFFFFFFFF }
  , { off := 0x34, rw := 0xFFFFFFFF, img := 0xFFFFFFFF }
  , { off := 0x38, rw := 0xFFFFFFFF, img := 0xFFFFFFFF, rst := 0xFFFFFFFF }
  , { off := 0x3C, rw := 0xFFFFFFFF, img := 0xFFFFFFFF, rst := 0xFFFFFFFF }
  , { off := 0x40, count := 8, stride := 4 }
  , { off := 0x60, cn := 0xFFFFFFFF }
  , { off := 0x64, rw := 0xFFFFFFFF }
  , { off := 0x68 }
  , { off := 0x6C }
  , { off := 0x100, count := 64, stride := 4, rw := 0xFFFFFFFF, img := 0xFFFFFFFF } ]

/-- Access rows of FLT. -/
def rowsFLT : List RegRow :=
  [ { off := 0x0, rw := 0x3, img := 0x3, rst := 0x1 }
  , { off := 0x4 }
  , { off := 0x8 }
  , { off := 0x10, count := 16, stride := 4, shp := 0x7F, img := 0x7F, tmb := 0x7F }
  , { off := 0x50, count := 16, stride := 4, shp := 0xFFFFFFFF, img := 0xFFFFFFFF, tmb := 0xFFFFFFFF }
  , { off := 0x90, shp := 0xFFFFFFFF, img := 0xFFFFFFFF, tmb := 0xFFFFFFFF }
  , { off := 0x94, shp := 0x3, img := 0x3, tmb := 0x3 }
  , { off := 0xA0, count := 16, stride := 4, shp := 0xFFF, img := 0xFFF, tmb := 0xFFF }
  , { off := 0xE0, count := 16, stride := 4, shp := 0xFFFFFFFF, img := 0xFFFFFFFF, tmb := 0xFFFFFFFF }
  , { off := 0x120, rw := 0x7FF }
  , { off := 0x124 }
  , { off := 0x140, cn := 0xFFFFFFFF }
  , { off := 0x144, cn := 0xFFFFFFFF }
  , { off := 0x148, cn := 0xFFFFFFFF }
  , { off := 0x14C, cn := 0xFFFFFFFF }
  , { off := 0x150, cn := 0xFFFFFFFF }
  , { off := 0x154, cn := 0xFFFFFFFF }
  , { off := 0x158, cn := 0xFFFFFFFF } ]

/-- Access rows of GS. -/
def rowsGSA : List RegRow :=
  [ { off := 0x0, rw := 0xF, img := 0xF, rst := 0x3, tmb := 0x3 }
  , { off := 0x4, rw := 0x7FFF, go := 0x10000 }
  , { off := 0x8, rst := 0x10000 }
  , { off := 0xC, rw := 0x1FFF, go := 0x10000 }
  , { off := 0x10 }
  , { off := 0x14, cn := 0xFFFFFFFF }
  , { off := 0x18, cn := 0xFFFFFFFF }
  , { off := 0x1C, cn := 0xFFFFFFFF }
  , { off := 0x20, cn := 0xFFFFFFFF }
  , { off := 0x24, cn := 0xFFFFFFFF }
  , { off := 0x40, rw := 0x7F7, go := 0x10000, img := 0x7F7, rst := 0xA0 }
  , { off := 0x44 }
  , { off := 0x48, rw := 0x1, go := 0x10 }
  , { off := 0x4C }
  , { off := 0x50 }
  , { off := 0x60, rw := 0xF3, go := 0x10000, img := 0xF3, rst := 0x10, tmb := 0x1 }
  , { off := 0x64, img := 0x2, rst := 0x80 }
  , { off := 0x68, rw := 0x3F, img := 0x3F, rst := 0x1 }
  , { off := 0x6C, cn := 0xFFFFFFFF }
  , { off := 0x70, cn := 0xFFFFFFFF }
  , { off := 0x74, cn := 0xFFFFFFFF }
  , { off := 0x78, cn := 0xFFFFFFFF }
  , { off := 0x7C, cn := 0xFFFFFFFF }
  , { off := 0x80, cn := 0xFFFFFFFF } ]

/-- Access rows of GS. -/
def rowsGSB : List RegRow :=
  [ { off := 0x300, rw := 0x7FF, img := 0x7FF }
  , { off := 0x304, rst := 0x8 }
  , { off := 0x308, cn := 0xFFFFFFFF }
  , { off := 0x30C, cn := 0xFFFFFFFF }
  , { off := 0x320, count := 4, stride := 4, rw := 0xFFFFFFFF, img := 0xFFFFFFFF }
  , { off := 0x330, count := 4, stride := 4, rw := 0x3F, img := 0x3F }
  , { off := 0x340, rw := 0x3, go := 0x10 }
  , { off := 0x344, sh := 0x1FFFF }
  , { off := 0x350, rw := 0xFFFFFFFF }
  , { off := 0x354, rw := 0xFFFFFFFF }
  , { off := 0x358, rw := 0xFFFFFFFF }
  , { off := 0x35C, rw := 0xFFFFFFFF }
  , { off := 0x360 }
  , { off := 0x364 }
  , { off := 0x368 }
  , { off := 0x36C } ]

/-- Access rows of GS. -/
def rowsGS : List RegRow := rowsGSA ++ rowsGSB

/-- Access rows of a leaf page. -/
def rowsLP : List RegRow :=
  [ { off := 0x0, rw := 0xF3F3FFF, img := 0xF3F3FFF, rst := 0x92F3801 }
  , { off := 0x4, rw := 0xFF, img := 0xFF }
  , { off := 0x8, rw := 0xFFFFFFFF, rst := 0x1 }
  , { off := 0xC, rw := 0x3F, rst := 0x1E }
  , { off := 0x10 }
  , { off := 0x14 }
  , { off := 0x20, rw := 0x3, go := 0x10 }
  , { off := 0x24, rw := 0xFFFFFFFF }
  , { off := 0x28, rw := 0xFFFFFFFF }
  , { off := 0x2C, rw := 0xFFFFFFFF }
  , { off := 0x30 }
  , { off := 0x34 }
  , { off := 0x38 }
  , { off := 0x40, rw := 0xFFF3F, img := 0xFFF3F, rst := 0x83607 }
  , { off := 0x44, rw := 0x7F, img := 0x7F, rst := 0x16 }
  , { off := 0x48 }
  , { off := 0x4C }
  , { off := 0x50 }
  , { off := 0x54 }
  , { off := 0x58 }
  , { off := 0x5C, cn := 0xFFFFFFFF }
  , { off := 0x60, cn := 0xFFFFFFFF }
  , { off := 0x64, cn := 0xFFFFFFFF } ]

/-- Access rows of OUT. -/
def rowsOUT : List RegRow :=
  [ { off := 0x400, rw := 0xFFF, go := 0x1000 }
  , { off := 0x404 }
  , { off := 0x408 }
  , { off := 0x40C }
  , { off := 0x420, rw := 0x1, go := 0x10 }
  , { off := 0x440, rw := 0x7F, img := 0x7F }
  , { off := 0x444, rw := 0xFFFFFFFF, img := 0xFFFFFFFF }
  , { off := 0x448 }
  , { off := 0x44C }
  , { off := 0x450 }
  , { off := 0x454, cn := 0xFFFFFFFF }
  , { off := 0x600, count := 36, stride := 4, bolt := 0x3FF, slot := 0x3FF, rst := 0x200 } ]

/-- Access rows of one output of OUTg. -/
def rowsOP : List RegRow :=
  [ { off := 0x0, rw := 0x11FFFFF, img := 0x11FFFFF }
  , { off := 0x4, rw := 0xFFFFFFFF, img := 0xFFFFFFFF }
  , { off := 0x8, rw := 0xFFFFFF, img := 0xFFFFFF }
  , { off := 0xC } ]

/-- Access rows of RT. -/
def rowsRT : List RegRow :=
  [ { off := 0x0, rw := 0xF, go := 0x10 }
  , { off := 0x4, sh := 0xFFF }
  , { off := 0x10, rw := 0xFFFFFFFF }
  , { off := 0x14, rw := 0xFFFFFFFF }
  , { off := 0x18, rw := 0xFFFFFFFF }
  , { off := 0x1C, rw := 0xFFFFFFFF }
  , { off := 0x20 }
  , { off := 0x24 }
  , { off := 0x28 }
  , { off := 0x2C } ]

/-- Access rows of CH. -/
def rowsCHA : List RegRow :=
  [ { off := 0x0, rw := 0x7FF, img := 0x7FF }
  , { off := 0x4 }
  , { off := 0x8, rw := 0xFFFFFFFF, img := 0xFFFFFFFF }
  , { off := 0xC, rw := 0xFFFFFFFF, img := 0xFFFFFFFF }
  , { off := 0x10, rw := 0xFFFFFFFF, img := 0xFFFFFFFF }
  , { off := 0x14, rw := 0xF, img := 0xF }
  , { off := 0x18, rw := 0xFFFFFFFF, img := 0xFFFFFFFF }
  , { off := 0x1C, rw := 0xFFFFFFFF, img := 0xFFFFFFFF }
  , { off := 0x20, cn := 0xFFFFFFFF }
  , { off := 0x24, rst := 0xFFFFFFFF }
  , { off := 0x28, cn := 0xFFFFFFFF }
  , { off := 0x2C, cn := 0xFFFFFFFF }
  , { off := 0x100, count := 16, stride := 16, rw := 0xFFFFFF, img := 0xFFFFFF }
  , { off := 0x104, count := 16, stride := 16, rw := 0xFFFFFF, img := 0xFFFFFF }
  , { off := 0x108, count := 16, stride := 16, rw := 0xFFFFFF, img := 0xFFFFFF }
  , { off := 0x10C, count := 16, stride := 16, rw := 0xFFFFFF, img := 0xFFFFFF }
  , { off := 0x200, bolt := 0xFFF0FFF, slot := 0xFFF0FFF }
  , { off := 0x204, bolt := 0xFFF0FFF, slot := 0xFFF0FFF }
  , { off := 0x208, bolt := 0x3FF03FF, slot := 0x3FF03FF }
  , { off := 0x20C, bolt := 0x3FFF3FFF, slot := 0x3FFF3FFF }
  , { off := 0x210, count := 5, stride := 4, bolt := 0x3FFF3FFF, slot := 0x3FFF3FFF }
  , { off := 0x224, count := 2, stride := 4, bolt := 0x3FFF3FFF, slot := 0x3FFF3FFF }
  , { off := 0x22C, bolt := 0x3FF03FF, slot := 0x3FF03FF, rst := 0x2000200 }
  , { off := 0x230, bolt := 0x3FF03FF, slot := 0x3FF03FF, rst := 0x2000200 } ]

/-- Access rows of CH. -/
def rowsCHB : List RegRow :=
  [ { off := 0x234, bolt := 0xFFFFFFFF, slot := 0xFFFFFFFF }
  , { off := 0x238, bolt := 0xFFFF, slot := 0xFFFF }
  , { off := 0x23C, slot := 0x1FFFFF, rst := 0x100005 }
  , { off := 0x280, count := 32, stride := 4, bolt := 0xFFFFFFFF, slot := 0xFFFFFFFF } ]

/-- Access rows of CH. -/
def rowsCH : List RegRow := rowsCHA ++ rowsCHB

/-- Access rows of an engine register page. -/
def rowsENG : List RegRow :=
  [ { off := 0x0, rw := 0x3FF, go := 0x30000 }
  , { off := 0x4, rst := 0x1 }
  , { off := 0x8 }
  , { off := 0xC }
  , { off := 0x10, cn := 0xFFFFFFFF }
  , { off := 0x14, cn := 0xFFFFFFFF }
  , { off := 0x18, cn := 0xFFFFFFFF }
  , { off := 0x20 }
  , { off := 0x30 } ]

/-! ## Bases of the blocks (R411, R412) -/

def GLB : Nat := 0x0
def PROT : Nat := 0x1000
def HIF : Nat := 0x2000
def KWY : Nat := 0x3000
def HK : Nat := 0x4000
def REC : Nat := 0x5000
def CAL : Nat := 0x6000
def MSC : Nat := 0x7000
def SYS : Nat := 0x8000
def EVT : Nat := 0x9000
def FLT : Nat := 0xA000
def GS (g : Nat) : Nat := 0x10000 + g * 0x1000
def OUT (g : Nat) : Nat := 0x20000 + g * 0x1000
def RT (g : Nat) : Nat := 0x30000 + g * 0x1000
/-- CH*c* for c below 512, SP*g* at c = 512 + g. -/
def CH (c : Nat) : Nat := 0x100000 + c * 0x1000
/-- ENG*e* for e below 512, ES*s* at e = 512 + s. -/
def ENG (e : Nat) : Nat := 0x400000 + e * 0x4000
/-- The page of leaf n = 2g + leaf of group g, or of SYS leaf A (32) and B (33). -/
def LP (n : Nat) : Nat := if n < 32 then GS (n / 2) + 0x100 * (1 + n % 2) else SYS + 0x100 * (1 + (n - 32))
/-- The registers of output o of group g. -/
def OP (g o : Nat) : Nat := OUT g + 0x10 * o
/-- The timing-set registers of set n of channel c. -/
def TSB (c n : Nat) : Nat := CH c + 0x10 * n
/-- The ring-state registers of ring r. -/
def RB (r : Nat) : Nat := HIF + 0x10 * r

/-- A block of BAR0 (R411). -/
inductive Blk where
  | glb | prot | hif | kwy | hk | recd | cal | msc | sys | evt | flt
  | gs (g : Nat) | out (g : Nat) | rt (g : Nat) | ch (c : Nat) | eng (e : Nat)
  deriving DecidableEq, Repr

/-- The base address of a block. -/
def Blk.base : Blk → Nat
  | .glb => GLB | .prot => PROT | .hif => HIF | .kwy => KWY | .hk => HK | .recd => REC | .cal => CAL | .msc => MSC
  | .sys => SYS | .evt => EVT | .flt => FLT | .gs g => GS g | .out g => OUT g | .rt g => RT g | .ch c => CH c | .eng e => ENG e

/-- The span of a block in bytes. -/
def Blk.span : Blk → Nat
  | .eng _ => 0x4000
  | _ => 0x1000

/-- The window of a block in bytes; the rest of the span aliases onto it (R291, R411). -/
def Blk.window : Blk → Nat
  | .glb => 0x40 | .prot => 0x80 | .hif => 0x1000 | .kwy => 0x40 | .hk => 0x200 | .recd => 0x200 | .cal => 0x800
  | .msc => 0x100 | .sys => 0x400 | .evt => 0x200 | .flt => 0x200 | .gs _ => 0x400 | .out _ => 0x800 | .rt _ => 0x40
  | .ch _ => 0x400 | .eng _ => 0x40

/-- The eleven module blocks in address order. -/
def moduleBlks : List Blk := [.glb, .prot, .hif, .kwy, .hk, .recd, .cal, .msc, .sys, .evt, .flt]

/-- The block that a BAR0 address falls in; none in unused space (R411). -/
def blkAt (a : Nat) : Option Blk :=
  if a < 0xB000 then moduleBlks[a / 0x1000]?
  else if a < 0x10000 then none
  else if a < 0x20000 then some (.gs ((a - 0x10000) / 0x1000))
  else if a < 0x30000 then some (.out ((a - 0x20000) / 0x1000))
  else if a < 0x40000 then some (.rt ((a - 0x30000) / 0x1000))
  else if a < 0x100000 then none
  else if a < 0x310000 then some (.ch ((a - 0x100000) / 0x1000))
  else if a < 0x400000 then none
  else if a < 0xC40000 then some (.eng ((a - 0x400000) / 0x4000))
  else none

/-- The offset in its block that an address reaches after aliasing (R291). An engine block decodes its register page, its
program window and its data window separately (R412). -/
def reduceOff (b : Blk) (a : Nat) : Nat :=
  let o := a - b.base
  match b with
  | .eng _ => if o < 0x1000 then o % 0x40 else o
  | _ => o % b.window

/-- The access row of the register at offset `o` among `rows`, and nothing where no register lies (R413). -/
def findRow (rows : List RegRow) (o : Nat) : Option RegRow :=
  rows.find? fun r => decide (r.off ≤ o) && decide ((o - r.off) % r.stride = 0) && decide ((o - r.off) / r.stride < r.count)

/-- In SYS the leaf pages hold derived settings that software cannot write (R60). -/
def sysLeafRows : List RegRow :=
  rowsLP.map fun r => if r.off < 0x10 then { r with rw := 0 } else r

/-- The access row of the register at reduced offset `o` of block `b`. -/
def rowAt (b : Blk) (o : Nat) : Option RegRow :=
  match b with
  | .glb => findRow rowsGLB o
  | .prot => findRow rowsPROT o
  | .hif => findRow rowsHIF o
  | .kwy => findRow rowsKWY o
  | .hk => findRow rowsHK o
  | .recd => findRow rowsREC o
  | .cal => findRow rowsCAL o
  | .msc => findRow rowsMSC o
  | .sys => if 0x100 ≤ o ∧ o < 0x300 then findRow sysLeafRows (o % 0x100) else findRow rowsSYS o
  | .evt => findRow rowsEVT o
  | .flt => findRow rowsFLT o
  | .gs _ => if 0x100 ≤ o ∧ o < 0x300 then findRow rowsLP (o % 0x100) else findRow rowsGS o
  | .out _ => if o < 0x240 then findRow rowsOP (o % 0x10) else findRow rowsOUT o
  | .rt _ => findRow rowsRT o
  | .ch c => if c < 512 ∧ 0x280 ≤ o ∧ o < 0x300 then none else findRow rowsCH o
  | .eng e => if e < 512 ∧ o = 0x30 then none else if o < 0x40 then findRow rowsENG o else none

/-- The access row of the register that BAR0 address `a` reaches. -/
def rowOf (a : Nat) : Option RegRow :=
  match blkAt a with
  | none => none
  | some b => rowAt b (reduceOff b a)

/-- Where a register's word is kept: its block's base plus its reduced offset (R291). -/
def canonAddr (a : Nat) : Nat :=
  match blkAt a with
  | none => a
  | some b => b.base + reduceOff b a

/-- What the word at address `a` holds when nothing has changed it: its Reset column, with the built-in default for Image
(R32, R442) and the nominal code for Slot (R316); GLB.CAPS is fixed by the variant (R3). -/
def resetWord (v : Variant) (a : Nat) : Word :=
  if a = GLB + 4 then BitVec.ofNat 32 v.caps
  else
    match rowOf a with
    | none => 0
    | some r =>
      match blkAt a, v with
      | some (.ch _), .vl512d => BitVec.ofNat 32 (if r.off = 0 then r.rst + 0x100 else r.rst)
      | _, _ => BitVec.ofNat 32 r.rst

end Sys2Proof.Machine
end

