-- ==== Sys2Proof/Machine/Tab.lean ====
section
/-! DEFINITION. Machine/Tab.lean: the sparse table that holds every array of the module (the register space, the route,
pattern and engine memories, and the arrays of units). A table lists (key, value) pairs in one canonical form: keys strictly
rising, and no entry equal to what an unlisted key reads as. The default of a key is given by the caller, so that one
definition says what unlisted keys read. -/

namespace Sys2Proof.Machine

/-- A sparse table from natural keys to values. -/
abbrev Tab (α : Type) := List (Nat × α)

/-- The value at key `k`; `d` is what an unlisted key reads as. -/
def Tab.get {α : Type} (d : α) : Tab α → Nat → α
  | [], _ => d
  | (k', v) :: t, k => if k = k' then v else Tab.get d t k

/-- The table without key `k`. -/
def Tab.drop {α : Type} (t : Tab α) (k : Nat) : Tab α := t.filter fun e => e.1 != k

/-- The table with an entry for `k` before the first larger key. -/
def Tab.insert {α : Type} (k : Nat) (v : α) : Tab α → Tab α
  | [] => [(k, v)]
  | (k', v') :: t => if k < k' then (k, v) :: (k', v') :: t else (k', v') :: Tab.insert k v t

/-- Writes `v` at key `k`, dropping the entry when `v` is the default `d`. -/
def Tab.set {α : Type} [DecidableEq α] (d : α) (t : Tab α) (k : Nat) (v : α) : Tab α :=
  if v = d then t.drop k else Tab.insert k v (t.drop k)

/-- Drops every entry whose key lies in `[lo, lo + n)`: those keys read their default again. -/
def Tab.clearRange {α : Type} (t : Tab α) (lo n : Nat) : Tab α :=
  t.filter fun e => ! (decide (lo ≤ e.1) && decide (e.1 < lo + n))

/-- The keys rise strictly and all exceed `lo` (when given). -/
def Tab.risingFrom {α : Type} : Option Nat → Tab α → Bool
  | _, [] => true
  | none, (k, _) :: t => Tab.risingFrom (some k) t
  | some lo, (k, _) :: t => decide (lo < k) && Tab.risingFrom (some k) t

/-- The canonical form: keys strictly rising, no entry equal to its default. -/
def Tab.wf {α : Type} [DecidableEq α] (d : Nat → α) (t : Tab α) : Bool :=
  Tab.risingFrom none t && t.all fun e => decide (e.2 ≠ d e.1)

end Sys2Proof.Machine
end

