-- ==== Sys2Proof/Machine/State.lean ====
section
/-! DEFINITION. Machine/State.lean: the state of the module as plain data, the reasons a command can stop, and the state
right after power has been applied to nothing (VIN absent, mode OFF). Every field that software can see as a register word
has its one home in `regs`; the structures below hold what the spec gives a unit beside its registers. -/

namespace Sys2Proof.Machine

/-- Why the module stops with a fault. No command of the spec stops the machine (INVENTORY, Faults): the type has one
constructor, which nothing raises. Safe. -/
inductive Fault where
  | none
  deriving DecidableEq, Repr

/-- Why a command has no meaning. -/
inductive Refusal where
  /-- Raised by `exec` for a row that has no meaning yet; no row of this model. Safe. -/
  | notModelled (mnemonic : String)
  deriving DecidableEq, Repr

/-! ### Leaves (chapters 03 to 05) -/

/-- A ratio N + F in one of the formats of R54: `fmt` 0 INT, 1 BIN, 2 RAT; F = num / den (0 / 1 in INT, FRAC / 2^40 in
BIN, FNUM / FDEN in RAT). -/
structure Ratio where
  fmt : Nat := 0
  n : Nat := 0
  num : Nat := 0
  den : Nat := 1
  deriving DecidableEq, Repr

/-- Why a leaf is closing its loop (R97, R98): a lock from OFF, a hop (or a pre-lock, or a join), or a relock. -/
inductive LockKind where
  | none | fromOff | hop | relock
  deriving DecidableEq, Repr

/-- What a leaf holds beside its registers (R43 to R65, R91 to R111). Voltages are in units of 25 µV / 256. -/
structure Leaf where
  on : Bool := false
  ratio : Ratio := {}
  staged : Option Ratio := none
  refdiv : Nat := 0
  dbl : Bool := false
  dither : Bool := false
  cplin : Bool := false
  flb : Bool := false
  icp : Nat := 0
  icpAuto : Bool := false
  lbw : Nat := 0
  len : Nat := 0
  wpSet : Bool := false
  ldcfg : Nat := 0
  hcfg : Nat := 0
  target : Option Ratio := none
  stepBase : Ratio := {}
  slewFrom : Nat × Nat := (0, 1)
  slewCyc : Nat := 0
  slewTag : Nat := 0
  slewCode : Nat := 0
  widened : Bool := false
  boostSteps : Nat := 0
  acc1 : Nat := 0
  acc2 : Nat := 0
  acc3 : Nat := 0
  car2 : Nat := 0
  car3 : Nat := 0
  car3p : Nat := 0
  lfsr : Nat := 0
  ymod : Int := 0
  pfdPhase : Nat := 0
  kind : LockKind := .none
  window : Nat := 0
  kept : Bool := false
  bestBand : Nat := 0
  f90 : Nat := 0
  f60 : Nat := 0
  searched : Bool := false
  missed : Bool := false
  distrust : Bool := false
  predV : Nat := 0
  oldBand : Nat := 0
  heldV : Nat := 0
  holdTicks : Nat := 0
  jump : Int := 0
  retOfs : Int := 0
  slewing : Bool := false
  waypoint : Option Nat := none
  tagT : Int := 0
  joined : Bool := false
  joining : Bool := false
  cause : Nat := 0
  deriving DecidableEq, Repr

/-! ### Groups (chapters 04 to 09) -/

/-- A route in force or accepted (R79 to R82, R88). `holder` is the handle of the command that started it; a
register-started route has `byReg`. -/
structure Route where
  byReg : Bool := false
  holder : Nat := 0
  joined : List Nat := []
  start : Nat := 0
  atMilestone : Bool := false
  begun : Bool := false
  hops : Nat := 0
  hoplim : Nat := 0
  dwellDone : Bool := false
  trigHeld : Bool := false
  due : Bool := false
  dueEpoch : Nat := 0
  hopEpoch : Nat := 0
  deriving DecidableEq, Repr

/-- An entry of the group's route queue (R89): a route start or a single hop of a command. -/
structure QEntry where
  handle : Nat := 0
  isRoute : Bool := false
  start : Nat := 0
  staged : Bool := false
  atMilestone : Bool := false
  hoplim : Nat := 0
  deriving DecidableEq, Repr

/-- Who asked for a single hop. -/
inductive HopBy where
  | route | reg | cmd (handle : Nat)
  deriving DecidableEq, Repr

/-- A hop accepted but not begun (`begun = false`), held, or in progress from P0 to completion (R83, R85); `alone`: the active
leaf makes it without its twin (R147). -/
structure Hop where
  src : HopBy := .route
  index : Nat := 0
  staged : Bool := false
  begun : Bool := false
  dueEpoch : Nat := 0
  p0 : Nat := 0
  fallback : Bool := false
  alone : Bool := false
  deriving DecidableEq, Repr

/-- A swing in progress from S to C (R140, R141). -/
inductive SwingKind where
  | route | fault | forced
  deriving DecidableEq, Repr

/-- The settings of one output in force (R122, R126). -/
structure OutSet where
  odiv : Nat := 0
  ps : Nat := 0
  frac : Nat := 0
  coarse : Nat := 0
  fine : Nat := 0
  live : Bool := false
  on : Bool := false
  deriving DecidableEq, Repr

/-- A fail capture in a group's compare-result FIFO (R194, R236): site of the group, capture index, vector count and column
fail mask. -/
structure CmpResult where
  site : Nat := 0
  index : Nat := 0
  vector : Nat := 0
  fails : Nat := 0
  deriving DecidableEq, Repr

/-- A test step of a command on a group, waiting, executing or to be replayed (R191 to R193, R341). Site sets are four bits;
`affVec` is the vector count of the first affected vector, `bufMark` the result-buffer position at the start. -/
structure TStep where
  handle : Nat := 0
  sites : Nat := 0
  line0 : Nat := 0
  failed : Nat := 0
  unmatched : Nat := 0
  caps : List Nat := [0, 0, 0, 0]
  suspect : Bool := false
  coast : Bool := false
  affected : Bool := false
  affVec : Nat := 0
  replays : Nat := 0
  bufMark : Nat := 0
  abort : Bool := false
  deriving DecidableEq, Repr

/-- The vector stream of a group's sequencer (R187 to R191): the steps that share it, the line to be issued, the issues left
of a REPEAT or MATCH line, the two loop counters, the vectors issued, the sites matched, the first NORPL vector, and whether a
hop or swing of the route has fallen in it. -/
structure Stream where
  steps : List TStep := []
  line : Nat := 0
  rep : Option Nat := none
  loop0 : Nat := 0
  loop1 : Nat := 0
  vcnt : Nat := 0
  matched : Nat := 0
  norpl : Option Nat := none
  hopped : Bool := false
  deriving DecidableEq, Repr

/-- The grid of the sample clock and of the source output after a CONTINUOUS swing (R145, R205): the swing's instant, the delays
of their next edges from it in units of T_VCO / 2^32, and the number of that O33 edge. -/
structure Cont where
  epoch : Nat := 0
  half : Bool := false
  da : Nat := 0
  ds : Nat := 0
  n0 : Nat := 0
  deriving DecidableEq, Repr

/-- What a group holds beside its registers. `moved`: a small step was accepted since its grid was last fixed; `gapSusp`: a
recovery has not yet settled (R150); `pfw`: the point frequency word last delivered (R206); `rstWord`: the next phase word carries
RST (R207). -/
structure Grp where
  on : Bool := false
  route : Option Route := none
  queue : List QEntry := []
  hop : Option Hop := none
  rt : Tab Word := []
  cb : Tab Word := []
  rat : Tab Word := []
  prelock : Option Nat := none
  preEpoch : Nat := 0
  settling : Bool := false
  swing : Option SwingKind := none
  gapFailed : Option Nat := none
  outs : Tab OutSet := []
  anchored : Bool := false
  anchor : Nat := 0
  anchorHalf : Bool := false
  epofs : Int := 0
  clrSlew : Bool := false
  applyDue : Nat := 0
  deferRet : Bool := false
  pat : Tab Word := []
  steps : List TStep := []
  cur : Option Stream := none
  replay : List TStep := []
  cmp : List CmpResult := []
  siteMap : List Nat := [0, 0, 0, 0]
  siteCfg : List Nat := [0, 0, 0, 0]
  pwSrc : Nat := 0
  pwEn : Bool := false
  pwOfs : Nat := 0
  rstGen : Nat := 0
  cont : Option Cont := none
  moved : Bool := false
  gapSusp : Bool := false
  pfw : Nat := 0
  rstWord : Bool := false
  deriving DecidableEq, Repr

/-! ### Host interface (chapter 11) -/

/-- A submission and completion queue pair, or the event ring (R245 to R249): the stored configuration and the indexes.
`safeLeft`: the descriptors at the SQ head that were submitted or waited while the module was in SAFE (R29, R258). -/
structure Ring where
  stored : Bool := false
  d : List Word := [0, 0, 0, 0, 0, 0, 0]
  cqHead : Nat := 0
  phase : Bool := true
  unsig : Nat := 0
  safeLeft : Nat := 0
  waiting : List Nat := []
  deriving DecidableEq, Repr

/-- A fetched command from its fetch to its completion (R249 to R260). -/
inductive CmdPhase where
  | waiting | queued | running | done
  deriving DecidableEq, Repr

/-- A live command (R250). `args` are bytes 28 to 63 as nine words. -/
structure Cmd where
  ring : Nat := 0
  slot : Nat := 0
  issue : Nat := 0
  op : Nat := 0
  flags : Nat := 0
  deadline : Nat := 0
  sites : Nat := 0
  rbuf : Nat := 0
  rlen : Nat := 0
  args : List Word := []
  phase : CmdPhase := .waiting
  status : Nat := 0
  detail : Nat := 0
  cflags : Nat := 0
  aux : Nat := 0
  rbytes : Nat := 0
  replays : Nat := 0
  fallbacks : Nat := 0
  energyNj : Nat := 0
  steps : Nat := 0
  groupsLeft : Nat := 0
  late : Bool := false
  expired : Bool := false
  excEng : Nat := 1024
  excCode : Nat := 0
  deriving DecidableEq, Repr

/-- What a vector does at a pin (R184): the driver switches on or off, changes its level, or the comparator is strobed. -/
inductive DriveEv where
  | on | off | level (hi : Bool) | strobe
  deriving DecidableEq, Repr

/-- Something the module drives to the outside in one command: a memory write (`ro`: with Relaxed Ordering, R242), an interrupt
message, a Keyway answer, a chain frame (its 127 characters after the comma, the position an enumeration offers in full, the latency
that R164 passes on), the edges of a vector at a channel's pin in fine steps from its start (R183), a PCI Express answer, a
value shifted out of the test access port. -/
inductive Out where
  | mem (ro : Bool) (addr : Nat) (words : List Word)
  | msix (vec : Nat)
  | keyway (words : List Word)
  | retry
  | chain (up : Bool) (offer lat : Nat) (chars : List (BitVec 8))
  | tdo (value : Nat)
  | drive (ch : Nat) (evs : List (Nat × DriveEv))
  | pins (value : Nat)
  deriving DecidableEq, Repr

/-- An occurrence of an event raised in the present cycle: number, SET bit, DATA word (R401, R405). -/
structure Occ where
  ev : Nat
  set : Bool
  data : Nat
  deriving DecidableEq, Repr

/-! ### Supply, boot and mode requests (chapter 02) -/

/-- The supply, the phase of BOOT, the hold-up sequence and the pending mode request (R24 to R42). -/
structure Power where
  vinLost : Bool := false
  holdStep : Nat := 0
  tripNotice : Bool := false
  latched : Bool := false
  lowSinceTrip : Bool := false
  bootPhase : Nat := 0
  bootStopped : Bool := false
  aon : Bool := false
  host : Bool := false
  clk : Bool := false
  perst : Bool := true
  cfgWritten : Bool := false
  reqPending : Bool := false
  reqTarget : Nat := 0
  reqKeyway : Bool := false
  armWait : Bool := false
  downStep : Nat := 0
  pendCause : Nat := 0
  sysExit : Bool := false
  exitWait : Bool := false
  clkRoot : Nat := 2
  sysLocked : Bool := false
  safeRecPending : Bool := false
  tmOver : Nat := 0
  deriving DecidableEq, Repr

/-! ### Reference monitor (chapter 05) -/

/-- The module's view of the selected reference (R93 to R96, R114 to R116). -/
structure RefMon where
  edges : Bool := false
  lost : Bool := false
  qualified : Bool := false
  firstCause : Nat := 0
  good : Nat := 0
  missed : Bool := false
  retStep : Nat := 0
  newHz : Bool := false
  inForce : Nat := 0
  deriving DecidableEq, Repr

/-! ### The PCI Express function (R242, R243) -/

/-- Configuration space of the one function, as far as the spec gives it: the Subsystem IDs of the configuration image, the
address bits of BAR0 to BAR3, and the power state D3hot. No row writes configuration space (assumption 93). -/
structure Pci where
  subsys : Word := 0
  bar0 : Word := 0
  bar1 : Word := 0
  bar2 : Word := 0
  bar3 : Word := 0
  d3hot : Bool := false
  deriving DecidableEq, Repr

/-- The key of the Subsystem IDs in the configuration image, whose other entries are keyed by BAR0 address. -/
def SUBSYS_KEY : Nat := 0x1000000

/-! ### Recorder and record die (chapter 17) -/

/-- A header entry of the record die (R367). -/
structure Header where
  count : Nat
  opsec : Nat
  newest : Nat
  deriving DecidableEq, Repr

/-- The data of a record, taken at its trigger (R368): every field but the CRC and the mark. -/
structure RecData where
  seq : Nat := 0
  count : Nat := 0
  opsec : Nat := 0
  hepoch : Nat := 0
  typ : Nat := 0
  rflags : Nat := 0
  mode : Nat := 0
  scause : Nat := 0
  period : Nat := 0
  fails : Nat := 0
  lost : Nat := 0
  thist : Tab Nat := []
  vhist : Tab Nat := []
  rhist : Tab Nat := []
  counts : Tab Nat := []
  cfgw : Tab Nat := []
  refw : Tab Nat := []
  tmax : Int := 0
  tmin : Int := 0
  vmax : Nat := 0
  vmin : Nat := 0
  tmaxs : Nat := 0
  tmins : Nat := 0
  pres : Nat := 0
  holdmax : Nat := 0
  xgrp : Nat := 0
  seen : Bool := false
  vseen : Bool := false
  deriving DecidableEq, Repr

/-- A record stored with its valid mark, and the position (R371) of its page. -/
structure Stored where
  pos : Nat
  data : RecData
  deriving DecidableEq, Repr

/-- What an erase is of (R373). -/
inductive EraseOf where
  | sector (n : Nat) | header (b : Bool) | calSlot (b : Bool) | cfgSlot (b : Bool)
  deriving DecidableEq, Repr

/-- Calibration results of a set, leaf or the outputs of a group (R312, R329): STATUS, cause, items rejected, CQ of each item,
temperature in °C, and whether it has held accepted values. -/
structure CalUnit where
  status : Nat := 5
  cause : Nat := 0
  rej : Nat := 0
  cq : List Nat := []
  temp : Nat := 0
  accepted : Bool := false
  deriving DecidableEq, Repr

/-- A valid calibration slot (R328, R332): its record words, the trims by register address, the results, the factory area. -/
structure CalSlot where
  words : List Word := []
  trims : Tab Word := []
  units : Tab CalUnit := []
  factory : List Word := []
  deriving DecidableEq, Repr

/-- The record die's contents (R365 to R373): header copies, records, the pages started, the open journal entry, the
sector map, the configuration slots. It keeps them through OFF. -/
structure Die where
  answers : Bool := true
  headA : List Header := []
  headB : List Header := []
  recs : List Stored := []
  used : Nat := 0
  badPages : Nat := 0
  journal : Option EraseOf := none
  maps : List (Nat × Nat) := []
  slotA : Option (Nat × Tab Word) := none
  slotB : Option (Nat × Tab Word) := none
  calA : Option CalSlot := none
  calB : Option CalSlot := none
  calLostA : Bool := false
  calLostB : Bool := false
  deriving DecidableEq, Repr

/-- The recorder controller: device time, the present period, the records waiting and the write or erase in progress. -/
structure Recorder where
  count : Nat := 0
  opsec : Nat := 0
  hostEpoch : Nat := 0
  hostEpochNext : Option Nat := none
  nextSeq : Nat := 0
  period : RecData := {}
  lastStoredSec : Nat := 0
  lastTrigSec : Nat := 0
  trigSeen : Bool := false
  waiting : List RecData := []
  page : Bool := false
  pageDone : Bool := false
  attempts : Nat := 0
  erase : Option EraseOf := none
  gapOf : Option RecData := none
  recovering : Bool := false
  unrecorded : Bool := false
  timeUnk : Bool := false
  lastLabel : Nat := 0
  eraseQ : List EraseOf := []
  die : Die := {}
  deriving DecidableEq, Repr

/-! ### Other units -/

/-- A guarantee: granted, or asked for by a waiting HOLD (R264). `ahead`: the commands that waited in the groups' route queues
when it was asked for. -/
structure Hold where
  handle : Nat := 0
  ring : Nat := 0
  groups : Nat := 0
  guarded : Bool := false
  granted : Bool := false
  length : Nat := 0
  ahead : List Nat := []
  deriving DecidableEq, Repr

/-- A mailbox operation in progress (R285), keyed by the address of the mailbox's control register: the result to post and
the words its Q registers take. -/
structure Box where
  busy : Bool := false
  result : Nat := 0
  q : List Word := []
  op : Nat := 0
  aux : Nat := 0
  deriving DecidableEq, Repr

/-- A pin-electronics set beside its registers (R173 to R180, R335): the settings in force keyed by page offset, whether it is
on the calibration bus or isolated by a fault, a pin swing waiting for its quiet point (true: to the spare), the position a
spare set shadows or serves, the failing check being retried and its tries, a self-test under way, the restart generation
of the last sample word, an overflow event already raised in this step, the driver within a step (R184): on, its level, the last
data bit, and the part of an O*kk* period since a CLK channel's last clip was counted, in units of T_VCO / 2^32 (R185). -/
structure Chan where
  inf : Tab Word := []
  cal : Bool := false
  iso : Bool := false
  swing : Option Bool := none
  serves : Option Nat := none
  cause : Nat := 0
  tries : Nat := 0
  testing : Bool := false
  rstSeen : Nat := 0
  ovfSeen : Bool := false
  drvOn : Bool := false
  drvLvl : Bool := false
  drvData : Bool := false
  clkAcc : Nat := 0
  deriving DecidableEq, Repr
/-- An entry of a sample FIFO (R19, R204, R207, R218): a sample with its phase word and flags, or a mark with its mark
word. `lost`: a sample was dropped just before it. `freq` is the point frequency word of a point-start mark, `vcnt` the vector count of a pattern mark. -/
structure Entry where
  mark : Bool := false
  code : Nat := 0
  s : Int := 0
  phase : Nat := 0
  rst : Bool := false
  unset : Bool := false
  coast : Bool := false
  cont : Bool := false
  sat : Bool := false
  susp : Bool := false
  lost : Bool := false
  freq : Nat := 0
  vcnt : Nat := 0
  deriving DecidableEq, Repr

/-- A record held by an emitter (R224): its destination, words, command, and byte offset in the result buffer. -/
structure Emit where
  host : Bool := false
  words : List Word := []
  handle : Nat := 0
  off : Nat := 0
  deriving DecidableEq, Repr

/-- An engine start requested and not yet accepted (R239): entry address, argument words, and the command (none on the
register path). -/
structure StartReq where
  entry : Nat := 0
  args : List Word := []
  handle : Option Nat := none
  deriving DecidableEq, Repr

/-- An engine (R214 to R240). `st` is ESTAT.STATE; `gated` is the debug gate and `brk` the breakpoint of R398;
`copyFrom` the engine whose memories a spare is receiving, `badCopy` a data word copied with a parity error. `lostNext`: a sample
was dropped since the last entry; `lostSeen`: one was lost among entries since discarded (R19). -/
structure Engine where
  on : Bool := false
  st : Nat := 0
  pc : Nat := 0
  waitOn : Nat := 0
  crcBusy : Bool := false
  imgcrc : Nat := 0
  prog : Tab Word := []
  data : Tab Word := []
  g : Tab Word := []
  acc : Tab Int := []
  p0 : Bool := false
  p1 : Bool := false
  p2 : Bool := false
  loop0 : Option (Nat × Nat × Nat) := none
  loop1 : Option (Nat × Nat × Nat) := none
  ret : List Nat := []
  pw : Nat := 0
  freq : Nat := 0
  mark : Nat := 0
  rflg : Nat := 0
  nsmp : Nat := 0
  harm : Nat := 0
  minV : Int := 0
  maxV : Int := 0
  armed : Bool := true
  limLo : Nat := 0
  limHi : Nat := 0
  limCnt : Nat := 0
  hbase : Nat := 0
  hshift : Nat := 0
  vcnt : Nat := 0
  hist : Tab Nat := []
  fifo : List Entry := []
  rstNext : Bool := false
  lostNext : Bool := false
  lostSeen : Bool := false
  cfifo : List Word := []
  cwait : List Word := []
  inbox : List (List Word) := []
  emitter : Option Emit := none
  req : Option StartReq := none
  handle : Option Nat := none
  gated : Bool := false
  stepOne : Bool := false
  brk : Option Nat := none
  failing : Bool := false
  tries : Nat := 0
  testing : Bool := false
  copyFrom : Option Nat := none
  returning : Bool := false
  badCopy : Bool := false
  skipLeft : Option Nat := none
  deriving DecidableEq, Repr

/-- The Milestone chain (R152 to R171) beside its registers: the head came by timeout, the upstream receiver has been up since
the CLK domain came on, REFSRC and HEAD in force, the link reference selected, the schedule (base B, interval I, the count m
of the next milestone), a new schedule waiting (first epoch, interval, first number), NEWBASE, the measured quantities in fs,
the last announcement, the receive queue, enumeration and measurement running, measured since the link came back, the rejoin
(0 none, 1 waiting, 2 slewing, 3 waiting for the milestone) with its Δ, the interval rule broken (R164), the latency accumulated
by the upstream neighbour, each port's next SEQ, the SEQ and the receive time (count and fraction) of the last frame of each
port, the sending times of the last upstream frames, the sums of the exchanges of R160 (their number, 2·θ̂ and R_t in units of
T_REF / 2^32), and the characters sent since the last frame boundary. -/
structure Chain where
  accLat : Nat := 0
  txUp : Nat := 0
  txDn : Nat := 0
  rxUp : Nat × Nat × Nat := (0, 0, 0)
  rxDn : Nat × Nat × Nat := (0, 0, 0)
  sentUp : List (Nat × Nat × Nat) := []
  exN : Nat := 0
  exTh : Int := 0
  exRt : Int := 0
  chars : Nat := 0
  byTimeout : Bool := false
  upSeen : Bool := false
  refsrc : Nat := 0
  cfgHead : Bool := false
  linkRef : Bool := false
  sched : Bool := false
  base : Nat := 0
  interval : Nat := 0
  next : Nat := 0
  newSched : Option (Nat × Nat × Nat) := none
  newBase : Nat := 0
  hopDly : Int := 0
  hopOfs : Int := 0
  chainLat : Nat := 0
  skew : Int := 0
  ann : Option (Nat × Nat × Nat) := none
  rx : List (Nat × List Word) := []
  enumBusy : Bool := false
  measuring : Bool := false
  measured : Bool := false
  rejoin : Nat := 0
  delta : Int := 0
  shortNow : Bool := false
  deriving DecidableEq, Repr
/-- Rolling calibration of a group (R326): 0 idle, 1 shadowing and waiting for the first quiet point, 2 measuring, 3 waiting
for the swing back; the channel position; abandoned. -/
structure Roll where
  step : Nat := 0
  ch : Nat := 0
  last : Nat := 32
  abandoned : Bool := false
  deriving DecidableEq, Repr

/-- Calibration (R311 to R332): results by unit number; the run in progress with its ITEMS and GROUPS, the units still to
finish, the item reached and the results of each unit in work and its new trims, not yet taken; rolling calibration and the
unit last calibrated by group; the store being written (slot B when true) with its copy; the run fields of the record; and
the lost stores found at BOOT that EV217 has still to report (bit 0 slot A). -/
structure CalSt where
  units : Tab CalUnit := []
  run : Bool := false
  items : Nat := 0
  groups : Nat := 0
  todo : List Nat := []
  reached : Tab Nat := []
  work : Tab CalUnit := []
  fresh : Tab Word := []
  changed : Bool := false
  changedG : Nat := 0
  rolls : Tab Roll := []
  gcal : Tab Nat := []
  storing : Option Bool := none
  copy : CalSlot := {}
  runWords : List Word := []
  runSec : Nat := 0
  ranBoot : Bool := false
  hostEdit : Bool := false
  lost : Nat := 0
  deriving DecidableEq, Repr
/-- Fault handling (R335, R340, R346): the last occurrence times of each unit in operating milliseconds, the un-retiring that
waits for its unit to be free or runs its self-test, the groups whose spare an un-retiring is to free, and the retirement
store in progress (slot B when true), with another to follow. -/
structure FltSt where
  hist : Tab (List Nat) := []
  unret : Option Nat := none
  unretTest : Bool := false
  freed : List Nat := []
  store : Option Bool := none
  storeAgain : Bool := false
  deriving DecidableEq, Repr
/-- A temperature sensor's own history (R349 to R356): its reading of the previous round, good evaluations in a row since it
failed, the times it has failed since BOOT, its substitute in units of 0.125 °C, and for the release points of T1, T2, T3, WARN
and SHUTDOWN the consecutive evaluations in which that substitute stayed below them. -/
structure Sensor where
  prev : Option Int := none
  good : Nat := 0
  fails : Nat := 0
  subst : Int := 0
  below : List Nat := [0, 0, 0, 0, 0]
  deriving DecidableEq, Repr

/-- Thermal control (R354 to R358): the thresholds in force, the sensors, SHUTDOWN still holding as a cause of SAFE, and SAFE
entered in the present housekeeping round (R26). -/
structure Therm where
  inf : Word := 0x067D7369
  sens : Tab Sensor := []
  shutHolds : Bool := false
  safeRound : Bool := false
  deriving DecidableEq, Repr
/-- Two-key commit and lease (R386 to R389): the copied change, the previous challenge, the run of failures, the operating
millisecond at which a lockout ends, the commit store in progress (slot B when true) or to follow the store that runs, and
operating seconds of the present minute. -/
structure ProtSt where
  kind : Nat := 0
  arg : Nat := 0
  dval : Word := 0
  unit : Nat := 0
  prevChal : Nat := 0
  failRun : Nat := 0
  lockUntil : Nat := 0
  store : Option Bool := none
  storeNext : Bool := false
  leaseSec : Nat := 0
  deriving DecidableEq, Repr

/-- The test access port (R392 to R398): the instruction in force, whether the last one was not allowed, the boundary
register (bit n is cell n), the result of the last DBG_ACCESS (data, STAT), and the engine status captured by DBG_ENG. -/
structure TapSt where
  ir : Nat := 2
  refused : Bool := false
  boundary : BitVec 1560 := 0
  data : Word := 0
  stat : Nat := 0
  engStat : Nat := 0
  deriving DecidableEq, Repr
/-- A committed Keyway write frame not yet fully applied (R302): block base, next offset, INC, the words left, a narrow last
word. -/
structure KwFrame where
  base : Nat := 0
  off : Nat := 0
  inc : Bool := false
  words : List Word := []
  part : Bool := false
  deriving DecidableEq, Repr

/-- The Keyway's write buffers (R302). -/
structure Kw where
  bufs : List KwFrame := []
  deriving DecidableEq, Repr

/-! ### The module -/

/-- The state of the module. `regs` is the register space, keyed by BAR0 address; a unit table is keyed by the unit's
number: leaves by 2g + leaf (32 and 33 for SYS), channels by c (512 + g for SPg), engines by e (512 + s for ESs). -/
structure State where
  variant : Variant := .vl512f
  regs : Tab Word := []
  image : Tab Word := []
  store : Tab Word := []
  power : Power := {}
  pci : Pci := {}
  ref : RefMon := {}
  epoch : Nat := 0
  running : Bool := false
  leaves : Tab Leaf := []
  groups : Tab Grp := []
  chans : Tab Chan := []
  engines : Tab Engine := []
  rings : Tab Ring := []
  cmds : List Cmd := []
  holds : List Hold := []
  boxes : Tab Box := []
  reco : Recorder := {}
  chain : Chain := {}
  cal : CalSt := {}
  flt : FltSt := {}
  therm : Therm := {}
  prot : ProtSt := {}
  kw : Kw := {}
  tap : TapSt := {}
  trims : Tab Word := []
  modRecs : List (Nat × Nat × List Word) := []
  occ : List Occ := []
  active : List (Nat × Nat) := []
  bootQ : List (Occ × Nat × Nat) := []
  bootDropped : Nat := 0
  bootQOn : Bool := false
  evLost : Bool := false
  linkLost : Bool := false
  fetchNext : Nat := 0
  msixEn : Bool := false
  msixMask : Bool := false
  railOut : Nat := 0
  vinOut : Bool := false
  out : List Out := []
  held : List Out := []
  freeCtr : Nat := 0
  pending : List Instr := []
  deriving DecidableEq, Repr

/-- The module before VIN has ever been applied: mode OFF, every table at its reset contents, nothing queued. Every register
reads its Reset column, its built-in default or its nominal trim (`resetWord`). -/
def State.reset : State := {}

end Sys2Proof.Machine
end

