-- ==== Sys2Proof/Machine/Ops.lean ====
section
/-! DEFINITION. Machine/Ops.lean: the named operations on the state that every meaning is built from: register words and
fields, counters, the unit tables, raising an event, and sending to the host. -/

namespace Sys2Proof.Machine

/-! ## Registers -/

/-- The register word at address `a`. -/
def State.word (s : State) (a : Nat) : Word := Tab.get (resetWord s.variant a) s.regs a

/-- The state with the register word at `a` holding `w`. -/
def State.setWord (s : State) (a : Nat) (w : Word) : State :=
  { s with regs := Tab.set (resetWord s.variant a) s.regs a w }

/-- Field `f` of the block or page at `b`. -/
def State.rd (s : State) (b : Nat) (f : Fld) : Nat := getBits (s.word (b + f.off)) f.lsb f.width

/-- The state with field `f` of the block or page at `b` holding `v`, modulo the field's width. -/
def State.wr (s : State) (b : Nat) (f : Fld) (v : Nat) : State :=
  s.setWord (b + f.off) (putBits (s.word (b + f.off)) f.lsb f.width v)

/-- Field `f` is not 0. -/
def State.is (s : State) (b : Nat) (f : Fld) : Bool := s.rd b f != 0

/-- Sets or clears the status bit `f`. -/
def State.flag (s : State) (b : Nat) (f : Fld) (v : Bool) : State := s.wr b f (b2n v)

/-- A counter counts `n` more, modulo its width (R274). -/
def State.inc (s : State) (b : Nat) (f : Fld) (n : Nat := 1) : State := s.wr b f (s.rd b f + n)

/-- Puts the registers of `[lo, lo + n)` back to their Reset column (R417, R418). -/
def State.clearRegs (s : State) (lo n : Nat) : State := { s with regs := Tab.clearRange s.regs lo n }

/-! ## Control -/

/-- Applies `f` when `c` holds. -/
def State.gate (s : State) (c : Bool) (f : State → State) : State := if c then f s else s

/-- Applies `f 0`, `f 1`, … `f (n - 1)` in that order. -/
def iter : Nat → (Nat → State → State) → State → State
  | 0, _, s => s
  | n + 1, f, s => f n (iter n f s)

/-- Applies `f` for each element of a list, in order. -/
def forAll {α : Type} (l : List α) (f : α → State → State) (s : State) : State := l.foldl (fun s k => f k s) s

/-! ## Unit tables -/

def State.leaf (s : State) (n : Nat) : Leaf := Tab.get {} s.leaves n
def State.setLeaf (s : State) (n : Nat) (l : Leaf) : State := { s with leaves := Tab.set {} s.leaves n l }
def State.modLeaf (s : State) (n : Nat) (f : Leaf → Leaf) : State := s.setLeaf n (f (s.leaf n))
def State.grp (s : State) (g : Nat) : Grp := Tab.get {} s.groups g
def State.setGrp (s : State) (g : Nat) (x : Grp) : State := { s with groups := Tab.set {} s.groups g x }
def State.modGrp (s : State) (g : Nat) (f : Grp → Grp) : State := s.setGrp g (f (s.grp g))
def State.chan (s : State) (c : Nat) : Chan := Tab.get {} s.chans c
def State.setChan (s : State) (c : Nat) (x : Chan) : State := { s with chans := Tab.set {} s.chans c x }
def State.modChan (s : State) (c : Nat) (f : Chan → Chan) : State := s.setChan c (f (s.chan c))
def State.eng (s : State) (e : Nat) : Engine := Tab.get {} s.engines e
def State.setEng (s : State) (e : Nat) (x : Engine) : State := { s with engines := Tab.set {} s.engines e x }
def State.modEng (s : State) (e : Nat) (f : Engine → Engine) : State := s.setEng e (f (s.eng e))
def State.ring (s : State) (r : Nat) : Ring := Tab.get {} s.rings r
def State.setRing (s : State) (r : Nat) (x : Ring) : State := { s with rings := Tab.set {} s.rings r x }
def State.modRing (s : State) (r : Nat) (f : Ring → Ring) : State := s.setRing r (f (s.ring r))
def State.box (s : State) (a : Nat) : Box := Tab.get {} s.boxes a
def State.setBox (s : State) (a : Nat) (x : Box) : State := { s with boxes := Tab.set {} s.boxes a x }
def State.modPower (s : State) (f : Power → Power) : State := { s with power := f s.power }
def State.modRef (s : State) (f : RefMon → RefMon) : State := { s with ref := f s.ref }
def State.modReco (s : State) (f : Recorder → Recorder) : State := { s with reco := f s.reco }

def State.modCal (s : State) (f : CalSt → CalSt) : State := { s with cal := f s.cal }
def State.modFlt (s : State) (f : FltSt → FltSt) : State := { s with flt := f s.flt }
def State.modProt (s : State) (f : ProtSt → ProtSt) : State := { s with prot := f s.prot }
def State.modTherm (s : State) (f : Therm → Therm) : State := { s with therm := f s.therm }
def State.modChain (s : State) (f : Chain → Chain) : State := { s with chain := f s.chain }

/-- Changes every group, set or engine that the tables list. -/
def State.allGrp (s : State) (f : Grp → Grp) : State := forAll (s.groups.map (·.1)) (fun g s => s.modGrp g f) s

/-- The handle of a command (R250). -/
def Cmd.handle (c : Cmd) : Nat := c.ring * 0x10000000 + c.slot * 0x10000 + c.issue

/-- The ring of a handle (R250). A command that DISABLE has ended keeps its ring under a handle 2^32 higher until its test-step
boundary, for its own handle may be used again (R247). -/
def ringOf (h : Nat) : Nat := h / 2 ^ 28 % 16
def Cmd.lost (c : Cmd) : Bool := decide (65536 ≤ c.issue)

/-- The live command with the given handle. -/
def State.cmd? (s : State) (h : Nat) : Option Cmd := s.cmds.find? fun c => c.handle == h

/-- Changes the live command with the given handle. -/
def State.modCmd (s : State) (h : Nat) (f : Cmd → Cmd) : State :=
  { s with cmds := s.cmds.map fun c => if c.handle == h then f c else c }

/-! ## Frequent readings -/

/-- GLB.MODE.CUR (R22). -/
def State.mode (s : State) : Nat := s.rd GLB R.GLB_MODE_CUR

def MODE_OFF : Nat := 0
def MODE_BOOT : Nat := 1
def MODE_STANDBY : Nat := 2
def MODE_CONFIGURE : Nat := 3
def MODE_ARMED : Nat := 4
def MODE_RUN : Nat := 5
def MODE_CALIBRATE : Nat := 6
def MODE_SAFE : Nat := 7

/-- Group `g` exists in this variant (R13). -/
def State.hasGroup (s : State) (g : Nat) : Bool := decide (g < s.variant.groups)

/-- Channel, or spare set at 512 + g, exists in this variant (R13, R415). -/
def State.hasChan (s : State) (c : Nat) : Bool :=
  if c < 512 then s.hasGroup (c / 32) else s.hasGroup (c - 512)

/-- Engine, or spare engine at 512 + s, exists in this variant. -/
def State.hasEng (s : State) (e : Nat) : Bool :=
  if e < 512 then s.hasGroup (e / 32) else s.hasGroup (e - 512)

/-- SYS.REF_HZ in force. -/
def State.refHz (s : State) : Nat := s.rd SYS R.SYS_REF_HZ

/-- LSTATE.STATE of leaf n (R97). -/
def State.lst (s : State) (n : Nat) : Nat := s.rd (LP n) R.LP_LSTATE_STATE

def L_OFF : Nat := 0
def L_SEARCH : Nat := 1
def L_ACQUIRE : Nat := 2
def L_LOCKED : Nat := 3
def L_HOLDOVER : Nat := 4
def L_RELOCK : Nat := 5
def L_FAULT : Nat := 6

/-- The active leaf of group g (R140): 2g + ACT. -/
def State.actLeaf (s : State) (g : Nat) : Nat := 2 * g + s.rd (GS g) R.GS_SWSTAT_ACT

/-- The other leaf of group g. -/
def State.idleLeaf (s : State) (g : Nat) : Nat := 2 * g + (1 - s.rd (GS g) R.GS_SWSTAT_ACT)

/-- The policy in force on group g is PING-PONG (R146). -/
def State.pingPong (s : State) (g : Nat) : Bool := s.is (GS g) R.GS_SWSTAT_POLIF

/-- The leaf whose page supplies leaf n's written settings: under GUARDED both leaves take the leaf A page (R56, R117), and
both SYS leaves take the SYS leaf A page (R117). -/
def State.pageLeaf (s : State) (n : Nat) : Nat :=
  if 32 ≤ n then 32 else if s.pingPong (n / 2) then n else 2 * (n / 2)

/-- The number of sites a mask names on group g: bits 4g to 4g + 3. -/
def groupSites (mask g : Nat) : Nat := mask / 2 ^ (4 * g) % 16

/-- Takes the next fresh index of the model's free values. -/
def State.tick (s : State) : State := { s with freeCtr := s.freeCtr + 1 }

/-! ## Sending to the host (R244, R269) -/

/-- Memory requests are paused: the link is down, or Bus Master Enable is 0 (R269). -/
def State.paused (s : State) : Bool := !(s.is HIF R.HIF_LINK_UP && s.is HIF R.HIF_LINK_BME)

/-- Sends something outside; memory writes and messages wait in the module while requests are paused (R269). -/
def State.send (s : State) (o : Out) : State :=
  match o with
  | .mem .. | .msix .. => if s.paused then { s with held := s.held ++ [o] } else { s with out := s.out ++ [o] }
  | _ => { s with out := s.out ++ [o] }

/-- The address of the MSI-X table entry of vector v. -/
def MSIXT (v : Nat) : Nat := HIF + 16 * v

/-- The pending bit of vector v. -/
def pbaFld (v : Nat) : Fld := ⟨R.HIF_PBA.off + 4 * (v / 32), v % 32, 1⟩

/-- Fires MSI-X vector v (R244): nothing while MSI-X is disabled, the pending bit while the vector or the function is
masked, otherwise a message. -/
def State.fire (s : State) (v : Nat) : State :=
  if !s.msixEn then s
  else if s.msixMask || s.is (MSIXT v) R.HIF_MSIX_CTRL then s.wr HIF (pbaFld v) 1
  else s.send (.msix v)

/-! ## Events (R401 to R409) -/

/-- Raises an occurrence in this cycle (R405); the events of absent units are never raised (R404). -/
def State.raiseOcc (s : State) (o : Occ) : State :=
  if o.ev < 192 ∧ ¬ s.hasGroup (o.ev / 12) then s
  else if s.variant = .vl512fs ∧ (o.ev ∈ [200, 201, 202, 203, 213]) then s
  else { s with occ := s.occ ++ [o] }

/-- Raises an edge event. -/
def State.raise (s : State) (ev data : Nat) : State := s.raiseOcc ⟨ev, true, data⟩

/-- Raises group event k of group g: EV(12g + k) (R402). -/
def State.graise (s : State) (g k data : Nat) : State := s.raise (12 * g + k) data

/-- Depth of ring r: 2^DEPTH (R245). -/
def Ring.depth (x : Ring) : Nat := 2 ^ getBits (x.d.getD 4 0) 0 4

/-- Vector of a ring. -/
def Ring.vec (x : Ring) : Nat := getBits (x.d.getD 4 0) 4 6

/-- Interrupts of the ring are enabled. -/
def Ring.ien (x : Ring) : Bool := getBits (x.d.getD 4 0) 10 1 == 1

/-- Coalescing count; 0 acts as 1 (R263). -/
def Ring.ccount (x : Ring) : Nat := if getBits (x.d.getD 4 0) 16 8 = 0 then 1 else getBits (x.d.getD 4 0) 16 8

/-- Coalescing time in µs. -/
def Ring.ctime (x : Ring) : Nat := getBits (x.d.getD 4 0) 24 8

/-- Base of the CQ, or of the event ring. -/
def Ring.cqBase (x : Ring) : Nat := (x.d.getD 2 0).toNat + (x.d.getD 3 0).toNat * 2 ^ 32

/-- Sites owned by the ring's configuration. -/
def Ring.sites (x : Ring) : Nat := (x.d.getD 5 0).toNat + (x.d.getD 6 0).toNat * 2 ^ 32

/-- RSTAT.STATE of ring r (R247). -/
def State.rstate (s : State) (r : Nat) : Nat := s.rd (RB r) R.HIF_RSTAT_STATE

def RS_DISABLED : Nat := 0
def RS_ACTIVE : Nat := 1
def RS_STOPPING : Nat := 2
def RS_STOPPED : Nat := 3
def RS_ERROR : Nat := 4

/-- A completion or event record of ring r has been written: the ring's vector fires at `irq` or when CCOUNT are
unsignalled (R263). -/
def State.signal (s : State) (r : Nat) (irq : Bool) : State :=
  let x := s.ring r
  if irq || decide (x.ccount ≤ x.unsig + 1) then
    (s.setRing r { x with unsig := 0 }).gate x.ien (·.fire x.vec)
  else s.setRing r { x with unsig := x.unsig + 1 }

/-- Free entries of the event ring, which holds at most depth − 1 records. -/
def State.evFree (s : State) : Nat :=
  let d := (s.ring 16).depth
  (s.rd HIF R.HIF_EVHEAD + d - 1 + (d - s.rd (RB 16) R.HIF_RSTAT_CQTAIL % d)) % d

/-- EPOCH of an event record: 0 while the counter is stopped (R262). -/
def State.epochStamp (s : State) : Nat := if s.running then s.epoch else 0

/-- The direct vector and the pin count of an occurrence (R407, R408). -/
def State.vectorPin (s : State) (o : Occ) : State :=
  let vm := getBits (s.word (EVT + R.EVT_VMAP.off + 4 * (o.ev / 4))) (8 * (o.ev % 4)) 8
  let s := s.gate (decide (128 ≤ vm)) (·.fire (vm % 64))
  let pm := bitOf (s.word (EVT + R.EVT_PMASK_0.off + 4 * (o.ev / 32))).toNat (o.ev % 32)
  s.gate (pm && o.set) (·.inc EVT R.EVT_PCOUNT)

/-- Writes one record of an occurrence at epoch `ep` and operating second `sec` to the event ring, or drops it when the ring is
full; SEQ advances either way (R262, R405). -/
def State.evRecordAt (s : State) (o : Occ) (ep sec : Nat) : State :=
  let seq := s.rd EVT R.EVT_SEQ
  let s := s.inc EVT R.EVT_SEQ
  if s.evFree = 0 then { s.inc HIF R.HIF_EVLOST with evLost := true }
  else
    let x := s.ring 16
    let tail := s.rd (RB 16) R.HIF_RSTAT_CQTAIL
    let lost := s.evLost
    let flags := b2n o.set + 2 * b2n lost + 128 * b2n x.phase
    let ws : List Word := [BitVec.ofNat 32 (o.ev + flags * 256 + seq * 65536), BitVec.ofNat 32 o.data,
      BitVec.ofNat 32 ep, BitVec.ofNat 32 (ep / 2 ^ 32 % 2 ^ 16 + (sec % 65536) * 65536)]
    let s := s.send (.mem false (x.cqBase + 16 * tail) ws)
    let s := { s with evLost := false }
    let s := s.wr (RB 16) R.HIF_RSTAT_CQTAIL ((tail + 1) % x.depth)
    let s := s.gate (decide (tail + 1 = x.depth)) (·.modRing 16 fun x => { x with phase := !x.phase })
    let s := s.signal 16 false
    s.gate lost (·.vectorPin ⟨211, true, (s.rd HIF R.HIF_EVLOST)⟩)

/-- The record of an occurrence of the present cycle. -/
def State.evRecord (s : State) (o : Occ) : State := s.evRecordAt o s.epochStamp s.reco.opsec

/-- One occurrence is taken: the ring record when routed there, the boot queue before ring 16 is first ACTIVE, the
direct vector and the pin (R405 to R408). -/
def State.takeOcc (s : State) (o : Occ) : State :=
  let rm := bitOf (s.word (EVT + R.EVT_RMASK_0.off + 4 * (o.ev / 32))).toNat (o.ev % 32)
  let st := s.rstate 16
  let s :=
    if rm && (st == RS_ACTIVE || st == RS_STOPPING) then s.evRecord o
    else if rm && s.bootQOn && decide (192 ≤ o.ev) then
      if s.bootQ.length < 16 then { s with bootQ := s.bootQ ++ [(o, s.epochStamp, s.reco.opsec)] }
      else { s.inc HIF R.HIF_EVLOST with bootDropped := s.bootDropped + 1 }
    else s
  s.vectorPin o

/-- The active instances of level events, in ascending order (R401, R403). -/
def State.levels (s : State) : List (Nat × Nat) :=
  let one (b : Bool) (e : Nat) : List (Nat × Nat) := if b then [(e, 0)] else []
  let many (n e : Nat) (p : Nat → Bool) : List (Nat × Nat) := ((List.range n).filter p).map fun i => (e, i)
  if !s.power.aon then []
  else
    one s.power.vinLost 193 ++ one (s.is SYS R.SYS_SYSSTAT_STRAND) 198
    ++ one (s.rd MSC R.MSC_STAT_STATE == 6 && s.variant.mc) 200 ++ one s.linkLost 205
    ++ many 17 208 (fun r => s.rstate r == RS_ERROR) ++ one (s.is HK R.HK_TSTAT_WARN) 220
    ++ one s.therm.shutHolds 222 ++ many 24 223 (fun n => s.is (HK + 4 * n) R.HK_SENS_FAIL)
    ++ many 6 224 (fun n => bitOf s.railOut n) ++ one s.vinOut 225 ++ one (s.rd REC R.REC_STAT_STATE == 4) 240

/-- The DATA word of a level event (R403). -/
def State.levelData (s : State) (ev i : Nat) : Nat :=
  if ev = 198 then (s.word (SYS + R.SYS_SYSSTAT_ACT.off)).toNat
  else if ev = 200 then (s.word (MSC + R.MSC_STAT_STATE.off)).toNat
  else if ev = 205 then (s.word HIF).toNat
  else if ev = 208 then i
  else if ev = 220 ∨ ev = 222 then (s.word (HK + R.HK_TEMP_TREP.off)).toNat
  else if ev = 223 then i + 32 * s.rd (HK + 4 * i) R.HK_SENS_CAUSE
  else if ev = 224 then i
  else if ev = 225 then s.rd HK R.HK_VIN_VIN
  else if ev = 240 then (s.word (REC + R.REC_FAILCNT.off)).toNat
  else 0

/-- The end and beginning occurrences of the level events that changed since the last cycle. -/
def State.levelOccs (s : State) : List Occ :=
  let now := s.levels
  ((s.active.filter fun x => !now.contains x).map fun x => ⟨x.1, false, s.levelData x.1 x.2⟩)
  ++ ((now.filter fun x => !s.active.contains x).map fun x => ⟨x.1, true, s.levelData x.1 x.2⟩)

/-- Inserts an occurrence in ascending event number, after those already there (R405). -/
def insertOcc (o : Occ) : List Occ → List Occ
  | [] => [o]
  | x :: xs => if o.ev < x.ev then o :: x :: xs else x :: insertOcc o xs

/-- The occurrences of a cycle in the order they are taken (R405): ascending event number. -/
def sortOccs (l : List Occ) : List Occ := l.foldl (fun acc o => insertOcc o acc) []

/-- The end of a command's cycle: the level events are compared with what they were, and the cycle's occurrences are taken
in order. While AON is off no event is reported. -/
def State.endCycle (s : State) : State :=
  if !s.power.aon then { s with occ := [], active := [] }
  else
    let os := sortOccs (s.occ ++ s.levelOccs)
    let s' := forAll os (fun o s => s.takeOcc o) { s with occ := [] }
    { s' with occ := [], active := s'.levels }

/-- A record of command h still waits in an emitter or in the module. -/
def State.recordsWaiting (s : State) (h : Nat) : Bool :=
  s.modRecs.any (fun r => r.1 == h)
    || s.engines.any fun e => match e.2.emitter with
      | some m => m.host && m.handle == h
      | none => false

/-- Commands that are over and whose records are written wait for their completion in the order in which they got there
(R256, R257); one of a ring that DISABLE has ended is lost (R247). -/
def State.settle (s : State) : State :=
  forAll (s.cmds.filter fun c => c.phase == .done && !s.recordsWaiting c.handle) (fun c s =>
    let h := c.handle
    if c.lost = true ∨ s.rstate c.ring = RS_DISABLED then { s with cmds := s.cmds.filter fun x => !(x.handle == h && x.phase == .done) }
    else if (s.ring c.ring).waiting.contains h then s
    else s.modRing c.ring fun x => { x with waiting := x.waiting ++ [h] }) s

/-- What ends a command: completions that are due wait for their posting, and the cycle ends. -/
def State.finish (u : State) : State := u.settle.endCycle

/-- The state as a command finds it, with nothing sent yet. -/
def State.fresh (s : State) : State := { s with out := [], occ := [] }

/-- A command: its outputs start empty, its effect is made on everything but the queue and the variant, and its cycle ends. -/
def run (s : State) (f : State → State) : Host.Outcome State Fault Refusal :=
  .next { f s.fresh with pending := s.pending, variant := s.variant }.finish

/-! ## Refused writes (R279) -/

/-- LASTREF.CAUSE codes. -/
def RC_BOLT : Nat := 1
def RC_SHP : Nat := 2
def RC_GOPEND : Nat := 3
def RC_NARROW : Nat := 4
def RC_STALL : Nat := 5

/-- The block class of an address in the recorder's counts (R368). -/
def blkClass (a : Nat) : Nat :=
  match blkAt a with
  | none => 15
  | some b => match b with
    | .glb => 0 | .prot => 1 | .hif => 2 | .kwy => 3 | .hk => 4 | .recd => 5 | .cal => 6 | .msc => 7 | .sys => 8
    | .evt => 9 | .flt => 10 | .gs _ => 11 | .rt _ => 11 | .out _ => 12 | .ch _ => 13 | .eng _ => 14

/-- Adds to an entry of a small table of counts that saturates at `hi`. -/
def bumpTab (t : Tab Nat) (k n hi : Nat) : Tab Nat := Tab.set 0 t k (satTo hi (Tab.get 0 t k + n))

/-- A refused or discarded write is counted and recorded; EV226 follows for a bolt (R278, R279). -/
def State.refuse (s : State) (a cause : Nat) (src : Src) : State :=
  let s := s.inc GLB R.GLB_REFUSED
  let s := s.wr GLB R.GLB_LASTREF_OFFSET (a / 4 * 4)
  let s := s.wr GLB R.GLB_LASTREF_CAUSE cause
  let s := s.wr GLB R.GLB_LASTREF_SRC (if src = .keyway then 1 else 0)
  let s := s.modReco fun r => { r with period := { r.period with refw := bumpTab r.period.refw (blkClass a) 1 0xFF } }
  s.gate (cause == RC_BOLT) (·.raise 226 (s.word (GLB + R.GLB_LASTREF_OFFSET.off)).toNat)

/-- An accepted configuration write is counted for its block class and by the interface it came over (R279, R368, R391). -/
def State.cfgWrite (s : State) (a : Nat) (src : Src) : State :=
  (s.inc PROT (if src = .pcie then R.PROT_CFGWA else R.PROT_CFGWK)).modReco fun r => { r with period := { r.period with cfgw := bumpTab r.period.cfgw (blkClass a) 1 0xFFFF } }

/-- COUNTS entry k of the present recorder period (R368): 0 unlocks, 1 HOLDOVER entries, 2 hops, 3 swings, 4 lock retries,
5 step replays, 6 retirements and units down, 7 SAFE entries. -/
def State.recCount (s : State) (k : Nat) : State :=
  s.modReco fun r => { r with period := { r.period with counts := bumpTab r.period.counts k 1 0xFFFFFFFF } }

/-! ## Requests and mailboxes (R275, R285) -/

/-- Writes consecutive Q registers from field `q` on. -/
def State.putQ (s : State) (b : Nat) (q : Fld) : List Word → State
  | [] => s
  | w :: ws => State.putQ (s.setWord (b + q.off) w) (b + 4) q ws

/-- A completion: RESULT posted, the Q registers written, GO cleared and VALID set in one cycle (R285). -/
def State.postBox (s : State) (b : Nat) (result go valid q0 : Fld) (x : Box) : State :=
  let s := s.wr b result x.result
  let s := s.putQ b q0 x.q
  ((s.wr b go 0).wr b valid 1).setBox (b + go.off) {}

/-- The low word and the sign-extended high word of a signed 48-bit value (R118). -/
def signed48 (i : Int) : List Word :=
  let v := ofSigned 64 i
  [BitVec.ofNat 32 v, BitVec.ofNat 32 (v / 2 ^ 32)]

/-- The two words of an unsigned 48-bit count. -/
def wide48 (n : Nat) : List Word := [BitVec.ofNat 32 n, BitVec.ofNat 32 (n / 2 ^ 32 % 2 ^ 16)]

/-- The result of the first cause that applies (R443): ILLEGAL, MODE, DENIED, BUSY, then the other codes ascending, as
listed; 0 when none does. -/
def firstOf : List (Bool × Nat) → Nat
  | [] => 0
  | (c, r) :: rest => if c then r else firstOf rest

end Sys2Proof.Machine
end

