-- ==== Sys2Proof/Machine/Operands.lean ====
section
/-! DEFINITION. Machine/Operands.lean: the operand forms of the commands: ratios and frequencies (R43, R44, R54), waypoints
and cache entries (R73, R74), bandwidth presets, and the temperature a group uses. Frequencies are exact rationals, written
as a pair (numerator, denominator) in Hz. -/

namespace Sys2Proof.Machine

/-- D of R43. -/
def dOf (dbl : Bool) : Nat := if dbl then 2 else 1

/-- A ratio's value N + F as (numerator, denominator). -/
def Ratio.val (r : Ratio) : Nat × Nat := (r.n * r.den + r.num, r.den)

/-- The ratio of value num / den, in lowest terms. -/
def ratioOfVal (num den : Nat) : Ratio :=
  let r := num % den
  let c := Nat.gcd r den
  if r = 0 then { fmt := 0, n := num / den } else { fmt := 2, n := num / den, num := r / c, den := den / c }

/-- f_VCO = f_REF × D / REFDIV × (N + F) as (numerator, denominator), for a value of N + F (R43). -/
def fvcoAt (hz : Nat) (dbl : Bool) (refdiv : Nat) (v : Nat × Nat) : Nat × Nat := (hz * dOf dbl * v.1, refdiv * v.2)

/-- f_VCO for a ratio (R43). -/
def fvcoOf (hz : Nat) (dbl : Bool) (refdiv : Nat) (r : Ratio) : Nat × Nat := fvcoAt hz dbl refdiv r.val

/-- f_PFD as (numerator, denominator). -/
def fpfdOf (hz : Nat) (dbl : Bool) (refdiv : Nat) : Nat × Nat := (hz * dOf dbl, refdiv)

/-- `a ≤ b` for rationals given as pairs. -/
def qle (a b : Nat × Nat) : Bool := decide (a.1 * b.2 ≤ b.1 * a.2)

/-- The distance |a − b| of two rationals. -/
def qdist (a b : Nat × Nat) : Nat × Nat :=
  let x := a.1 * b.2
  let y := b.1 * a.2
  (if x ≤ y then y - x else x - y, a.2 * b.2)

/-- Nominal bandwidth of an LBW preset in Hz (chapter 03, the table before R48). -/
def bwHz (lbw : Nat) : Nat :=
  [100000, 128000, 164000, 209000, 267000, 342000, 437000, 559000, 715000, 915000, 1170000, 1496000, 1913000, 2446000,
   3128000, 4000000].getD lbw 4000000

/-- Slew limit of an LBW preset in units of 0.01 ppm/µs. -/
def slewLimit (lbw : Nat) : Nat :=
  [987, 1620, 2650, 4310, 7040, 11500, 18800, 30800, 50500, 82600].getD lbw 100000

/-- The requested rate 0.1 × 10^(code / 10) ppm/µs exceeds a limit given in 0.01 ppm/µs; both sides raised to the tenth
power, so the comparison is exact. -/
def rateAbove (code limit : Nat) : Bool := decide (limit ^ 10 < 10 ^ (code + 10))

/-- The requested rate of a SLEW code in ppm/µs as a rational (SLEW_x): 0.1 × 10^(code / 10), exact for codes 0, 10, 20, 30 and
40, the others with the mantissa to twelve digits. DEDUCED (assumption 80). -/
def slewRate (code : Nat) : Nat × Nat :=
  ([1000000000000, 1258925411794, 1584893192461, 1995262314969, 2511886431510, 3162277660168, 3981071705535, 5011872336273,
    6309573444802, 7943282347243].getD (code % 10) 0 * 10 ^ (code / 10), 10 ^ 13)

/-- The effective rate of a small step (R62): the lower of the requested rate and the slew limit of the preset, in ppm/µs. -/
def effRate (code lbw : Nat) : Nat × Nat :=
  if rateAbove code (slewLimit lbw) then (slewLimit lbw, 100) else slewRate code

/-- R44 without the SLEW condition: the settings are legal. -/
def legal (hz : Nat) (dbl : Bool) (refdiv lbw : Nat) (r : Ratio) : Bool :=
  let f := fpfdOf hz dbl refdiv
  let v := fvcoOf hz dbl refdiv r
  (!dbl || decide (hz ≤ 125000000))
  && decide (1 ≤ refdiv) && decide (refdiv ≤ 1023)
  && qle (5000000, 1) f && qle f (250000000, 1)
  && (if r.fmt = 0 then decide (16 ≤ r.n ∧ r.n ≤ 1023)
      else if r.fmt = 1 then decide (20 ≤ r.n ∧ r.n ≤ 1019)
      else decide (r.fmt = 2 ∧ 20 ≤ r.n ∧ r.n ≤ 1019 ∧ 1 ≤ r.num ∧ r.num < r.den))
  && qle (6400000000, 1) v && qle v (12800000000, 1)
  && qle (bwHz lbw * 20, 1) f

/-- The ratio that mailbox words D0 to D2 hold (chapter 03, ratio mailbox). -/
def ratioOfWords (d0 d1 d2 : Word) : Ratio :=
  let fmt := getBits d2 16 2
  let n := getBits d2 0 10
  if fmt = 0 then { fmt := 0, n := n }
  else if fmt = 1 then { fmt := 1, n := n, num := d0.toNat + getBits d1 0 8 * 2 ^ 32, den := 2 ^ 40 }
  else { fmt := fmt, n := n, num := d0.toNat, den := d1.toNat }

/-- The words Q0 to Q2 that show a ratio. -/
def ratioWords (r : Ratio) : List Word :=
  let q2 := BitVec.ofNat 32 (r.n + r.fmt * 65536)
  if r.fmt = 0 then [0, 0, q2]
  else if r.fmt = 1 then [BitVec.ofNat 32 r.num, BitVec.ofNat 32 (r.num / 2 ^ 32 % 256), q2]
  else [BitVec.ofNat 32 r.num, BitVec.ofNat 32 r.den, q2]

/-- The period denominator q of a setting (R54). -/
def Ratio.q (r : Ratio) : Nat := r.den / Nat.gcd r.num r.den

/-! ## Waypoints (R73, R74) -/

/-- A waypoint, its fields taken out of W0 to W3. -/
structure Wp where
  fracLo : Nat := 0
  fracHi : Nat := 0
  n : Nat := 0
  fmt : Nat := 0
  band : Nat := 0
  lbw : Nat := 0
  tpre : Nat := 0
  icp : Nat := 0
  ttag : Nat := 0
  cache : Bool := false
  cap : Bool := false
  adv : Nat := 0
  last : Bool := false
  next : Nat := 0
  dwell : Nat := 0
  deriving DecidableEq, Repr

/-- Takes the fields of a waypoint out of its four words. -/
def wpOfWords (w : List Word) : Wp :=
  let w0 := w.getD 0 0
  let w1 := w.getD 1 0
  let w2 := w.getD 2 0
  let w3 := w.getD 3 0
  { fracLo := w0.toNat, fracHi := getBits w1 0 8, n := getBits w1 8 10, fmt := getBits w1 18 2, band := getBits w1 20 7,
    lbw := getBits w1 28 4, tpre := getBits w2 0 12, icp := getBits w2 12 5, ttag := getBits w2 17 8,
    cache := getBits w2 25 1 == 1, cap := getBits w2 26 1 == 1, adv := getBits w2 27 3, last := getBits w2 30 1 == 1,
    next := getBits w3 0 12, dwell := getBits w3 12 16 * 2 ^ getBits w3 28 4 }

/-- What an unwritten word of a route table reads: 0, with TTAG 0x80 in W2 (R75). -/
def rtDefault (k : Nat) : Word := if k % 4 = 2 then BitVec.ofNat 32 (0x80 * 2 ^ 17) else 0

/-- What an unwritten leaf B cache entry reads: TTAG 0x80 (R75). -/
def cbDefault : Word := BitVec.ofNat 32 (0x80 * 2 ^ 24)

/-- Word k of a group's route table; waypoint i has words 4i to 4i + 3. -/
def Grp.rtWord (x : Grp) (k : Nat) : Word := Tab.get (rtDefault k) x.rt k

/-- The four words of waypoint i. -/
def Grp.wpWords (x : Grp) (i : Nat) : List Word :=
  [x.rtWord (4 * i), x.rtWord (4 * i + 1), x.rtWord (4 * i + 2), x.rtWord (4 * i + 3)]

/-- Waypoint i of the group. -/
def Grp.wp (x : Grp) (i : Nat) : Wp := wpOfWords (x.wpWords i)

/-- Writes the four words of waypoint i. -/
def Grp.setWp (x : Grp) (i : Nat) (w : List Word) : Grp :=
  let put (t : Tab Word) (j : Nat) : Tab Word := Tab.set (rtDefault (4 * i + j)) t (4 * i + j) (w.getD j 0)
  { x with rt := put (put (put (put x.rt 0) 1) 2) 3 }

/-- Leaf B's cache entry of waypoint i. -/
def Grp.cbWord (x : Grp) (i : Nat) : Word := Tab.get cbDefault x.cb i
def Grp.setCb (x : Grp) (i : Nat) (w : Word) : Grp := { x with cb := Tab.set cbDefault x.cb i w }

/-- FNUM and FDEN of rational store entry i. -/
def Grp.ratWord (x : Grp) (k : Nat) : Word := Tab.get 0 x.rat k
def Grp.setRat (x : Grp) (i : Nat) (lo hi : Word) : Grp :=
  { x with rat := Tab.set 0 (Tab.set 0 x.rat (2 * i) lo) (2 * i + 1) hi }

/-- The ratio of a waypoint: in format RAT its pair comes from the rational store (R73). -/
def Grp.wpRatio (x : Grp) (w : Wp) : Ratio :=
  if w.fmt = 0 then { fmt := 0, n := w.n }
  else if w.fmt = 1 then { fmt := 1, n := w.n, num := w.fracLo + w.fracHi * 2 ^ 32, den := 2 ^ 40 }
  else { fmt := w.fmt, n := w.n, num := (x.ratWord (2 * (w.fracLo % 256))).toNat,
         den := (x.ratWord (2 * (w.fracLo % 256) + 1)).toNat }

/-- A leaf's cache entry for waypoint i: band, tuning preset, charge-pump code, temperature tag (R70, R73). -/
def Grp.cacheOf (x : Grp) (leaf i : Nat) : Nat × Nat × Nat × Nat :=
  if leaf % 2 = 0 then
    let w := x.wp i
    (w.band, w.tpre, w.icp, w.ttag)
  else
    let w := x.cbWord i
    (getBits w 0 7, getBits w 7 12, getBits w 19 5, getBits w 24 8)

/-- The reserved bits of a waypoint are stored as 0 (R73). -/
def cleanWp (w : List Word) : List Word :=
  let fmt := getBits (w.getD 1 0) 18 2
  let w0 := w.getD 0 0
  let w1 := w.getD 1 0 &&& 0xF7FFFFFF
  [ if fmt = 0 then 0 else if fmt = 2 then w0 &&& 0xFF else w0,
    if fmt = 1 then w1 else w1 &&& 0xFFFFFF00,
    w.getD 2 0 &&& 0x7FFFFFFF, w.getD 3 0 ]

/-- A cache entry's temperature tag and tuning preset pass the checks of R77. -/
def cacheOk (tpre ttag : Nat) : Bool :=
  let t := toSigned 8 ttag
  ttag == 0x80 || (decide (-40 ≤ t) && decide (t ≤ 125) && decide (600 ≤ tpre) && decide (tpre ≤ 3000))

/-- The RESULT of writing a waypoint (R77), without the BUSY check: ILLEGAL 1, SHORT 2, OK 0. -/
def wpCheck (hz : Nat) (w : Wp) : Nat :=
  let nOk := if w.fmt = 0 then decide (16 ≤ w.n ∧ w.n ≤ 1023) else decide (20 ≤ w.n ∧ w.n ≤ 1019)
  if w.fmt = 3 ∨ ¬ nOk ∨ 5 ≤ w.adv ∨ ¬ cacheOk w.tpre w.ttag then 1
  else if w.adv = 0 ∧ w.dwell * 1000000 < hz then 2
  else 0

/-! ## Temperature of a group (R70) -/

/-- The group sensor's latest reading in units of 0.125 °C, or its substitute when the sensor has failed (R350). -/
def State.groupTemp (s : State) (g : Nat) : Int :=
  let b := HK + 4 * g
  if s.is b R.HK_SENS_FAIL then (Tab.get {} s.therm.sens g).subst else toSigned 12 (s.rd b R.HK_SENS_READ)

/-- The same rounded to 1 °C, halves up (R72). -/
def State.groupTempC (s : State) (g : Nat) : Int := (s.groupTemp g + 4) / 8

/-- The core that a search takes for target frequency `v` (R68): false core L, true core H. -/
def searchCore (ovl : Nat) (v : Nat × Nat) : Bool :=
  if !qle (8900000000, 1) v then false
  else if !qle v (9200000000, 1) then true
  else if ovl = 1 then false
  else if ovl = 2 then true
  else qle (9050000000, 1) v

/-- The target lies in the range of the core that a band names (R49, R68). -/
def coreCovers (band : Nat) (v : Nat × Nat) : Bool :=
  if 64 ≤ band then qle (8900000000, 1) v && qle v (12800000000, 1) else qle (6400000000, 1) v && qle v (9200000000, 1)

/-- The outcome of R70 for one leaf at a hop. -/
inductive CacheUse where
  | use | noEntry | distrust
  deriving DecidableEq, Repr

/-- Whether leaf n of group g uses its cache entry for waypoint i when the target frequency is `v` (R70). A refusal on
temperature or core alone is a distrusted hop. -/
def State.cacheUse (s : State) (g n i : Nat) (v : Nat × Nat) : CacheUse :=
  let x := s.grp g
  let w := x.wp i
  let (band, _, _, tag) := x.cacheOf n i
  let cen := if n % 2 = 0 then s.is (GS g) R.GS_BANDCFG_CEN_A else s.is (GS g) R.GS_BANDCFG_CEN_B
  if !w.cache || !cen || tag == 0x80 then .noEntry
  else
    let d := s.groupTemp g - 8 * toSigned 8 tag
    if decide (d ≤ 160) && decide (-160 ≤ d) && coreCovers band v then .use else .distrust

end Sys2Proof.Machine
end

