-- ==== Sys2Proof/Machine/Flags.lean ====
section
/-! DEFINITION. Machine/Flags.lean: the status bits that the spec computes: the spur rules S1 to S7 (R64, R129), settings not
yet in force (R57, R126), the group's coasting and guard bits, and the live view of a register word. -/

namespace Sys2Proof.Machine

/-! ## Loop spur rules (R64, R65) -/

/-- f_VCO of leaf n at the settings in force, and at the target while a small step slews (R65, R202); a SYS leaf runs at
10.000 GHz whatever the reference (R60). -/
def State.fvco (s : State) (n : Nat) : Nat × Nat :=
  let l := s.leaf n
  if 32 ≤ n then (10000000000, 1) else fvcoOf s.ref.inForce l.dbl l.refdiv (l.target.getD l.ratio)

/-- dist(m × num / den) as a rational: the distance to the nearest integer. -/
def distMul (m num den : Nat) : Nat × Nat :=
  let r := m * num % den
  (if 2 * r ≤ den then r else den - r, den)

/-- S1 is kept (R64). -/
def spurS1 (f : Nat × Nat) (lbw : Nat) (r : Ratio) : Bool :=
  decide (r.num = 0) ||
    (let d := if 2 * r.num ≤ r.den then r.num else r.den - r.num
     qle (5 * bwHz lbw, 1) (f.1 * d, f.2 * r.den))

/-- S2 is kept. -/
def spurS2 (f : Nat × Nat) (lbw : Nat) (r : Ratio) : Bool :=
  decide (r.q ≤ 64) || (List.range 15).all fun k =>
    let d := distMul (k + 2) r.num r.den
    qle (5 * bwHz lbw, 1) (f.1 * d.1, f.2 * d.2)

/-- S3 is kept. -/
def spurS3 (f : Nat × Nat) (lbw : Nat) (r : Ratio) : Bool :=
  decide (r.q < 2) || decide (64 < r.q) || qle (10 * bwHz lbw, 1) (f.1, f.2 * r.q)

/-- S4 is kept. -/
def spurS4 (dither : Bool) (seed : Nat) (r : Ratio) : Bool :=
  decide (r.q ≤ 64) || (if r.fmt = 1 then dither else decide (seed % r.den ≠ 0))

/-- A difference of frequencies is 0 Hz or at least 50 MHz. -/
def beatOk (a b : Nat × Nat) : Bool :=
  let d := qdist a b
  decide (d.1 = 0) || qle (50000000, 1) d

/-- S5 of leaf n against leaf x. -/
def spurPair (f x : Nat × Nat) : Bool :=
  beatOk f x && beatOk f (2 * x.1, x.2) && beatOk (2 * f.1, f.2) x

/-- S5 is kept by leaf n: every leaf of another group, and every SYS leaf, that is not OFF (R64). Under GUARDED the two
leaves of a group run alike, so both count in every policy. -/
def State.spurS5 (s : State) (n : Nat) : Bool :=
  (List.range 34).all fun x =>
    decide (32 ≤ n) || decide (x / 2 = n / 2) || s.lst x == L_OFF || spurPair (s.fvco n) (s.fvco x)

/-- LSTAT.SPUR5 is evaluated again for every leaf whenever a leaf changes frequency (R65). -/
def State.evalS5 (s : State) : State :=
  iter 34 (fun n s => s.gate (s.lst n != L_OFF) fun s => s.flag (LP n) R.LP_LSTAT_SPUR5 (!s.spurS5 n)) s

/-- SEED as the leaf applies it (R56). -/
def State.seedOf (s : State) (n : Nat) : Nat := s.rd (LP (s.pageLeaf n)) R.LP_SEED

/-- S1 to S5 of leaf n are evaluated for its target settings, and S5 of every leaf (R65). The rules do not bind the SYS
leaves (R60). -/
def State.evalSpurs (s : State) (n : Nat) : State :=
  let l := s.leaf n
  let f := fpfdOf s.ref.inForce l.dbl l.refdiv
  let r := l.target.getD l.ratio
  let p := LP n
  let s := s.gate (decide (n < 32)) fun s =>
    let s := s.flag p R.LP_LSTAT_SPUR1 (!spurS1 f l.lbw r)
    let s := s.flag p R.LP_LSTAT_SPUR2 (!spurS2 f l.lbw r)
    let s := s.flag p R.LP_LSTAT_SPUR3 (!spurS3 f l.lbw r)
    s.flag p R.LP_LSTAT_SPUR4 (!spurS4 l.dither (s.seedOf n) r)
  s.evalS5

/-! ## Output spur rules (R129, R130) -/

/-- ODIV code 0 divides by 65,536 (R122). -/
def odivOf (code : Nat) : Nat := if code = 0 then 65536 else code

/-- The settings of an output are legal (R122). -/
def OutSet.legal (o : OutSet) : Bool :=
  decide (o.ps ≤ 24) && (odivOf o.odiv != 1 || decide (1 ≤ o.ps)) && (decide (o.frac = 0) || decide (4 ≤ odivOf o.odiv))

/-- f_d of an output driven by leaf n: f_VCO / (ODIV + φ). -/
def State.fdOf (s : State) (n : Nat) (o : OutSet) : Nat × Nat :=
  let v := s.fvco n
  (v.1 * 2 ^ 32, v.2 * (odivOf o.odiv * 2 ^ 32 + o.frac))

/-- S6 is kept (R129). -/
def State.spurS6 (s : State) (n : Nat) (o : OutSet) : Bool :=
  decide (o.frac = 0) || (List.range 8).all fun k =>
    let d := distMul (k + 1) o.frac (2 ^ 32)
    let f := s.fdOf n o
    decide (d.1 = 0) || qle (1000000, 1) (f.1 * d.1, f.2 * d.2)

/-- S7 is kept. -/
def State.spurS7 (s : State) (n : Nat) (o : OutSet) : Bool :=
  let l := s.leaf n
  decide (o.frac = 0) || decide (l.ratio.num = 0) || (List.range 4).all fun k =>
    let f := s.fdOf n o
    let p := fpfdOf s.ref.inForce l.dbl l.refdiv
    let d := distMul (k + 1) (p.1 * f.2) (p.2 * f.1)
    decide (d.1 = 0) || qle (5 * bwHz l.lbw, 1) (f.1 * d.1, f.2 * d.2)

/-- The settings in force of output o of group g. -/
def State.outSet (s : State) (g o : Nat) : OutSet := Tab.get {} (s.grp g).outs o

/-- Changes the settings in force of output o. -/
def State.modOut (s : State) (g o : Nat) (f : OutSet → OutSet) : State :=
  s.modGrp g fun x => { x with outs := Tab.set {} x.outs o (f (Tab.get {} x.outs o)) }

/-- S6 and S7 are evaluated for every output of group g (R130). -/
def State.evalOuts (s : State) (g : Nat) : State :=
  iter 36 (fun o s =>
    let x := s.outSet g o
    s.gate x.on fun s =>
      (s.flag (OP g o) R.OP_OSTAT_SPUR6 (!s.spurS6 (s.actLeaf g) x)).flag (OP g o) R.OP_OSTAT_SPUR7
        (!s.spurS7 (s.actLeaf g) x)) s

/-! ## Settings not yet in force -/

/-- The settings written for output o of group g; O32 takes those of the channel the spare serves (R120). -/
def State.outWritten (s : State) (g o : Nat) : OutSet :=
  { odiv := s.rd (OP g o) R.OP_OCFG_ODIV, ps := s.rd (OP g o) R.OP_OCFG_PS, frac := s.rd (OP g o) R.OP_ODFRAC,
    coarse := s.rd (OP g o) R.OP_ODLY_COARSE, fine := s.rd (OP g o) R.OP_ODLY_FINE }

/-- LSTAT.CFGPEND: a field of LCFG or LBOOST that R57 compares differs from the value in force. DESIGN CHOICE (assumption 81): a
leaf that is OFF has no values in force, and its CFGPEND reads 0. -/
def State.cfgPend (s : State) (n : Nat) : Bool :=
  let l := s.leaf n
  let p := LP (s.pageLeaf n)
  s.lst n != L_OFF &&
  !(decide (s.rd p R.LP_LCFG_REFDIV = l.refdiv) && (s.is p R.LP_LCFG_DBL == l.dbl)
    && (s.is p R.LP_LCFG_DITHER == l.dither) && (s.is p R.LP_LCFG_CPLIN == l.cplin)
    && (s.is p R.LP_LCFG_FLB_EN == l.flb) && (s.is p R.LP_LCFG_ICP_AUTO == l.icpAuto)
    && (l.wpSet || l.icpAuto || decide (s.rd p R.LP_LCFG_ICP = l.icp))
    && (l.wpSet || decide (s.rd p R.LP_LCFG_LBW = l.lbw)) && decide (s.rd p R.LP_LBOOST = l.len))

/-! ## Group status -/

/-- Leaf n serves: it is LOCKED, or coasting through HOLDOVER or RELOCK. -/
def State.serving (s : State) (n : Nat) : Bool :=
  s.lst n == L_LOCKED || s.lst n == L_HOLDOVER || s.lst n == L_RELOCK

/-- HOLDSTAT.COAST (R112): the leaf driving the tree is in HOLDOVER, RELOCK or FAULT, or a CLROFS slew runs. -/
def State.coasting (s : State) (g : Nat) : Bool :=
  let st := s.lst (s.actLeaf g)
  st == L_HOLDOVER || st == L_RELOCK || st == L_FAULT || (s.grp g).clrSlew

/-- SWSTAT.GUARD (R146): under either policy the idle leaf is LOCKED and joined. -/
def State.guardIn (s : State) (g : Nat) : Bool :=
  s.lst (s.idleLeaf g) == L_LOCKED && (s.leaf (s.idleLeaf g)).joined

/-- The outputs of the group are held low: no leaf drives the tree, or a recovery gap is in progress. -/
def State.treeLow (s : State) (g : Nat) : Bool := s.lst (s.actLeaf g) == L_OFF || s.is (GS g) R.GS_SWSTAT_GAP

/-- PW_STAT.RUN (R213): phase words are delivered. -/
def State.wordsRun (s : State) (g : Nat) : Bool := (s.grp g).on && (s.grp g).pwEn && !s.treeLow g

/-- A descriptor executes on group g: a live command is running there. -/
def State.cmdOn (s : State) (g : Nat) : Bool :=
  s.cmds.any fun c => c.phase == .running && groupSites c.sites g != 0

/-- A granted PHASE_HOLD covers group g (R264). -/
def State.phaseHeld (s : State) (g : Nat) : Bool :=
  s.holds.any fun h => h.granted && !h.guarded && bitOf h.groups g

/-- A granted GUARDED guarantee covers group g. -/
def State.guardHeld (s : State) (g : Nat) : Bool :=
  s.holds.any fun h => h.granted && h.guarded && bitOf h.groups g

/-- A small step slews on group g. -/
def State.slewOn (s : State) (g : Nat) : Bool :=
  s.is (LP (2 * g)) R.LP_LSTAT_SLEWING || s.is (LP (2 * g + 1)) R.LP_LSTAT_SLEWING

/-- A hop is in progress on group g, from P0 to completion. -/
def State.hopping (s : State) (g : Nat) : Bool := s.is (GS g) R.GS_RSTAT_HOPPING

/-- A route has been accepted and has not ended. -/
def State.routeOn (s : State) (g : Nat) : Bool := (s.grp g).route.isSome

/-- A test step executes on group g. -/
def State.stepOn (s : State) (g : Nat) : Bool := (s.grp g).cur.isSome

/-- HOLDSTAT.PAUSED (R113). -/
def State.pausedGrp (s : State) (g : Nat) : Bool :=
  s.coasting g && s.is (GS g) R.GS_HOLDCTL_PAUSE && !s.stepOn g

/-- SWSTAT.EXPOSED: under PING-PONG, or with a leaf retired, the group has no guard (R149, R338). -/
def State.exposed (s : State) (g : Nat) : Bool :=
  let ret (n : Nat) : Bool := bitOf (s.rd FLT R.FLT_LEAFRET) n
  (s.grp g).on && (s.pingPong g || ret (2 * g) || ret (2 * g + 1)) && !s.guardIn g

/-- SWSTAT.UNANCH (R138): no anchor, an accepted step or a CONTINUOUS swing since the last restart, or coasting. -/
def State.unanch (s : State) (g : Nat) : Bool := !(s.grp g).anchored || s.coasting g

end Sys2Proof.Machine
end

