-- ==== Sys2Proof/Machine/Units.lean ====
section
/-! DEFINITION. Machine/Units.lean: shared operations that cross the units: marks into the engines' sample FIFOs, the parts of
a live command, the end of a route, record triggers and changes of the mode. -/

namespace Sys2Proof.Machine

/-! ## Mode -/

/-- GLB.MODE.CUR changes: PREV follows and EV192 is raised with the word after the change (R27). -/
def State.setMode (s : State) (m : Nat) : State :=
  if s.mode = m then s
  else
    let s := s.wr GLB R.GLB_MODE_PREV s.mode
    let s := s.wr GLB R.GLB_MODE_CUR m
    let s := s.gate (decide (m ≠ MODE_SAFE)) (·.wr GLB R.GLB_MODE_SAFE_CAUSE 0)
    s.raise 192 (s.word (GLB + R.GLB_MODE_CUR.off)).toNat

/-- The pending request, if any, is answered with RESULT and GO clears (R25). An EV192 of the same cycle shows RESULT with the
new mode (R270). -/
def State.modeResult (s : State) (r : Nat) : State :=
  let s := s.wr GLB R.GLB_MODE_RESULT r
  let s := s.wr GLB R.GLB_MODE_REQ_GO 0
  let w := s.word (GLB + R.GLB_MODE_CUR.off)
  let upd (o : Occ) : Occ := if o.ev = 192 ∧ getBits w 0 3 = o.data % 8 then { o with data := w.toNat } else o
  let s := { s with occ := s.occ.map upd }
  s.modPower fun p => { p with reqPending := false, armWait := false, downStep := 0, sysExit := false, exitWait := false }

/-- The protection state is SEALED; PSTATE 3 acts as SEALED (R385). -/
def State.sealed (s : State) : Bool := s.rd PROT R.PROT_STATE_PSTATE == 1 || s.rd PROT R.PROT_STATE_PSTATE == 3

/-! ## Engines and marks -/

/-- The engine that works for logical engine e: itself, or the spare of its bank whose SERVES names it. -/
def State.physEng (s : State) (e : Nat) : Nat :=
  match (List.range 4).find? fun i =>
      let p := 512 + 4 * (e / 128) + i
      s.is (ENG p) R.ENG_SERVES_VALID && s.rd (ENG p) R.ENG_SERVES_ENG == e with
  | some i => 512 + 4 * (e / 128) + i
  | none => e

/-- ESTAT.STATE codes (R216). -/
def E_IDLE : Nat := 1
def E_RUN : Nat := 2
def E_WAIT : Nat := 3
def E_HALTED : Nat := 4
def E_EXC : Nat := 5

/-- The engine takes stream entries: it is in RUN or WAIT (R221). -/
def Engine.live (x : Engine) : Bool := x.st == E_RUN || x.st == E_WAIT

/-- The register page of the channel, or of the spare set, whose samples engine e takes. -/
def chanOfEng (e : Nat) : Nat := e

/-- A mark enters the sample FIFO of logical engine e: one of 16 mark entries, or it is dropped and counted, and the next
entry carries RST (R19, R218). -/
def State.pushMark (s : State) (e : Nat) (m : Entry) : State :=
  let p := s.physEng e
  let x := s.eng p
  if !x.live then s
  else if (x.fifo.filter (·.mark)).length < 16 then
    s.setEng p { x with fifo := x.fifo ++ [{ m with rst := x.rstNext, lost := x.lostNext }], rstNext := false, lostNext := false }
  else (s.setEng p { x with rstNext := true }).inc (CH (chanOfEng e)) R.CH_OVFCNT

/-- The channels (positions 0 to 31) of site i of group g, by the map in force; a channel of a lower-numbered site is
ignored (R181). -/
def Grp.siteMask (x : Grp) (i : Nat) : Nat :=
  let below := (List.range i).foldl (fun m j => m ||| x.siteMap.getD j 0) 0
  (x.siteMap.getD i 0 ||| below) ^^^ below

/-- Site i of the group is enabled by the configuration in force. -/
def Grp.siteEn (x : Grp) (i : Nat) : Bool := (x.siteCfg.getD i 0) % 2 == 1

/-- The lead engine of site i of group g: its LEAD channel, or its lowest-numbered member (R181). -/
def Grp.siteLead (x : Grp) (i : Nat) : Nat :=
  let k := (x.siteCfg.getD i 0) / 2 % 32
  if bitOf (x.siteMask i) k then k
  else ((List.range 32).find? fun j => bitOf (x.siteMask i) j).getD k

/-- The enabled sites of group g, as four bits. -/
def Grp.enabled (x : Grp) : Nat :=
  (List.range 4).foldl (fun m i => if x.siteEn i then m + 2 ^ i else m) 0

/-- The logical engines of the sites of group g that a four-bit mask names. -/
def State.siteEngines (s : State) (g sites : Nat) : List Nat :=
  let x := s.grp g
  ((List.range 32).filter fun k =>
      (List.range 4).any fun i => bitOf sites i && bitOf (x.siteMask i) k).map fun k => 32 * g + k

/-- The sites that have joined a route (R82): those named by its commands, or every enabled site on the register path. -/
def State.joinedSites (s : State) (g : Nat) (r : Route) : Nat :=
  if r.byReg then (s.grp g).enabled
  else (List.range 4).foldl (fun m i =>
    if (r.holder :: r.joined).any fun h => match s.cmd? h with
        | some c => bitOf (groupSites c.sites g) i
        | none => false
    then m + 2 ^ i else m) 0

/-- A mark to every engine of a route's joined sites. -/
def State.markJoined (s : State) (g : Nat) (r : Route) (m : Entry) : State :=
  forAll (s.siteEngines g (s.joinedSites g r)) (fun e s => s.pushMark e m) s

/-- The point frequency word (R206): the nominal frequency of the source at the settings now in force and ratio r, whole hertz in
[63:16] and 2^−16 Hz below, rounded to nearest. -/
def State.pointFreq (s : State) (g : Nat) (r : Ratio) : Nat :=
  let l := s.leaf (s.actLeaf g)
  let o := s.outSet g (s.grp g).pwSrc
  let v := fvcoOf s.refHz l.dbl l.refdiv r
  let d := (odivOf o.odiv * 2 ^ 32 + o.frac) * 2 ^ o.ps
  let den := v.2 * d
  if den = 0 then 0 else (v.1 * 2 ^ 32 * 65536 * 2 + den) / (2 * den)

/-! ## Commands -/

/-- STATUS is the highest code that applies (R258). -/
def State.cmdStatus (s : State) (h code : Nat) : State :=
  s.modCmd h fun c => { c with status := if c.status < code then code else c.status }

/-- Completion FLAGS bits (R257). -/
def CF_COAST : Nat := 0
def CF_REPLAYED : Nat := 1
def CF_THROTTLED : Nat := 2
def CF_SUSPECT : Nat := 3
def CF_BLOCKED : Nat := 4
def CF_SLIP : Nat := 5
def CF_FALLBACK : Nat := 6

/-- A completion flag is set (R259). -/
def State.cmdFlag (s : State) (h bit : Nat) : State := s.modCmd h fun c => { c with cflags := setBit c.cflags bit true }

/-- A part of an EXEC or HOP on group g has ended: 0 route or hop, 1 step, 2 engines. -/
def partBit (g p : Nat) : Nat := 3 * g + p

/-- The part no longer holds up the command; with none left the command is done. -/
def State.partDone (s : State) (h g p : Nat) : State :=
  s.modCmd h fun c =>
    let left := setBit c.groupsLeft (partBit g p) false
    { c with groupsLeft := left, phase := if left = 0 ∧ c.phase = .running then .done else c.phase }

/-- The command ends without further effect: every part is over. -/
def State.cmdEnd (s : State) (h code : Nat) : State :=
  (s.cmdStatus h code).modCmd h fun c => { c with groupsLeft := 0, phase := .done }

/-- A head entry of the route queue of group g whose command has an unexpired DEADLINE: a granted DEADLINE guarantee (R264). -/
def State.deadlineHead (s : State) (g : Nat) : Option Nat :=
  match (s.grp g).queue with
  | [] => none
  | e :: _ => match s.cmd? e.handle with
    | some c => if c.deadline ≠ 0 ∧ c.expired = false then some c.ring else none
    | none => none

/-- STATUS codes used across the model (R258). -/
def ST_FAIL : Nat := 1
def ST_LATE : Nat := 2
def ST_SETUP : Nat := 3
def ST_PATERR : Nat := 4
def ST_REFUSED : Nat := 5
def ST_EXC : Nat := 6
def ST_ABORTED : Nat := 7
def ST_BLOCKED : Nat := 8
def ST_FAULT : Nat := 9
def ST_DMAERR : Nat := 10
def ST_SAFE : Nat := 11
def ST_ILLEGAL : Nat := 16
def ST_SEQERR : Nat := 17
def ST_ABSENT : Nat := 18
def ST_NOTOWNED : Nat := 19
def ST_NOTFOUND : Nat := 20

/-- Every command of a route carries a flag. -/
def State.routeFlag (s : State) (g bit : Nat) : State :=
  match (s.grp g).route with
  | some r => if r.byReg then s else forAll (r.holder :: r.joined) (fun h s => s.cmdFlag h bit) s
  | none => s

/-- END_ST codes of RSTAT. -/
def END_END : Nat := 1
def END_STOP : Nat := 2
def END_LIMIT : Nat := 3
def END_ILLEGAL : Nat := 4
def END_FAULT : Nat := 5
def END_SAFE : Nat := 6

/-- A route ends (R81): END_ST is recorded, the route-end mark enters the joined engines' FIFOs (R218), and each of its
commands' route part is over. -/
def State.routeEnd (s : State) (g st : Nat) : State :=
  match (s.grp g).route with
  | none => s
  | some r =>
    let cur := s.rd (GS g) R.GS_RSTAT_CUR
    let s := s.markJoined g r { mark := true, code := cur + 2 ^ 31 }
    let s := s.wr (GS g) R.GS_RSTAT_END_ST st
    let s := s.wr (GS g) R.GS_RSTAT_RUN 0
    let s := s.wr (GS g) R.GS_RSTAT_WAIT 0
    let s := s.modGrp g fun x =>
      { x with route := none, prelock := if x.prelock.isSome then none else x.prelock,
               hop := match x.hop with
                 | some h => if h.src = .route ∧ ¬ h.begun then none else some h
                 | none => none }
    let s := s.gate ((s.grp g).hop.isNone) (·.wr (GS g) R.GS_RSTAT_HELD 0)
    if r.byReg then s
    else forAll (r.holder :: r.joined) (fun h s =>
      let s := s.gate (decide (st = END_FAULT)) (·.cmdStatus h ST_FAULT)
      s.partDone h g 0) s

/-- A hop or swing of the route falls in the executing step (R341). -/
def State.stepHopped (s : State) (g : Nat) : State :=
  s.modGrp g fun x => { x with cur := x.cur.map fun st => { st with hopped := true } }

/-! ## Recorder triggers (R369) -/

/-- The largest phase residual of the period, in fs, with its group (R139, R368). -/
def State.recPres (s : State) (g v : Nat) : State :=
  s.modReco fun r =>
    if r.period.pres < satTo 0xFFFFFFFF v then
      { r with period := { r.period with pres := satTo 0xFFFFFFFF v, xgrp := r.period.xgrp / 16 * 16 + g } }
    else r

/-- The longest holdover of a group leaf that ended in the period, in µs, with its group (R368). -/
def State.recHold (s : State) (g v : Nat) : State :=
  s.modReco fun r =>
    if r.period.holdmax < v then
      { r with period := { r.period with holdmax := v, xgrp := r.period.xgrp % 16 + 16 * g } }
    else r

/-- The record sector of page position p: 0 to 63 permanent, then the 1,026 circulating sectors (R365, R371). -/
def sectorOf (p : Nat) : Nat := if p < 1024 then p / 16 else 64 + (p - 1024) / 16 % 1026

/-- REC.STAT.STATE codes. -/
def REC_READY : Nat := 0
def REC_WRITING : Nat := 1
def REC_ERASING : Nat := 2
def REC_RECOVER : Nat := 3
def REC_UNRECORDED : Nat := 4

/-- REC.STAT.STATE follows the recorder's own state. -/
def State.recState (s : State) : State :=
  let r := s.reco
  let st := if r.unrecorded then REC_UNRECORDED else if r.recovering then REC_RECOVER else if r.page then REC_WRITING
    else if r.erase.isSome then REC_ERASING else REC_READY
  let s := s.wr REC R.REC_STAT_STATE st
  let s := s.flag REC R.REC_STAT_JOPEN r.die.journal.isSome
  s.wr REC R.REC_STAT_SPARES (256 - r.die.maps.length)

/-- What an erase takes away as it begins (R331, R374): the records of a sector, a header copy, or a slot. -/
def Die.eraseBegun (d : Die) : EraseOf → Die
  | .sector n => { d with recs := d.recs.filter fun r => sectorOf r.pos != n }
  | .header false => { d with headA := [] }
  | .header true => { d with headB := [] }
  | .calSlot false => { d with calA := none, calLostA := true }
  | .calSlot true => { d with calB := none, calLostB := true }
  | .cfgSlot false => { d with slotA := none }
  | .cfgSlot true => { d with slotB := none }

/-- An erase starts with its OPEN journal entry, or waits for the one that runs (R373). -/
def State.eraseStart (s : State) (e : EraseOf) : State :=
  if s.reco.erase.isSome then s.modReco fun r => { r with eraseQ := r.eraseQ ++ [e] }
  else (s.modReco fun r => { r with erase := some e, die := { r.die.eraseBegun e with journal := some e } }).recState

/-- The oldest waiting record's page program starts when the recorder is free (R370). -/
def State.recStart (s : State) : State :=
  let r := s.reco
  (if r.recovering || r.page || r.waiting.isEmpty then s
   else s.modReco fun r => { r with page := true, pageDone := false, attempts := 0 }).recState

/-- The data of a record of type `typ` formed now (R368). -/
def State.formRecord (s : State) (typ : Nat) : RecData :=
  let r := s.reco
  { r.period with
    seq := r.nextSeq, count := r.count, opsec := r.opsec, hepoch := r.hostEpoch, typ := typ,
    rflags := 4 * b2n r.timeUnk + r.period.rflags, mode := s.mode, scause := s.rd GLB R.GLB_MODE_SAFE_CAUSE,
    period := r.opsec - r.lastStoredSec, fails := s.rd REC R.REC_FAILCNT }

/-- A record trigger: its data are taken, the period ends, it takes the next sequence number, and the interval timer
restarts (R369). A HOST_EPOCH written since the last trigger takes effect here (R364). -/
def State.trigger (s : State) (typ : Nat) : State :=
  let s := s.modReco fun r => match r.hostEpochNext with
    | some e => { r with hostEpoch := e, hostEpochNext := none }
    | none => r
  let d := s.formRecord typ
  let s := s.modReco fun r =>
    { r with waiting := r.waiting ++ [d], nextSeq := r.nextSeq + 1,
             period := { rflags := if s.power.clkRoot = 2 then 8 else 0 }, lastTrigSec := r.opsec, trigSeen := true }
  s.recStart

/-- The orderly power-down goes on to its record once no slot write is in progress (R40): `downStep` 2 waits for that, 3 for the
record. -/
def State.downGo (s : State) : State :=
  if s.power.downStep = 2 ∧ s.cal.storing.isNone ∧ s.flt.store.isNone ∧ s.prot.store.isNone ∧ s.prot.storeNext = false then
    (s.modPower fun p => { p with downStep := 3 }).trigger 2
  else s

end Sys2Proof.Machine
end

