-- ==== Sys2Proof/Machine/Loop.lean ====
section
/-! DEFINITION. Machine/Loop.lean: the shared operations of a leaf and of a group's tree: settings taken into force, the
modulator (R51 to R53), locks, hops and holdover entries of one leaf (R98, R101), the restart of a group (R134, R135). -/

namespace Sys2Proof.Machine

/-! ## Modulator (R50 to R53) -/

/-- The modulus M of the modulator (R51). -/
def Ratio.modulus (r : Ratio) : Nat := r.den

/-- The modulator and the dither generator are loaded with their restart values (R52). -/
def Leaf.restart (l : Leaf) (seed : Nat) : Leaf :=
  { l with acc1 := if l.ratio.den = 0 then 0 else seed % l.ratio.den, acc2 := 0, acc3 := 0, car2 := 0, car3 := 0,
           car3p := 0, lfsr := 0x2D4C1E5B, ymod := 0 }

/-- One step of the dither generator, x^31 + x^28 + 1: the new state; its output bit is bit 30 before the step (R53). DESIGN
CHOICE (assumption 82): R53 gives the polynomial and the load value, not the form; the model shifts left, feeds back taps 31
and 28, and puts out the top bit. -/
def lfsrStep (v : Nat) : Nat := (2 * v + (v / 2 ^ 30 % 2 + v / 2 ^ 27 % 2) % 2) % 2 ^ 31

/-- One PFD cycle of the MASH 1-1-1 (R51): the accumulators, the carry history and the output y[n]. In a small step the ratio
moves by one increment (R62), and y[n] is a free value in its range. -/
def Leaf.pfdCycle (l : Leaf) : Leaf :=
  if l.target.isSome then
    { l with slewCyc := l.slewCyc + 1, ymod := ((Config.slewY l.slewTag l.slewCyc).val : Int) - 3 }
  else if l.ratio.fmt = 0 then { l with ymod := 0 }
  else
    let m := l.ratio.den
    let dith := l.dither && decide (l.ratio.fmt = 1)
    let x := if dith then (if 2 ^ 30 ≤ l.lfsr then l.ratio.num + 1 else l.ratio.num + m - 1) else l.ratio.num
    let a1 := l.acc1 + x
    let c1 := a1 / m
    let acc1 := a1 % m
    let carry1 : Int := if dith ∧ l.lfsr < 2 ^ 30 then (c1 : Int) - 1 else c1
    let a2 := l.acc2 + acc1
    let c2 := a2 / m
    let acc2 := a2 % m
    let a3 := l.acc3 + acc2
    let c3 := a3 / m
    { l with acc1 := acc1, acc2 := acc2, acc3 := a3 % m, car2 := c2, car3p := l.car3, car3 := c3,
             lfsr := if dith then lfsrStep l.lfsr else l.lfsr,
             ymod := carry1 + (c2 - l.car2) + (c3 - 2 * l.car3 + l.car3p) }

/-- One reference edge at a leaf: D half-steps towards its next PFD edges (R43). -/
def Leaf.refEdge (l : Leaf) : Leaf :=
  let t := l.pfdPhase + dOf l.dbl
  if l.refdiv = 0 then l
  else
    let k := t / l.refdiv
    let l := { l with pfdPhase := t % l.refdiv }
    if k = 0 then l else if k = 1 then l.pfdCycle else l.pfdCycle.pfdCycle

/-- A small step ends with ratio r in force (R62, R63): the accumulators lie below its modulus, and they and the carry history
are free values. -/
def Leaf.loadRatio (l : Leaf) (r : Ratio) : Leaf :=
  let acc (k : Nat) : Nat := Config.slewAcc l.slewTag k % r.den
  let car (k : Nat) : Nat := Config.slewAcc l.slewTag k % 2
  { l with ratio := r, target := none, acc1 := acc 0, acc2 := acc 1, acc3 := acc 2, car2 := car 3, car3 := car 4, car3p := car 5 }

/-- The target of a small step is loaded exactly in its own format (R62). -/
def Leaf.loadTarget (l : Leaf) : Leaf :=
  match l.target with
  | none => l
  | some r => l.loadRatio r

/-- The instantaneous value N + F of leaf n (R62): linear in frequency from the value at acceptance, one increment of the
effective rate a PFD cycle, up to the target. 1 ppm/µs of f_now is one f_now a second. -/
def State.instVal (s : State) (n : Nat) : Nat × Nat :=
  let l := s.leaf n
  match l.target with
  | none => l.ratio.val
  | some t =>
    let a := l.slewFrom
    let r := effRate l.slewCode l.lbw
    let up := qle a t.val
    let num := r.1 * l.slewCyc * l.refdiv
    let den := r.2 * s.ref.inForce * dOf l.dbl
    let v := if up then (a.1 * (den + num), a.2 * den) else (a.1 * (den - num), a.2 * den)
    if up then (if qle t.val v then t.val else v) else if qle v t.val then t.val else v

/-- The modulator of leaf n restarts (R52) with the SEED it applies. -/
def State.restartMod (s : State) (n : Nat) : State :=
  let seed := s.seedOf n
  s.modLeaf n fun l => l.restart seed

/-! ## Leaf states (R97, R98) -/

/-- A leaf enters state `st`; a group leaf raises EV(12g + 0) on HOLDOVER and EV(12g + 3) on FAULT. -/
def State.setLst (s : State) (n st : Nat) : State :=
  let s0 := s
  let s := s.wr (LP n) R.LP_LSTATE_STATE st
  let s := s.gate (st != L_SEARCH && st != L_ACQUIRE && st != L_RELOCK) fun s => s.modLeaf n fun l => { l with window := 0 }
  if s0.lst n = st ∨ 32 ≤ n then s
  else
    let leaf := n % 2
    let s := s.gate (st == L_HOLDOVER) (·.graise (n / 2) 0 (leaf + 16 * s.rd (LP n) R.LP_LSTATE_CAUSE))
    s.gate (st == L_FAULT) (·.graise (n / 2) 3 leaf)

/-- A leaf takes its written settings into force (R57); a waypoint supplies its ratio, LBW and charge-pump code (R74). -/
def State.takeSettings (s : State) (n : Nat) (r : Ratio) (w : Option Wp) : State :=
  let p := LP (s.pageLeaf n)
  let lbw := match w with | some w => w.lbw | none => s.rd p R.LP_LCFG_LBW
  let icp := match w with | some w => w.icp | none => s.rd p R.LP_LCFG_ICP
  let s := s.modLeaf n fun l =>
    { l with ratio := r, refdiv := s.rd p R.LP_LCFG_REFDIV, dbl := s.is p R.LP_LCFG_DBL,
             dither := s.is p R.LP_LCFG_DITHER, cplin := s.is p R.LP_LCFG_CPLIN, flb := s.is p R.LP_LCFG_FLB_EN,
             icp := icp, icpAuto := s.is p R.LP_LCFG_ICP_AUTO, lbw := lbw, len := s.rd p R.LP_LBOOST,
             wpSet := w.isSome, target := none }
  let s := s.wr (LP n) R.LP_LSTAT_LBW_USED lbw
  s.flag (LP n) R.LP_LSTAT_DITH_ACT ((s.leaf n).dither && decide (r.fmt = 1))

/-- Leaf n takes the settings that leaf m has in force (R146, R150). -/
def State.copySettings (s : State) (n m : Nat) : State :=
  let a := s.leaf m
  let r := a.target.getD a.ratio
  let s := s.modLeaf n fun l =>
    { l with ratio := r, refdiv := a.refdiv, dbl := a.dbl, dither := a.dither, cplin := a.cplin, flb := a.flb, icp := a.icp,
             icpAuto := a.icpAuto, lbw := a.lbw, len := a.len, wpSet := a.wpSet, target := none }
  let s := s.wr (LP n) R.LP_LSTAT_LBW_USED a.lbw
  s.flag (LP n) R.LP_LSTAT_DITH_ACT (a.dither && decide (r.fmt = 1))

/-- A leaf that enters SEARCH, ACQUIRE or RELOCK takes its written LDCFG and HCFG (R117). -/
def State.takeDet (s : State) (n : Nat) : State :=
  let p := LP (s.pageLeaf n)
  s.modLeaf n fun l =>
    { l with ldcfg := (s.word (p + R.LP_LDCFG_WIN.off)).toNat, hcfg := (s.word (p + R.LP_HCFG_AVG.off)).toNat }

/-- The charge-pump code in force: chosen by the leaf under ICP_AUTO (a free value, R46), otherwise the setting. -/
def State.chooseIcp (s : State) (n : Nat) : State :=
  if (s.leaf n).icpAuto then (s.wr (LP n) R.LP_LSTAT_ICP_USED (Config.icpCode s.freeCtr).toNat).tick
  else s.wr (LP n) R.LP_LSTAT_ICP_USED (s.leaf n).icp

/-- The fast-lock boost starts with the pump (R48): the hold, then four removal steps. -/
def State.armBoost (s : State) (n : Nat) : State :=
  if (s.leaf n).flb then (s.modLeaf n fun l => { l with boostSteps := 5 }).flag (LP n) R.LP_LSTAT_BOOST true
  else (s.modLeaf n fun l => { l with boostSteps := 0 }).flag (LP n) R.LP_LSTAT_BOOST false

/-- A band search starts (R69): window 1 with code 32 of the core of R68; SRCHCNT counts it. -/
def State.startSearch (s : State) (n : Nat) (core : Bool) : State :=
  let s := (s.setLst n L_SEARCH).takeDet n
  let s := s.modLeaf n fun l => { l with window := 1, searched := true, kept := false, bestBand := 0, f90 := 0, f60 := 0 }
  let s := s.wr (LP n) R.LP_LSTAT_BAND ((if core then 64 else 0) + 32)
  let s := s.wr (LP n) R.LP_HDAC_DACV (36000 * 256)
  let s := s.flag (LP n) R.LP_HDAC_ENG true
  s.gate (decide (n < 32)) (·.inc (GS (n / 2)) R.GS_SRCHCNT)

/-- The core a search of leaf n takes for its target (R68); a SYS leaf always runs core H (10.000 GHz). -/
def State.coreFor (s : State) (n : Nat) : Bool :=
  searchCore (if n < 32 then s.rd (GS (n / 2)) R.GS_BANDCFG_OVL else 0) (s.fvco n)

/-- A cached band is applied (R71): BAND, the tuning preset on the DAC for 40 ns, and the cached charge-pump code under
ICP_AUTO. -/
def State.startCached (s : State) (g n i : Nat) : State :=
  let (band, tpre, icp, _) := (s.grp g).cacheOf n i
  let s := (s.setLst n L_ACQUIRE).takeDet n
  let s := s.modLeaf n fun l => { l with searched := false, window := 0 }
  let s := s.wr (LP n) R.LP_LSTAT_BAND band
  let s := s.wr (LP n) R.LP_HDAC_DACV (tpre * 20 * 256)
  let s := s.flag (LP n) R.LP_HDAC_ENG true
  s.wr (LP n) R.LP_LSTAT_ICP_USED (if (s.leaf n).icpAuto then icp else (s.leaf n).icp)

/-- A hop whose cache entry was refused on temperature or core alone (R70). DESIGN CHOICE (assumption 83): under GUARDED a hop
that both leaves distrust counts MISSCNT once for each leaf. -/
def State.distrusted (s : State) (n : Nat) : State :=
  let s := s.modLeaf n fun l => { l with distrust := true }
  s.gate (decide (n < 32)) fun s => (s.inc (GS (n / 2)) R.GS_MISSCNT).flag (GS (n / 2)) R.GS_LASTHOP_DISTRUST true

/-- The leaves a ratio-mailbox operation on page n acts on: under GUARDED both leaves of the group (R56). -/
def State.rmbLeaves (s : State) (n : Nat) : List Nat :=
  if 32 ≤ n then [n] else if s.pingPong (n / 2) then [n] else [2 * (n / 2), 2 * (n / 2) + 1]

/-- A small step in progress is abandoned (R63): RESULT reads ABANDONED, also where the mailbox has still to post its
acceptance (R59, R100), and the slew stops. -/
def State.abandonStep (s : State) (n : Nat) : State :=
  let l := s.leaf n
  if !s.is (LP n) R.LP_LSTAT_SLEWING && !l.widened then s
  else
    let s := s.gate (s.is (LP n) R.LP_LSTAT_SLEWING) fun s =>
      forAll (s.rmbLeaves n) (fun m s =>
        let a := LP m + R.LP_RMB_CTRL_GO.off
        let x := s.box a
        s.gate (x.busy && x.op == 2 && x.result == 0) (·.setBox a { x with result := 5 }))
        (s.wr (LP n) R.LP_RMB_CTRL_RESULT 5)
    let s := s.flag (LP n) R.LP_LSTAT_SLEWING false
    let s := s.flag (LP n) R.LP_LSTAT_SLEWCLAMP false
    s.modLeaf n fun l => { (if l.target.isSome then l.loadRatio l.stepBase else l) with widened := false }

/-- A swing begins: a small step of leaf n is abandoned and its slew stops where it stands (R63); the ratio in force is then the
instantaneous one. DEDUCED (assumption 80). -/
def State.stopStep (s : State) (n : Nat) : State :=
  let v := s.instVal n
  let on := (s.leaf n).target.isSome
  (s.abandonStep n).gate on (·.modLeaf n fun l => l.loadRatio (ratioOfVal v.1 v.2))

/-- Leaf n is parked or switched off: OFF, with its return offset cleared and nothing pending (R98). -/
def State.leafOff (s : State) (n : Nat) : State :=
  let s := s.abandonStep n
  let s := s.setLst n L_OFF
  let s := s.modLeaf n fun l =>
    { l with kind := .none, window := 0, retOfs := 0, slewing := false, joined := false, boostSteps := 0, waypoint := none }
  let p := LP n
  let s := forAll [R.LP_LSTATE_HOLDQ, R.LP_LSTATE_FOLLOW, R.LP_LSTATE_OFFSET, R.LP_LSTATE_WAITREF, R.LP_LSTATE_RETRY,
    R.LP_HDAC_ENG, R.LP_LSTAT_BOOST, R.LP_LSTAT_SPUR1, R.LP_LSTAT_SPUR2, R.LP_LSTAT_SPUR3, R.LP_LSTAT_SPUR4,
    R.LP_LSTAT_SPUR5] (fun f s => s.wr p f 0) s
  s.evalS5

/-- The settings that leaf n would take for ratio r (and a waypoint's LBW) are legal (R44). -/
def State.legalFor (s : State) (n : Nat) (r : Ratio) (w : Option Wp) : Bool :=
  let p := LP (s.pageLeaf n)
  legal s.refHz (s.is p R.LP_LCFG_DBL) (s.rd p R.LP_LCFG_REFDIV)
    (match w with | some w => w.lbw | none => s.rd p R.LP_LCFG_LBW) r

/-- A leaf's loop closes after a search or a cached preset: pump on, boost, code chosen. -/
def State.closeLoop (s : State) (n : Nat) : State :=
  let s := s.flag (LP n) R.LP_HDAC_ENG false
  (s.armBoost n)

/-! ## Restart of a group (R134, R135, R199 to R206) -/

/-- The period count of R198. -/
def OutSet.period (o : OutSet) : Nat := (odivOf o.odiv * 2 ^ 32 + o.frac) * 2 ^ o.ps

/-- The delay count of R198, reduced modulo the period. -/
def OutSet.delay (o : OutSet) : Nat := ((o.coarse * 256 + o.fine) * 2 ^ 24) % o.period

/-- The distance of O33 edge n from an edge of the source, in units of T_VCO / 2^32: d_a − d_s + n × p_a on the grid of the anchor
(R203), or counted on the grid of a CONTINUOUS swing (R205). -/
def State.phaseDist (s : State) (g n : Nat) : Int :=
  let a := s.outSet g 33
  match (s.grp g).cont with
  | none => (a.delay : Int) - (s.outSet g (s.grp g).pwSrc).delay + n * a.period
  | some c => (c.da : Int) - c.ds + ((n : Int) - c.n0) * a.period

/-- The phase word of O33 edge n (R203). -/
def State.phaseWord (s : State) (g n : Nat) : Nat :=
  let p := (s.outSet g (s.grp g).pwSrc).period
  ((s.phaseDist g n % p).toNat * 2 ^ 32 / p + (s.grp g).pwOfs) % 2 ^ 32

/-- The written PW_CFG.SRC names one of outputs 0 to 32 (R213). -/
def State.pwLegal (s : State) (g : Nat) : Bool := decide (s.rd (OUT g) R.OUT_PW_CFG_SRC ≤ 32)

/-- The grid on which a CONTINUOUS swing at this instant leaves O33 and the source: each goes on from the edge that the old grid
gives next, realised to within one fine step of the new leaf (R145, R205). `u` and `v`: VCO cycles per reference cycle of the old
and the new leaf. After a small step the instants depend on its history, and the grid is a free value. -/
def State.contGrid (s : State) (g : Nat) (half : Bool) (u v : Nat × Nat) : Cont :=
  let x := s.grp g
  let a := s.outSet g 33
  let o := s.outSet g x.pwSrc
  let tag := s.freeCtr
  let c := x.cont.getD { epoch := x.anchor, half := x.anchorHalf, da := a.delay, ds := o.delay }
  let halves := 2 * ((s.epoch + 2 ^ 48 - c.epoch) % 2 ^ 48) + b2n half - b2n c.half
  let den := 2 * u.2
  let now := halves * u.1 * 2 ^ 32
  let edges (d p : Nat) : Nat := (now + p * den - d * den - 1) / (p * den)
  let left (d p : Nat) : Nat := (d + edges d p * p) * den - now
  let fine (t k : Nat) : Nat := (t * v.1 * u.2 / (v.2 * u.1 * den) / 2 ^ 24 + (Config.contFine tag k).val) * 2 ^ 24
  if x.moved then
    { epoch := s.epoch, half := half, da := Config.contGrid tag 0 % a.period, ds := Config.contGrid tag 1 % o.period,
      n0 := Config.contGrid tag 2 }
  else
    { epoch := s.epoch, half := half, da := fine (left c.da a.period) 0, ds := fine (left c.ds o.period) 1,
      n0 := c.n0 + edges c.da a.period }

/-- The channel whose settings O32 carries: the one the spare set serves or shadows (R120). -/
def State.spareServes (s : State) (g : Nat) : Option Nat :=
  if s.is (FLT + 4 * g) R.FLT_SPMAP_SERVES && !s.is (FLT + 4 * g) R.FLT_SPMAP_SPRET then some (s.rd (FLT + 4 * g) R.FLT_SPMAP_CH)
  else (s.chan (512 + g)).serves

/-- EN as output o of group g follows it: PW_CFG.EN for O34 while its source is legal (R202, R213), that of the channel that the
spare serves for O32 (R120), else the output's own. -/
def State.outEn (s : State) (g o : Nat) : Bool :=
  if o = 34 then (if s.pwLegal g then s.is (OUT g) R.OUT_PW_CFG_EN else (s.grp g).pwEn)
  else if o = 32 then match s.spareServes g with
    | some k => (s.outSet g k).live
    | none => s.is (OP g 32) R.OP_OCFG_EN
  else s.is (OP g o) R.OP_OCFG_EN

/-- The settings that output o of group g is due to take at a restart (R120, R122, R202): O32 those that the channel which the
spare serves then has in force. -/
def State.outDue (s : State) (g o : Nat) : OutSet :=
  if o = 34 then
    let v := s.fvco (s.actLeaf g)
    { odiv := if v.2 = 0 then 0 else (v.1 + v.2 * 625000000 - 1) / (v.2 * 625000000) }
  else if o = 32 then
    match s.spareServes g with
    | some k => if (s.outWritten g k).legal then s.outWritten g k else s.outSet g k
    | none => s.outWritten g 32
  else s.outWritten g o

/-- The written settings of output o are applied if legal; otherwise those in force stay and EV(12g + 5) is raised
(R122, R126). The continuation offset is cleared (R135). -/
def State.applyOut (s : State) (g o : Nat) : State :=
  let w := s.outDue g o
  let s := s.flag (OP g o) R.OP_OSTAT_CARRY false
  if w.legal then
    let en := s.outEn g o
    s.modOut g o fun x => { w with live := if o = 32 ∨ o = 34 then en else x.live, on := x.on }
  else s.graise g 5 o

/-- N_0 and J_0 of R199, saturating, and PW_STAT.FIT (R200). -/
def State.coherence (s : State) (g : Nat) : State :=
  let ps := (s.outSet g (s.grp g).pwSrc).period
  let pa := (s.outSet g 33).period
  let c := Nat.gcd ps pa
  let n0 := if c = 0 then 0 else ps / c
  let j0 := if c = 0 then 0 else pa / c
  let s := s.wr (OUT g) R.OUT_COH_N0 (satTo 0xFFFFFFFF n0)
  let s := s.wr (OUT g) R.OUT_COH_J0 (satTo 0xFFFFFFFF j0)
  s.flag (OUT g) R.OUT_PW_STAT_FIT (decide (n0 ≤ 4194304))

/-- VCO cycles of the active leaf of group g in one reference cycle, as (numerator, denominator). -/
def State.vcoPerRef (s : State) (g : Nat) : Nat × Nat :=
  let l := s.leaf (s.actLeaf g)
  (dOf l.dbl * (l.ratio.n * l.ratio.den + l.ratio.num), l.refdiv * l.ratio.den)

/-- What the sample instants and the phase words depend on (R203): enable, offset, and the periods and delays of the source and
of O33. -/
def State.streamKey (s : State) (g : Nat) : List Nat :=
  let x := s.grp g
  let o := s.outSet g x.pwSrc
  let a := s.outSet g 33
  [b2n x.pwEn, x.pwOfs, o.period, o.delay, a.period, a.delay]

/-- The interval from the anchor in force to an anchor now is a whole number of periods of the source and of O33, counted at
`vpr` VCO cycles per reference cycle: a restart now would move no sample instant and no word (R136, R205). -/
def State.gridKept (s : State) (g : Nat) (half : Bool) (vpr : Nat × Nat) : Bool :=
  let x := s.grp g
  let halves : Int := (2 * ((s.epoch + 2 ^ 48 - x.anchor) % 2 ^ 48) : Nat) + (b2n half : Nat) - (b2n x.anchorHalf : Nat)
  let num : Int := halves * (vpr.1 * 2 ^ 32 : Nat)
  let den : Int := (2 * vpr.2 : Nat)
  let u := num / den
  x.anchored && decide (0 < den) && decide (num % den = 0) && decide (u % ((s.outSet g x.pwSrc).period : Nat) = 0)
    && decide (u % ((s.outSet g 33).period : Nat) = 0)

/-- The phase-word stream restarts at n = 0 and takes the settings pending, unless the written source is illegal
(R205, R213). O34 follows PW_CFG.EN. -/
def State.restartStream (s : State) (g : Nat) : State :=
  if !s.variant.coh then s
  else
    let b := OUT g
    let legalSrc := s.pwLegal g
    let s := s.flag b R.OUT_PW_STAT_ILLEG (!legalSrc)
    let s := s.modGrp g fun x =>
      { x with pwSrc := if legalSrc then s.rd b R.OUT_PW_CFG_SRC else x.pwSrc,
               pwEn := if legalSrc then s.is b R.OUT_PW_CFG_EN else x.pwEn,
               pwOfs := if legalSrc then s.rd b R.OUT_PW_OFS else x.pwOfs }
    let s := s.modOut g 34 fun x => { x with live := (s.grp g).pwEn }
    s.coherence g

/-- The stream delivers the point frequency word of the settings now in force (R206). -/
def State.deliverPfw (s : State) (g : Nat) : State :=
  let l := s.leaf (s.actLeaf g)
  s.gate (s.grp g).pwEn fun s => s.modGrp g fun x => { x with pfw := s.pointFreq g (l.target.getD l.ratio) }

/-- RST is due on the next word of the group's stream (R207). -/
def State.rstDue (s : State) (g : Nat) : State := s.modGrp g fun x => { x with rstGen := x.rstGen + 1, rstWord := x.pwEn }

/-- A phase word of group g is delivered; PWRST counts one that carries RST (R207, R213). -/
def State.wordOut (s : State) (g : Nat) : State :=
  s.gate (s.wordsRun g && (s.grp g).rstWord) fun s => (s.modGrp g fun x => { x with rstWord := false }).inc (OUT g) R.OUT_PWRST

/-- A phase measurement in progress is interrupted by a restart or a swing (R139). -/
def State.interruptPm (s : State) (g : Nat) : State :=
  let a := OUT g + R.OUT_PM_CTRL_GO.off
  let x := s.box a
  if x.busy ∧ x.op = 0 ∧ x.result = 0 then s.setBox a { x with result := 3 } else s

/-- The written trims of `[lo, lo + n)` are in force: a unit takes its trims whenever it is switched on (R30), and
a group its output and leaf trims at a restart (R319). -/
def State.trimsOn (s : State) (lo n : Nat) : State :=
  let put (t : Tab Word) (e : Nat × Word) : Tab Word :=
    match rowOf e.1 with
    | some r => if r.slot = 0 then t else Tab.set (resetWord s.variant e.1) t e.1 e.2
    | none => t
  let l := s.regs.filter fun e => decide (lo ≤ e.1) && decide (e.1 < lo + n)
  { s with trims := l.foldl put (s.trims.clearRange lo n) }

/-- The trims of leaf n are in force. -/
def State.leafTrims (s : State) (n : Nat) : State := s.trimsOn (CAL + 0x400 + 8 * n) 8

/-- A restart (R135): the serving leaves' modulators, the outputs' pending settings, the phase-word stream, the anchor and
its kind. `vpr` counts VCO cycles per reference cycle before the restart; RST is due unless the restart leaves every sample
and word where it was, and always after a swing (R205, R212). -/
def State.restart (s : State) (g kind : Nat) (half : Bool) (vpr : Nat × Nat) : State :=
  let key := s.streamKey g
  let kept := s.gridKept g half vpr && kind != 3
  let s := forAll [2 * g, 2 * g + 1] (fun n s => s.gate (s.serving n || s.lst n == L_ACQUIRE) (·.restartMod n)) s
  let s := iter 36 (fun o s => s.gate (s.outSet g o).on (·.applyOut g o)) s
  let s := ((s.trimsOn (OUT g + 0x600) 0x90).leafTrims (2 * g)).leafTrims (2 * g + 1)
  let s := s.gate (decide (kind = 1 ∨ kind = 4)) fun s =>
    (s.modLeaf (2 * g) fun l => { l with pfdPhase := 0 }).modLeaf (2 * g + 1) fun l => { l with pfdPhase := 0 }
  let s := s.restartStream g
  let s := s.gate (!(kept && decide (s.streamKey g = key))) (·.rstDue g)
  let s := s.modGrp g fun x => { x with anchored := true, anchor := s.epoch, anchorHalf := half, cont := none, moved := false }
  let s := s.wr (GS g) R.GS_SWSTAT_ANKIND kind
  let s := s.gate (kind == 1 || kind == 2 || kind == 5) (·.deliverPfw g)
  let s := s.interruptPm g
  s.evalOuts g

/-- The group has a leaf that serves. -/
def State.anyServing (s : State) (g : Nat) : Bool := s.serving (2 * g) || s.serving (2 * g + 1)

/-- The first PFD edge of a lock from OFF of the group's first serving leaf gives the group its anchor, kind 1 (R134). DESIGN
CHOICE (assumption 84): with D = 2 the rule lets that edge fall on either half of a reference cycle; the model takes the rising
half. -/
def State.firstPfd (s : State) (n : Nat) : State :=
  let m := n ^^^ 1
  if n < 32 ∧ (s.leaf n).kind = .fromOff ∧ s.anyServing (n / 2) = false ∧ ¬ (s.lst m = L_ACQUIRE ∧ (s.leaf m).kind = .fromOff) then
    s.restart (n / 2) 1 false (s.vcoPerRef (n / 2))
  else s

/-! ## Locks (R98) -/

/-- The loss of the reference is not declared and it is qualified: a leaf may lock. -/
def State.refGood (s : State) (n : Nat) : Bool := s.is (LP n) R.LP_LSTATE_REFOK

/-- Lock from OFF of leaf n to ratio r, with waypoint index and fields when one is applied (R98). Illegal settings are
refused: the leaf stays OFF. Without a qualified reference the request waits. -/
def State.lockFromOff (s : State) (n : Nat) (r : Ratio) (w : Option (Nat × Wp)) : State :=
  if s.lst n ≠ L_OFF ∨ ¬ (s.leaf n).on ∨ ¬ s.legalFor n r (w.map (·.2)) then s
  else
    let s := s.modLeaf n fun l => { l with staged := if w.isNone then some r else l.staged, waypoint := w.map (·.1) }
    if !s.refGood n then s.flag (LP n) R.LP_LSTATE_WAITREF true
    else
      let s := s.flag (LP n) R.LP_LSTATE_WAITREF false
      let s := s.takeSettings n r (w.map (·.2))
      let s := s.modLeaf n fun l => { l with kind := .fromOff, missed := false, distrust := false, joined := false }
      let s := s.restartMod n
      let s := match w with
        | some (i, _) =>
          let u := s.cacheUse (n / 2) n i (s.fvco n)
          let s := s.modLeaf n fun l => { l with tagT := s.groupTempC (n / 2) }
          let s := s.gate (u = CacheUse.distrust) (·.distrusted n)
          if u = CacheUse.use ∧ n < 32 then (s.startCached (n / 2) n i) else s.startSearch n (s.coreFor n)
        | none => s.startSearch n (s.coreFor n)
      s.evalSpurs n

/-- A leaf that waited for the reference asks again (R98). -/
def State.retryLock (s : State) (n : Nat) : State :=
  if !s.is (LP n) R.LP_LSTATE_WAITREF then s
  else
    let l := s.leaf n
    match l.waypoint with
    | some i =>
      let w := (s.grp (n / 2)).wp i
      s.lockFromOff n ((s.grp (n / 2)).wpRatio w) (some (i, w))
    | none => match l.staged with
      | some r => s.lockFromOff n r none
      | none => s

/-- The in-place hop of one leaf at P0 (R83): settings and ratio loaded, modulator restarted, the band cached or searched. A
leaf that is OFF locks from OFF instead (R97); one that is in no state from which R98 lets it hop no longer holds the grid, and
joins when it reports LOCKED (R146). -/
def State.hopLeaf (s : State) (g n : Nat) (r : Ratio) (w : Option (Nat × Wp)) : State :=
  if s.lst n = L_OFF then s.lockFromOff n r w
  else if s.lst n ≠ L_LOCKED then s.modLeaf n fun l => { l with joined := false, joining := false }
  else
    let s := s.abandonStep n
    let s := s.modLeaf n fun l =>
      { l with oldBand := s.rd (LP n) R.LP_LSTAT_BAND, kind := .hop, missed := false,
               distrust := false, waypoint := w.map (·.1), joined := l.joined && !s.pingPong g,
               joining := false, tagT := s.groupTempC g }
    let s := s.takeSettings n r (w.map (·.2))
    let s := s.restartMod n
    let s := match w with
      | some (i, _) => match s.cacheUse g n i (s.fvco n) with
        | .use => s.startCached g n i
        | .noEntry => s.startSearch n (s.coreFor n)
        | .distrust => (s.distrusted n).startSearch n (s.coreFor n)
      | none => s.startSearch n (s.coreFor n)
    s.evalSpurs n

/-- The idle leaf of group g starts to join the active leaf (R146): it hops in place, or locks from OFF, to the settings that the
active leaf has in force, its band searched, and joins when it reports LOCKED. -/
def State.joinStart (s : State) (g : Nat) : State :=
  let m := s.actLeaf g
  let n := s.idleLeaf g
  let off := s.lst n == L_OFF
  let ready := s.lst m == L_LOCKED || (!s.pingPong g && (s.lst m == L_SEARCH || s.lst m == L_ACQUIRE))
  if !ready || !(off || s.lst n == L_LOCKED) || (s.leaf n).joined || !(s.leaf n).on then s
  else if off && !s.refGood n then
    (s.modLeaf n fun l => { l with staged := some ((s.leaf m).target.getD (s.leaf m).ratio), waypoint := none }).flag (LP n) R.LP_LSTATE_WAITREF true
  else
    let s := (s.abandonStep n).flag (LP n) R.LP_LSTATE_WAITREF false
    let s := s.modLeaf n fun l =>
      { l with oldBand := s.rd (LP n) R.LP_LSTAT_BAND, kind := if off then .fromOff else .hop, missed := false,
               distrust := false, waypoint := none, joined := false, joining := true, tagT := s.groupTempC g }
    let s := (s.copySettings n m).restartMod n
    (s.startSearch n (s.coreFor n)).evalSpurs n

/-- On a common PFD edge the joining leaf copies the active leaf's modulator and holds its grid (R146): the two leaves have
joined, whichever of them drives the tree later. -/
def State.joinDone (s : State) (g : Nat) : State :=
  let a := s.leaf (s.actLeaf g)
  let s := s.modLeaf (s.actLeaf g) fun l => { l with joined := true }
  s.modLeaf (s.idleLeaf g) fun l =>
    { l with joining := false, joined := true, acc1 := a.acc1, acc2 := a.acc2, acc3 := a.acc3, car2 := a.car2, car3 := a.car3,
             car3p := a.car3p, lfsr := a.lfsr, ymod := a.ymod, pfdPhase := a.pfdPhase }

/-- The cache entry of a leaf's waypoint is written after a searched lock with CAP = 1 (R72): band, preset rounded to
0.5 mV, tag, and the code under ICP_AUTO. -/
def State.capture (s : State) (n : Nat) : State :=
  let l := s.leaf n
  let g := n / 2
  match l.waypoint with
  | none => s
  | some i =>
    let w := (s.grp g).wp i
    if !(l.searched && w.cap) || decide (32 ≤ n) then s
    else
      let band := s.rd (LP n) R.LP_LSTAT_BAND
      let tpre := ((s.rd (LP n) R.LP_TMON + 10) / 20) % 4096
      let tag := ofSigned 8 l.tagT
      let icp := s.rd (LP n) R.LP_LSTAT_ICP_USED
      let s := s.modGrp g fun x =>
        if n % 2 = 0 then
          let ws := x.wpWords i
          let w1 := putBits (ws.getD 1 0) 20 7 band
          let w2 := putBits (putBits (ws.getD 2 0) 0 12 tpre) 17 8 tag
          let w2 := if l.icpAuto then putBits w2 12 5 icp else w2
          x.setWp i [ws.getD 0 0, w1, w2, ws.getD 3 0]
        else
          let c := putBits (putBits (putBits (x.cbWord i) 0 7 band) 7 12 tpre) 24 8 tag
          x.setCb i (if l.icpAuto then putBits c 19 5 icp else c)
      s.wr (GS g) R.GS_RSTAT_CLEARED 0

/-! ## Holdover (R101 to R105) -/

/-- HOLDSTAT.REALIGNING: a return slew or a CLROFS slew of group g runs (R109, R110). -/
def State.realigning (s : State) (g : Nat) : State :=
  s.flag (GS g) R.GS_HOLDSTAT_REALIGNING
    ((s.leaf (2 * g)).slewing || (s.leaf (2 * g + 1)).slewing || (s.grp g).clrSlew)

/-- The holdover entry of leaf n with cause and holdover value (R101). The leaf driving the tree, or a leaf under
PING-PONG, coasts on its DAC; the other leaf of a GUARDED group follows (R104). -/
def State.holdEntry (s : State) (n cause value : Nat) (quiet : Bool) : State :=
  let s := s.abandonStep n
  let s := s.wr (LP n) R.LP_LSTATE_CAUSE cause
  let s := s.setLst n L_HOLDOVER
  let act := if n < 32 then s.actLeaf (n / 2) = n else s.rd SYS R.SYS_SYSSTAT_ACT = n - 32
  let s := s.wr (LP n) R.LP_HDAC_DACV value
  let s := s.flag (LP n) R.LP_HDAC_ENG (decide act)
  let s := s.flag (LP n) R.LP_LSTATE_FOLLOW (decide ¬act)
  let s := s.flag (LP n) R.LP_LSTATE_HOLDQ (quiet && decide (s.ref.firstCause = 1))
  let s := s.wr (LP n) R.LP_HOLDT 0
  let s := s.modLeaf n fun l => { l with heldV := value, slewing := false, holdTicks := 0 }
  let s := s.gate (decide (n < 32)) (·.realigning (n / 2))
  (s.inc (LP n) R.LP_HOLDCNT).recCount 1

/-- Leaf n meets a declared loss in its present state (R98, R101, R105). `mean` is the tuning mean of R101, of a leaf in SEARCH
the one it had when its hop began. The idle leaf under PING-PONG goes OFF and its pre-lock is abandoned. -/
def State.lossAt (s : State) (n cause mean : Nat) (quiet : Bool) : State :=
  let st := s.lst n
  let l := s.leaf n
  let s := s.flag (LP n) R.LP_LSTATE_REFOK false
  let idlePP := decide (n < 32) && s.pingPong (n / 2) && s.idleLeaf (n / 2) == n
  if idlePP ∧ st ≠ L_FAULT then
    ((s.leafOff n).modGrp (n / 2) fun x => { x with prelock := none }).flag (GS (n / 2)) R.GS_SWSTAT_PRELOCK false
  else if st = L_OFF ∨ st = L_FAULT ∨ st = L_HOLDOVER then s
  else if st = L_LOCKED then (s.wr (LP n) R.LP_TAVG mean).holdEntry n cause mean quiet
  else if st = L_RELOCK then s.holdEntry n cause l.heldV false
  else if l.kind = .fromOff then (s.leafOff n).flag (LP n) R.LP_LSTATE_WAITREF true |>.modLeaf n fun x =>
    { x with waypoint := l.waypoint }
  else if st = L_SEARCH then
    ((s.wr (LP n) R.LP_LSTAT_BAND l.oldBand).modLeaf n fun x => { x with searched := false }).holdEntry n cause mean false
  else s.holdEntry n cause (if l.searched then l.predV else s.rd (LP n) R.LP_HDAC_DACV) false

end Sys2Proof.Machine
end

