-- ==== Sys2Proof/Machine/Requests.lean ====
section
/-! DEFINITION. Machine/Requests.lean: what every request register and mailbox shares (R275, R285, R289, R443): who can reach
a register, whether its unit is present and powered, and how a write that sets GO is taken. -/

namespace Sys2Proof.Machine

/-- The agent can make a register access: the host needs the HOST domain and an up link, the board controller needs AON and
a BOOT past B3 (R35). -/
def State.access (s : State) (src : Src) : Bool :=
  match src with
  | .pcie => s.power.host && s.is HIF R.HIF_LINK_UP
  | .keyway => s.power.aon && (s.mode != MODE_BOOT || decide (4 ≤ s.power.bootPhase))

/-- An instruction of the EXTEST group is in force (R394). -/
def State.extest (s : State) : Bool := [0, 3, 4, 5, 6].contains s.tap.ir

/-- The block at an address is of a unit that the variant has (R4, R13). -/
def State.present (s : State) (a : Nat) : Bool :=
  match blkAt a with
  | some (.gs g) | some (.out g) | some (.rt g) => s.hasGroup g
  | some (.ch c) => s.hasChan c
  | some (.eng e) => s.hasEng e
  | some _ => true
  | none => false

/-- The unit of a block is switched on, or answers while it is off: channel registers keep their values, and the route and
pattern mailboxes answer BUSY (R289, R418). -/
def State.blockOn (s : State) (a : Nat) : Bool :=
  s.present a &&
  match blkAt a with
  | some (.gs g) => (s.grp g).on || decide (a % 0x1000 = R.GS_PMB_CTRL_GO.off)
  | some (.rt g) => (s.grp g).on || decide (a % 0x40 = R.RT_CTRL_GO.off)
  | some (.out g) => (s.grp g).on
  | some (.eng e) => (s.eng e).on
  | _ => true

/-- A write taken by the register at `a` counts as a configuration write when it has read-write fields (R279). -/
def State.counted (s : State) (a : Nat) (src : Src) : State :=
  s.gate (match rowOf a with | some r => r.rw != 0 | none => false) (·.cfgWrite a src)

/-- A write that sets the GO field `go` of the register page at `b`, its other fields `fs` written with it (R275): discarded
and counted while GO reads 1, otherwise the fields and GO are set and the request is taken by `f`. Where the unit is absent
or off the write is discarded without a count (R4, R289). `via`: the page through which the register was written, which
LASTREF shows. -/
def State.goReq (s : State) (src : Src) (b : Nat) (go : Fld) (fs : List (Fld × Nat)) (f : State → State) (via : Nat := b) : State :=
  if !(s.access src && s.blockOn (b + go.off)) then s
  else if s.is b go then s.refuse (via + go.off) RC_GOPEND src
  else
    let s := forAll fs (fun p s => s.wr b p.1 p.2) s
    f ((s.wr b go 1).counted (b + go.off) src)

/-- The outcome of a mailbox operation is held until its completion: RESULT, Q words, and an auxiliary number. -/
def State.hold (s : State) (b : Nat) (go : Fld) (op result : Nat) (q : List Word) (aux : Nat := 0) : State :=
  s.setBox (b + go.off) { busy := true, result := result, q := q, op := op, aux := aux }

/-- A write to a field whose Reset column reads Image counts as configuring the module (R28). -/
def State.configured (s : State) : State := s.modPower fun p => { p with cfgWritten := true }

/-- A write of the plain read-write fields of the register at `a` (R272): the fields take the written bits, the write is
counted, and a write to an Image field counts as a configuration (R28). -/
def State.plainWrite (s : State) (src : Src) (a : Nat) (v : Word) : State :=
  match rowOf a with
  | some r =>
    let m := BitVec.ofNat 32 r.rw
    let s := s.setWord a ((s.word a &&& ~~~ m) ||| (v &&& m))
    (s.cfgWrite a src).gate (r.img != 0) (·.configured)
  | none => s

end Sys2Proof.Machine
end

