-- ==== Sys2Proof/Machine/Synth.lean ====
section
/-! DEFINITION. Machine/Synth.lean: the commands of chapter 03: SYS.REF_HZ, the ratio mailbox, small steps, the fast-lock boost
and, from chapter 04, the band search and the cached hop. -/

namespace Sys2Proof.Machine

/-! ## SYS settings (R45, R60) -/

/-- The ratio that R60 derives from a declared reference, in lowest terms. -/
def sysRatio (hz : Nat) : Ratio :=
  let d := if hz ≤ 125000000 then 2 else 1
  let refdiv := (hz * d + 249999999) / 250000000
  ratioOfVal (10000000000 * refdiv) (hz * d)

/-- The derived settings are written to both SYS leaf pages and staged for both leaves; the value of SYS.REF_HZ is in force
(R45, R60). -/
def State.deriveSys (s : State) : State :=
  let hz := s.refHz
  let d := if hz ≤ 125000000 then 2 else 1
  let refdiv := (hz * d + 249999999) / 250000000
  let r := sysRatio hz
  let s := s.modRef fun m => { m with inForce := hz }
  forAll [32, 33] (fun n s =>
    let p := LP n
    let s := s.setWord (p + R.LP_LCFG_REFDIV.off) 0
    let s := s.wr p R.LP_LCFG_REFDIV refdiv
    let s := s.wr p R.LP_LCFG_DBL (d - 1)
    let s := s.wr p R.LP_LCFG_CPLIN (if r.fmt = 2 then 1 else 0)
    let s := s.wr p R.LP_LCFG_FLB_EN 1
    let s := s.wr p R.LP_LCFG_ICP_AUTO 1
    let s := s.wr p R.LP_LCFG_LBW 9
    let s := s.wr p R.LP_LBOOST 0
    let s := s.wr p R.LP_SEED 1
    s.modLeaf n fun l => { l with staged := some r }) s

/-- A SYS leaf can serve: it is neither retired nor in FAULT. -/
def State.sysAble (s : State) (n : Nat) : Bool :=
  s.lst n != L_FAULT && !bitOf (s.rd FLT R.FLT_SYSRET) (n - 32)

/-- The idle SYS leaf. -/
def State.sysIdle (s : State) : Nat := 33 - s.rd SYS R.SYS_SYSSTAT_ACT

/-- The SYS leaf that drives the clock tree. -/
def State.sysAct (s : State) : Nat := 32 + s.rd SYS R.SYS_SYSSTAT_ACT

/-- SYS.REF_HZ: a bolted write, accepted only in STANDBY or SAFE with a legal value. In STANDBY a changed value re-derives the
SYS settings and begins the return of R115; with one SYS leaf only, that leaf is stranded (R45). -/
def State.refHzWrite (s : State) (src : Src) (v : Word) : State :=
  let a := SYS + R.SYS_REF_HZ.off
  if !s.access src then s
  else if v.toNat = s.refHz then
    s.gate (s.mode == MODE_STANDBY || s.mode == MODE_SAFE) fun s => (s.cfgWrite a src).configured
  else if !((s.mode = MODE_STANDBY || s.mode = MODE_SAFE) && decide (10000000 ≤ v.toNat) && decide (v.toNat ≤ 500000000)) then
    s.refuse a RC_BOLT src
  else
    let s := ((s.setWord a v).cfgWrite a src).configured
    if s.mode ≠ MODE_STANDBY then s
    else
      let s := s.deriveSys
      let s := s.modRef fun m => { m with qualified := false, good := 0, newHz := true }
      let s := forAll [32, 33] (fun n s => s.flag (LP n) R.LP_LSTATE_REFOK false) s
      if s.sysAble s.sysIdle then s.flag SYS R.SYS_SYSSTAT_RETURN true
      else
        let s := s.gate (s.lst s.sysAct == L_LOCKED) fun s => s.holdEntry s.sysAct 2 (s.rd (LP s.sysAct) R.LP_TMON * 256) false
        s.flag SYS R.SYS_SYSSTAT_STRAND true

/-- SYS_REF_HZ_WRITE (R45). -/
def execSysRefHzWrite (src : Src) (v : Word) (s : State) : Host.Outcome State Fault Refusal :=
  run s fun s => s.refHzWrite src v

/-! ## Ratio mailbox (R58, R59, R61) -/

/-- The ratio that page n shows as in force: the instantaneous one while a small step is slewing. -/
def State.rmbInForce (s : State) (n : Nat) (inst : List Word) : List Word :=
  if s.is (LP n) R.LP_LSTAT_SLEWING then inst else ratioWords (s.leaf n).ratio

/-- A step from the value `now` to the value `target` changes the frequency by at most 2,000 ppm (R61). -/
def stepInRange (now target : Nat × Nat) : Bool :=
  let d := qdist target now
  qle (d.1 * 500, d.2) now

/-- The predicted tuning voltage of a step lies in 0.30 V to 1.50 V (R61): present sample `vt` in 25 µV, gain in 0.1 MHz/V,
so a change of Δf hertz moves the node by 2 Δf / (5 KVCO) of an LSB. -/
def stepInWindow (vt kvco : Nat) (now target : Nat × Nat) : Bool :=
  let den : Int := (now.2 * target.2 : Nat)
  let df : Int := (target.1 * now.2 : Nat) - (now.1 * target.2 : Nat)
  let v : Int := (5 * kvco * vt : Nat) * den + 2 * df
  decide ((5 * kvco * 12000 : Nat) * den ≤ v) && decide (v ≤ (5 * kvco * 60000 : Nat) * den)

/-- The leaves of a step that must be LOCKED: both under GUARDED, or the active leaf alone when its twin is in FAULT. -/
def State.stepLeaves (s : State) (n : Nat) : List Nat := (s.rmbLeaves n).filter fun m => s.lst m != L_FAULT

/-- The leaf whose frequency, settings and tuning a STEP on page n is judged by (R61): the page's own, or the active leaf that
alone steps when that one is in FAULT. DESIGN CHOICE (assumption 85): with both leaves LOCKED under GUARDED, R61 does not say
whose tuning voltage and KVCO decide BAND. -/
def State.stepLeaf (s : State) (n : Nat) : Nat := if s.lst n = L_FAULT then ((s.stepLeaves n).head?).getD n else n

/-- The RESULT of a STEP (R59, in the order of R443), judged against the instantaneous ratio. -/
def State.stepResult (s : State) (n vt : Nat) (target : Ratio) : Nat :=
  let n := s.stepLeaf n
  let l := s.leaf n
  let now := s.instVal n
  let code := s.rd (LP (s.pageLeaf n)) R.LP_SLEW
  firstOf
    [ (!(legal s.refHz l.dbl l.refdiv l.lbw target && decide (code ≤ 40)), 1),
      (decide (32 ≤ n) || s.phaseHeld (n / 2), 6),
      (s.cmdOn (n / 2) || (s.stepLeaves n).isEmpty || !(s.stepLeaves n).all (fun m => s.lst m == L_LOCKED), 4),
      (!stepInRange now target.val, 2),
      (!stepInWindow vt (s.rd (LP n) R.LP_KVCO) (fvcoAt s.ref.inForce l.dbl l.refdiv now)
        (fvcoOf s.ref.inForce l.dbl l.refdiv target), 3) ]

/-- An accepted step begins on leaf n at its instantaneous ratio (R62, R63, R138): the slew runs, the lock window is widened,
the spur rules are evaluated for the target, and the group is unanchored. -/
def State.beginStep (s : State) (n : Nat) (target : Ratio) : State :=
  let code := s.rd (LP (s.pageLeaf n)) R.LP_SLEW
  let tag := s.freeCtr
  let now := s.instVal n
  let s := s.modLeaf n fun l =>
    { l with stepBase := if l.target.isSome then l.stepBase else l.ratio, slewFrom := now, slewCyc := 0, slewTag := tag, slewCode := code, target := some target, widened := true }
  let s := s.flag (LP n) R.LP_LSTAT_SLEWING true
  let s := s.flag (LP n) R.LP_LSTAT_SLEWCLAMP (rateAbove code (slewLimit (s.leaf n).lbw))
  (s.evalSpurs n).modGrp (n / 2) fun x => { x with anchored := false, moved := true }

/-- The mailbox copies its operands and clears VALID (R58). -/
def State.rmbTake (s : State) (src : Src) (n op : Nat) (f : State → State) : State :=
  s.goReq src (LP n) R.LP_RMB_CTRL_GO [(R.LP_RMB_CTRL_OP, op)] fun s => f (s.wr (LP n) R.LP_RMB_CTRL_VALID 0)

/-- The ratio in the operand registers of page n. -/
def State.rmbOperand (s : State) (n : Nat) : Ratio :=
  ratioOfWords (s.word (LP n + R.LP_RMB_D0.off)) (s.word (LP n + R.LP_RMB_D1.off)) (s.word (LP n + R.LP_RMB_D2.off))

/-- READ: the ratio in force goes to Q0 to Q2 at completion. -/
def State.rmbRead (s : State) (src : Src) (n : Nat) (inst : List Word) : State :=
  s.rmbTake src n 0 fun s => s.hold (LP n) R.LP_RMB_CTRL_GO 0 0 (s.rmbInForce n inst)

/-- STAGE: the operand is checked against R44 and held as the staged ratio. A SYS page and a group under a granted PHASE_HOLD
refuse it (R90, R265). -/
def State.rmbStage (s : State) (src : Src) (n : Nat) (inst : List Word) : State :=
  s.rmbTake src n 1 fun s =>
    let r := s.rmbOperand n
    let res := firstOf [(!s.legalFor n r none, 1), (decide (32 ≤ n) || s.phaseHeld (n / 2), 6), (s.cmdOn (n / 2), 4)]
    let s := s.gate (res == 0) fun s =>
      forAll (s.rmbLeaves n) (fun m s => s.modLeaf m fun l => { l with staged := some r }) s
    s.hold (LP n) R.LP_RMB_CTRL_GO 1 res (if res = 0 then ratioWords r else s.rmbInForce n inst)

/-- STEP: the step is accepted and begins, or is refused (R61). `vt` is the present tuning sample. -/
def State.rmbStep (s : State) (src : Src) (n : Nat) (inst : List Word) (vt : Nat) : State :=
  s.rmbTake src n 2 fun s =>
    let s := s.wr (LP (s.stepLeaf n)) R.LP_TMON vt
    let r := s.rmbOperand n
    let res := s.stepResult n vt r
    let q := if res = 0 then ratioWords r else s.rmbInForce n inst
    let s := s.gate (res == 0) fun s => forAll (s.stepLeaves n) (fun m s => s.beginStep m r) s.tick
    s.hold (LP n) R.LP_RMB_CTRL_GO 2 res q

/-- OP 3 is refused with ILLEGAL (R59). -/
def State.rmbReserved (s : State) (src : Src) (n : Nat) (inst : List Word) : State :=
  s.rmbTake src n 3 fun s => s.hold (LP n) R.LP_RMB_CTRL_GO 3 1 (s.rmbInForce n inst)

/-- The outcome is posted on the page, and on its twin's page under GUARDED for an operation that acts on both (R56, R58). -/
def State.rmbComplete (s : State) (n : Nat) : State :=
  let x := s.box (LP n + R.LP_RMB_CTRL_GO.off)
  if !x.busy then s
  else
    let s := forAll (s.rmbLeaves n) (fun m s =>
      s.gate (m != n) fun s =>
        ((s.wr (LP m) R.LP_RMB_CTRL_RESULT x.result).putQ (LP m) R.LP_RMB_Q0 x.q).wr (LP m) R.LP_RMB_CTRL_VALID 1) s
    s.postBox (LP n) R.LP_RMB_CTRL_RESULT R.LP_RMB_CTRL_GO R.LP_RMB_CTRL_VALID R.LP_RMB_Q0 x

def execRmbRead (src : Src) (n : Fin 34) (q0 q1 q2 : Word) (s : State) : Host.Outcome State Fault Refusal :=
  run s fun s => s.rmbRead src n [q0, q1, q2]
def execRmbStage (src : Src) (n : Fin 34) (q0 q1 q2 : Word) (s : State) : Host.Outcome State Fault Refusal :=
  run s fun s => s.rmbStage src n [q0, q1, q2]
def execRmbStep (src : Src) (n : Fin 34) (q0 q1 q2 : Word) (vt : BitVec 16) (s : State) : Host.Outcome State Fault Refusal :=
  run s fun s => s.rmbStep src n [q0, q1, q2] vt.toNat
def execRmbReservedOp (src : Src) (n : Fin 34) (q0 q1 q2 : Word) (s : State) : Host.Outcome State Fault Refusal :=
  run s fun s => s.rmbReserved src n [q0, q1, q2]
def execRmbComplete (n : Fin 34) (s : State) : Host.Outcome State Fault Refusal := run s fun s => s.rmbComplete n

/-! ## Small steps and boost -/

/-- The target is loaded exactly and SLEWING clears, on every leaf that slews with n (R62). -/
def State.stepEnd (s : State) (n : Nat) : State :=
  if !s.is (LP n) R.LP_LSTAT_SLEWING then s
  else
    let ms := (s.rmbLeaves n).filter fun m => s.is (LP m) R.LP_LSTAT_SLEWING
    let s := forAll ms (fun m s =>
      let s := s.modLeaf m (·.loadTarget)
      let s := s.flag (LP m) R.LP_LSTAT_SLEWING false
      let s := s.flag (LP m) R.LP_LSTAT_SLEWCLAMP false
      let s := s.flag (LP m) R.LP_LSTAT_DITH_ACT ((s.leaf m).dither && decide ((s.leaf m).ratio.fmt = 1))
      s.evalSpurs m) s
    s.evalOuts (n / 2)

/-- SMALL_STEP_END (R62). -/
def execSmallStepEnd (n : Fin 34) (s : State) : Host.Outcome State Fault Refusal := run s fun s => s.stepEnd n

/-- STEP_WINDOW_END (R63): the widened lock window returns to normal. -/
def execStepWindowEnd (n : Fin 34) (s : State) : Host.Outcome State Fault Refusal :=
  run s fun s => s.gate (!s.is (LP n) R.LP_LSTAT_SLEWING) fun s => s.modLeaf n fun l => { l with widened := false }

/-- BOOST_HOLD_END (R48): the hold is over and four removal steps follow. -/
def execBoostHoldEnd (n : Fin 34) (s : State) : Host.Outcome State Fault Refusal :=
  run s fun s => s.gate ((s.leaf n).boostSteps == 5) fun s => s.modLeaf n fun l => { l with boostSteps := 4 }

/-- One removal step; BOOST clears with the last (R48). -/
def State.boostDown (s : State) (n : Nat) : State :=
  let k := (s.leaf n).boostSteps
  if k = 0 ∨ k = 5 then s
  else (s.modLeaf n fun l => { l with boostSteps := k - 1 }).gate (k == 1) (·.flag (LP n) R.LP_LSTAT_BOOST false)

/-- BOOST_STEP_DOWN (R48). -/
def execBoostStepDown (n : Fin 34) (s : State) : Host.Outcome State Fault Refusal := run s fun s => s.boostDown n

/-! ## Band search and cached hop (R69, R71) -/

/-- |f − target| for a frequency in hertz. -/
def freqErr (f : Nat) (t : Nat × Nat) : Nat := if f * t.2 ≤ t.1 then t.1 - f * t.2 else f * t.2 - t.1

/-- The node voltage of search window w, in 25 µV / 256. -/
def windowV (w : Nat) : Nat := if w = 8 then 24000 * 256 else if w = 9 then 48000 * 256 else 36000 * 256

/-- The predicted voltage of R69: 0.90 V + (f_target − f at 0.90 V) / KVCO, in 25 µV / 256. -/
def predictV (f90 f60 f120 : Nat) (t : Nat × Nat) : Nat :=
  let d : Int := (t.1 : Int) - (f90 * t.2 : Nat)
  let k : Int := (f120 : Int) - f60
  (clampInt 0 0xFFFFFF (9216000 + d * 6144000 / (t.2 * k))).toNat

/-- A search moves to window w with capacitor code c. -/
def State.searchWindow (s : State) (n w c : Nat) : State :=
  let s := s.modLeaf n fun l => { l with window := w }
  let s := s.wr (LP n) ⟨R.LP_LSTAT_BAND.off, 0, 6⟩ c
  s.wr (LP n) R.LP_HDAC_DACV (windowV w)

/-- The decision after a counting window whose measured frequency is f hertz (R69). DESIGN CHOICE (assumption 86): where the
search has kept code 63, which has no band above, window 7 measures code 63 again; a tie in window 7 keeps the band of the
binary search. -/
def State.searchDecide (s : State) (n f : Nat) : State :=
  let l := s.leaf n
  let t := s.fvco n
  let c := s.rd (LP n) R.LP_LSTAT_BAND % 64
  let w := l.window
  if s.lst n ≠ L_SEARCH ∨ w = 0 then s
  else if w ≤ 6 then
    let bit := 2 ^ (6 - w)
    let low := decide (f * t.2 ≤ t.1)
    let base := if low then c else c - bit
    let s := s.modLeaf n fun l =>
      if low then { l with kept := true, bestBand := c, f90 := f }
      else if w = 6 ∧ ¬ l.kept then { l with bestBand := c, f90 := f } else l
    if w < 6 then s.searchWindow n (w + 1) (base + bit / 2)
    else
      let x := s.leaf n
      s.searchWindow n 7 (if x.kept then (if x.bestBand = 63 then 63 else x.bestBand + 1) else 0)
  else if w = 7 then
    let take := decide (freqErr f t < freqErr l.f90 t)
    let s := s.modLeaf n fun l => if take then { l with bestBand := c, f90 := f } else l
    s.searchWindow n 8 (s.leaf n).bestBand
  else if w = 8 then
    (s.modLeaf n fun l => { l with f60 := f }).searchWindow n 9 c
  else
    let v := predictV l.f90 l.f60 f t
    let s := s.wr (LP n) R.LP_KVCO (satTo 0xFFFF ((f - l.f60) / 60000))
    let s := s.wr (LP n) R.LP_HDAC_DACV v
    let s := s.modLeaf n fun l => { l with predV := v }
    let s := (s.setLst n L_ACQUIRE).takeDet n
    let s := s.modLeaf n fun l => { l with window := 0 }
    ((s.chooseIcp n).closeLoop n).firstPfd n

/-- BAND_SEARCH_WINDOW_END (R69). `f` is the frequency that the window counted, in hertz. -/
def execBandSearchWindowEnd (n : Fin 34) (f : BitVec 34) (s : State) : Host.Outcome State Fault Refusal :=
  run s fun s => s.searchDecide n f.toNat

/-- The leaf holds a cached preset: in ACQUIRE without a search, the DAC still on the node. -/
def State.cachedHold (s : State) (n : Nat) : Bool :=
  s.lst n == L_ACQUIRE && !(s.leaf n).searched && s.is (LP n) R.LP_HDAC_ENG

/-- CACHED_HOP_DAC_RELEASE (R71). -/
def execCachedHopDacRelease (n : Fin 34) (s : State) : Host.Outcome State Fault Refusal :=
  run s fun s => s.gate (s.cachedHold n) fun s => (s.closeLoop n).firstPfd n

/-- The check at twice the cached settling maximum: a miss counts, is shown, and starts a search (R71, R98). -/
def State.missCheck (s : State) (n : Nat) (reached : Bool) (vt : Nat) : State :=
  if !(s.lst n == L_ACQUIRE && !(s.leaf n).searched) then s
  else
    let s := s.wr (LP n) R.LP_TMON vt
    if reached ∧ 12000 ≤ vt ∧ vt ≤ 60000 then s
    else
      let s := s.modLeaf n fun l => { l with missed := true }
      let s := s.gate (decide (n < 32)) fun s =>
        (s.inc (GS (n / 2)) R.GS_MISSCNT).flag (GS (n / 2)) R.GS_LASTHOP_MISS true
      s.startSearch n (s.coreFor n)

/-- CACHE_MISS_CHECK (R71). `reached`: the leaf is within ±1 ppm; `vt`: the tuning sample. -/
def execCacheMissCheck (n : Fin 34) (reached : Bool) (vt : BitVec 16) (s : State) : Host.Outcome State Fault Refusal :=
  run s fun s => s.missCheck n reached vt.toNat

end Sys2Proof.Machine
end

