-- ==== Sys2Proof/Machine/Route.lean ====
section
/-! DEFINITION. Machine/Route.lean: the commands of chapter 04: the route mailbox, routes and their triggers, single hops, the
hop itself, pre-lock and the route queue. -/

namespace Sys2Proof.Machine

/-! ## Route mailbox (R75 to R77) -/

/-- Route memory cannot be written now: the group is off, or a route runs or hops (R77, R289). -/
def State.rtBusy (s : State) (g : Nat) : Bool :=
  !(s.grp g).on || s.is (GS g) R.GS_RSTAT_RUN || s.is (GS g) R.GS_RSTAT_HOPPING

/-- A mailbox operation that writes ends with result `res`: on OK the group takes `x`, and CLEARED clears. -/
def State.rtStore (s : State) (g res : Nat) (x : Grp → Grp) : State :=
  s.gate (res == 0) fun s => (s.modGrp g x).wr (GS g) R.GS_RSTAT_CLEARED 0

/-- RESULT of a waypoint write, in the order of R443. -/
def State.wrWpResult (s : State) (g : Nat) (w : List Word) : Nat :=
  let c := wpCheck s.refHz (wpOfWords w)
  firstOf [(c == 1, 1), (s.rtBusy g, 3), (c == 2, 2)]

/-- RESULT of a rational-store write: 1 ≤ FNUM < FDEN, and an index of at most 255. -/
def State.wrRatResult (s : State) (g i : Nat) (lo hi : Word) : Nat :=
  firstOf [(!(decide (1 ≤ lo.toNat) && decide (lo.toNat < hi.toNat)), 1), (s.rtBusy g, 3), (decide (255 < i), 4)]

/-- RESULT of a leaf B cache write. -/
def State.wrCbResult (s : State) (g : Nat) (w : Word) : Nat :=
  firstOf [(!cacheOk (getBits w 7 12) (getBits w 24 8), 1), (s.rtBusy g, 3)]

/-- The stored words of rational entry i; an index above 255 has none and reads 0. -/
def State.ratWords (s : State) (g i : Nat) : List Word :=
  if 255 < i then [0, 0] else [(s.grp g).ratWord (2 * i), (s.grp g).ratWord (2 * i + 1)]

/-- The mailbox takes operation `op` (with INC): it copies IDX and D0 to D3, clears VALID, makes the access, and holds the
outcome and the Q words for its completion (R76). -/
def State.rtTake (s : State) (src : Src) (g op : Nat) (inc : Bool) : State :=
  s.goReq src (RT g) R.RT_CTRL_GO [(R.RT_CTRL_OP, op), (R.RT_CTRL_INC, b2n inc)] fun s =>
    let s := s.wr (RT g) R.RT_CTRL_VALID 0
    let i := s.rd (RT g) R.RT_INDEX
    let d (k : Nat) : Word := s.word (RT g + R.RT_D0.off + 4 * k)
    let off := !(s.grp g).on
    let done (s : State) (res : Nat) (q : List Word) : State := s.hold (RT g) R.RT_CTRL_GO op res q (b2n inc)
    if off then done s 3 []
    else if op = 0 then done s 0 ((s.grp g).wpWords i)
    else if op = 1 then
      let w := cleanWp [d 0, d 1, d 2, d 3]
      let res := s.wrWpResult g [d 0, d 1, d 2, d 3]
      let s := s.rtStore g res (·.setWp i w)
      done s res ((s.grp g).wpWords i)
    else if op = 2 then done s (if 255 < i then 4 else 0) (s.ratWords g i)
    else if op = 3 then
      let res := s.wrRatResult g i (d 0) (d 1)
      let s := s.rtStore g res (·.setRat i (d 0) (d 1))
      done s res (s.ratWords g i)
    else if op = 4 then done s 0 [(s.grp g).cbWord i]
    else if op = 5 then
      let res := s.wrCbResult g (d 0)
      let s := s.rtStore g res (·.setCb i (d 0))
      done s res [(s.grp g).cbWord i]
    else if op = 6 then
      let res := firstOf [(s.rtBusy g, 3)]
      let s := s.gate (res == 0) fun s => s.modGrp g fun x => { x with rt := [], cb := [], rat := [] }
      done s res []
    else done s 1 []

/-- Completion (R76, R276): RESULT, Q, GO and VALID in one cycle; a completed CLR sets CLEARED. After an accepted RD or WR
with INC, IDX advances modulo 4,096, unless a software write to INDEX falls in this cycle, which stands and is counted as a
lost update. -/
def State.rtComplete (s : State) (g : Nat) (clash : Option (Src × Word)) : State :=
  let x := s.box (RT g + R.RT_CTRL_GO.off)
  if !x.busy then s
  else
    let adv := decide (x.aux = 1) && decide (x.op ≤ 5) && decide (x.result = 0)
    let s := s.postBox (RT g) R.RT_CTRL_RESULT R.RT_CTRL_GO R.RT_CTRL_VALID R.RT_Q0 x
    let s := s.gate (x.op == 6 && x.result == 0) (·.wr (GS g) R.GS_RSTAT_CLEARED 1)
    match clash with
    | some (src, w) => ((s.wr (RT g) R.RT_INDEX w.toNat).cfgWrite (RT g + R.RT_INDEX.off) src).gate adv (·.inc GLB R.GLB_LOSTUPD)
    | none => s.gate adv (·.inc (RT g) R.RT_INDEX)

def execRdWp (src : Src) (g : Fin 16) (inc : Bool) (s : State) : Host.Outcome State Fault Refusal :=
  run s fun s => s.rtTake src g 0 inc
def execWrWp (src : Src) (g : Fin 16) (inc : Bool) (s : State) : Host.Outcome State Fault Refusal :=
  run s fun s => s.rtTake src g 1 inc
def execRdRat (src : Src) (g : Fin 16) (inc : Bool) (s : State) : Host.Outcome State Fault Refusal :=
  run s fun s => s.rtTake src g 2 inc
def execWrRat (src : Src) (g : Fin 16) (inc : Bool) (s : State) : Host.Outcome State Fault Refusal :=
  run s fun s => s.rtTake src g 3 inc
def execRdCb (src : Src) (g : Fin 16) (inc : Bool) (s : State) : Host.Outcome State Fault Refusal :=
  run s fun s => s.rtTake src g 4 inc
def execWrCb (src : Src) (g : Fin 16) (inc : Bool) (s : State) : Host.Outcome State Fault Refusal :=
  run s fun s => s.rtTake src g 5 inc
def execRtClr (src : Src) (g : Fin 16) (inc : Bool) (s : State) : Host.Outcome State Fault Refusal :=
  run s fun s => s.rtTake src g 6 inc
def execRtReservedOp (src : Src) (g : Fin 16) (inc : Bool) (s : State) : Host.Outcome State Fault Refusal :=
  run s fun s => s.rtTake src g 7 inc
def execRtMailboxComplete (g : Fin 16) (clash : Option (Src × Word)) (s : State) : Host.Outcome State Fault Refusal :=
  run s fun s => s.rtComplete g clash

/-! ## Pre-lock (R86, R105) -/

/-- The waypoint that a route enters next: the start, then NEXT of the waypoint in force. -/
def State.nextIndex (s : State) (g : Nat) (r : Route) : Nat :=
  if r.begun then ((s.grp g).wp (s.rd (GS g) R.GS_RSTAT_CUR)).next else r.start

/-- The route's present waypoint is its last: END, or the hop limit has been reached (R81). -/
def State.lastWaypoint (s : State) (g : Nat) (r : Route) : Bool :=
  r.begun && (((s.grp g).wp (s.rd (GS g) R.GS_RSTAT_CUR)).last || (r.hoplim != 0 && decide (r.hoplim ≤ r.hops)))

/-- A pre-lock is abandoned. -/
def State.prelockDrop (s : State) (g : Nat) : State :=
  (s.modGrp g fun x => { x with prelock := none }).flag (GS g) R.GS_SWSTAT_PRELOCK false

/-- A route ends, its pre-lock with it, and under PING-PONG the idle leaf joins the active leaf (R81, R146). -/
def State.endRoute (s : State) (g st : Nat) : State :=
  if (s.grp g).route.isNone then s
  else
    let s := (s.routeEnd g st).prelockDrop g
    s.gate (s.pingPong g) (·.joinStart g)

/-- Under PING-PONG the idle leaf starts to pre-lock the route's next waypoint; it ceases to be the guard (R86, R149). A target
that fails R78 for that leaf ends the route. -/
def State.prelockStart (s : State) (g : Nat) : State :=
  match (s.grp g).route with
  | none => s
  | some r =>
    if !s.pingPong g || (s.grp g).prelock.isSome || s.hopping g || s.lastWaypoint g r then s
    else
      let n := s.idleLeaf g
      if s.lst n = L_HOLDOVER ∨ s.lst n = L_RELOCK ∨ s.lst n = L_FAULT ∨ (r.begun = true ∧ s.lst (s.actLeaf g) ≠ L_LOCKED) then s
      else
        let i := s.nextIndex g r
        let w := (s.grp g).wp i
        let v := (s.grp g).wpRatio w
        if !s.legalFor n v (some w) then s.endRoute g END_ILLEGAL
        else
          let s := s.gate (s.lst n == L_SEARCH || s.lst n == L_ACQUIRE) fun s => s.wr (LP n) R.LP_LSTATE_STATE L_LOCKED
          let s := s.modLeaf n fun l => { l with joined := false, joining := false }
          let s := s.hopLeaf g n v (some (i, w))
          let s := s.modGrp g fun x => { x with prelock := some i, preEpoch := s.epoch }
          s.flag (GS g) R.GS_SWSTAT_PRELOCK true

/-- PRELOCK_START (R86). -/
def execPrelockStart (g : Fin 16) (s : State) : Host.Outcome State Fault Refusal := run s fun s => s.prelockStart g

/-! ## Routes (R79 to R82, R88) -/

/-- The route of ring r (16: the register path) on group g holds up what other rings ask of the group: their waiting commands
carry BLOCKED (R259, R267). -/
def State.flagWaiting (s : State) (g r : Nat) : State :=
  let qs := (s.grp g).queue.map (·.handle) ++ (s.holds.filter fun x => !x.granted && bitOf x.groups g).map (·.handle)
  forAll (qs.filter fun h => ringOf h != r) (fun h s => s.cmdFlag h CF_BLOCKED) s

/-- A route start is accepted (R79, R88): RUN, ORIGIN and RING show it; at once, H0 is the second reference edge; under
PING-PONG the first waypoint's pre-lock starts. -/
def State.routeAccept (s : State) (g : Nat) (r : Route) (origin ring : Nat) : State :=
  let s := s.modGrp g fun x =>
    { x with route := some { r with due := !r.atMilestone, dueEpoch := (s.epoch + 2) % 2 ^ 48 } }
  let s := s.wr (GS g) R.GS_RSTAT_RUN 1
  let s := s.wr (GS g) R.GS_RSTAT_WAIT 0
  let s := s.wr (GS g) R.GS_RSTAT_ORIGIN origin
  let s := s.wr (GS g) R.GS_RSTAT_RING ring
  (s.flagWaiting g (if r.byReg then 16 else ring)).prelockStart g

/-- RCTL is answered: RESULT posted and GO cleared. -/
def State.rctlDone (s : State) (g res : Nat) : State := (s.wr (GS g) R.GS_RCTL_RESULT res).wr (GS g) R.GS_RCTL_GO 0

/-- The write that makes an RCTL request. -/
def State.rctl (s : State) (src : Src) (g op start : Nat) (ms : Bool) (f : State → State) : State :=
  s.goReq src (GS g) R.GS_RCTL_GO [(R.GS_RCTL_START, start), (R.GS_RCTL_OP, op), (R.GS_RCTL_WHEN, b2n ms)] f

/-- START on the register path (R79, R90). -/
def State.rctlStart (s : State) (src : Src) (g start : Nat) (ms : Bool) : State :=
  s.rctl src g 0 start ms fun s =>
    let res := firstOf [(s.phaseHeld g, 4), (s.cmdOn g || s.routeOn g, 2)]
    let s := s.gate (res == 0) fun s => s.routeAccept g { byReg := true, start := start, atMilestone := ms } 1 0
    s.rctlDone g res

/-- A register-started route is in force. -/
def State.regRoute (s : State) (g : Nat) : Bool :=
  match (s.grp g).route with | some r => r.byReg | none => false

/-- Changes the route of group g. -/
def State.modRoute (s : State) (g : Nat) (f : Route → Route) : State :=
  s.modGrp g fun x => { x with route := x.route.map f }

/-- The advance condition of the waypoint in force occurs, its next hop instant `at`: the route ends, or the hop falls due
(R79, R81). -/
def State.advance (s : State) (g at_ : Nat) : State :=
  match (s.grp g).route with
  | none => s
  | some r =>
    let w := (s.grp g).wp (s.rd (GS g) R.GS_RSTAT_CUR)
    if w.last then s.endRoute g END_END
    else if r.hoplim ≠ 0 ∧ r.hoplim ≤ r.hops then s.endRoute g END_LIMIT
    else (s.modRoute g fun r => { r with due := true, dueEpoch := at_ % 2 ^ 48, trigHeld := false }).wr (GS g) R.GS_RSTAT_WAIT 0

/-- An advance trigger of kind 1 engine, 2 pattern or 3 host arrives at the group from a sender that has joined the route or
not: taken, held, or discarded into TRIGDROP (R80, R89). -/
def State.routeTrigger (s : State) (g kind : Nat) (joined : Bool) : State :=
  match (s.grp g).route with
  | none => s.inc (GS g) R.GS_TRIGDROP
  | some r =>
    let w := (s.grp g).wp (s.rd (GS g) R.GS_RSTAT_CUR)
    if !r.begun || !joined || r.trigHeld || r.due || w.adv != kind then s.inc (GS g) R.GS_TRIGDROP
    else if r.dwellDone ∧ s.hopping g = false then s.advance g (s.epoch + 2)
    else s.modRoute g fun r => { r with trigHeld := true }

/-- NEXT on the register path (R80). -/
def State.rctlNext (s : State) (src : Src) (g start : Nat) : State :=
  s.rctl src g 1 start false fun s =>
    let res := firstOf [(s.phaseHeld g, 4), (s.cmdOn g, 2), (!s.regRoute g, 3)]
    (s.gate (res == 0) (·.routeTrigger g 3 true)).rctlDone g res

/-- STOP on the register path (R81). -/
def State.rctlStop (s : State) (src : Src) (g start : Nat) : State :=
  s.rctl src g 2 start false fun s =>
    let res := firstOf [(s.phaseHeld g, 4), (s.cmdOn g, 2), (!s.regRoute g, 3)]
    (s.gate (res == 0) (·.endRoute g END_STOP)).rctlDone g res

def execRctlStart (src : Src) (g : Fin 16) (start : BitVec 12) (ms : Bool) (s : State) : Host.Outcome State Fault Refusal :=
  run s fun s => s.rctlStart src g start.toNat ms
def execRctlNext (src : Src) (g : Fin 16) (start : BitVec 12) (s : State) : Host.Outcome State Fault Refusal :=
  run s fun s => s.rctlNext src g start.toNat
def execRctlStop (src : Src) (g : Fin 16) (start : BitVec 12) (s : State) : Host.Outcome State Fault Refusal :=
  run s fun s => s.rctlStop src g start.toNat

/-- RCTL_RESERVED_OP: ILLEGAL (R79). -/
def execRctlReservedOp (src : Src) (g : Fin 16) (start : BitVec 12) (s : State) : Host.Outcome State Fault Refusal :=
  run s fun s => s.rctl src g 3 start.toNat false (·.rctlDone g 1)

/-- The dwell of the waypoint in force expires (R79, R80): with ADV 0 the next hop instant is H(w) + dwell; with a trigger
held and the hop into w complete, the trigger is taken; otherwise the route waits. -/
def State.dwellExpiry (s : State) (g : Nat) : State :=
  match (s.grp g).route with
  | none => s
  | some r =>
    if !r.begun || r.dwellDone || r.due then s
    else
      let w := (s.grp g).wp (s.rd (GS g) R.GS_RSTAT_CUR)
      let s := s.modRoute g fun r => { r with dwellDone := true }
      if w.adv = 0 then s.advance g (r.hopEpoch + w.dwell)
      else if w.adv ≠ 4 ∧ r.trigHeld ∧ s.hopping g = false then s.advance g (s.epoch + 2)
      else s.wr (GS g) R.GS_RSTAT_WAIT 1

/-- DWELL_EXPIRY (R79). -/
def execDwellExpiry (g : Fin 16) (s : State) : Host.Outcome State Fault Refusal := run s fun s => s.dwellExpiry g

/-- ROUTE_TRIGGER (R80): `kind` 0 engine, 1 pattern, 2 host; `joined`: the sender has joined the route. -/
def execRouteTrigger (g : Fin 16) (kind : Fin 3) (joined : Bool) (s : State) : Host.Outcome State Fault Refusal :=
  run s fun s => s.routeTrigger g (kind + 1) joined

/-! ## Single hops (R79, R90) -/

/-- HOPCTL is answered. -/
def State.hopctlDone (s : State) (g res : Nat) : State :=
  (s.wr (GS g) R.GS_HOPCTL_RESULT res).wr (GS g) R.GS_HOPCTL_GO 0

/-- The target of a hop by leaf n is illegal now: R78 fails for the reference path of that leaf, or no ratio is staged. -/
def State.hopIllegal (s : State) (g n i : Nat) (staged : Bool) : Bool :=
  if staged then
    match (s.leaf n).staged with
    | none => true
    | some r => !s.legalFor n r none
  else !s.legalFor n ((s.grp g).wpRatio ((s.grp g).wp i)) (some ((s.grp g).wp i))

/-- No leaf of the group can lock. -/
def State.noLeaf (s : State) (g : Nat) : Bool :=
  s.lst (s.actLeaf g) == L_FAULT && (s.pingPong g || s.lst (s.idleLeaf g) == L_FAULT)

/-- A register-path single hop (R90): refused, or accepted with its hop instant at the second reference edge. GO stays set
until the hop completes, is refused, or is cut. -/
def State.hopctl (s : State) (src : Src) (g i : Nat) (staged : Bool) : State :=
  s.goReq src (GS g) R.GS_HOPCTL_GO [(R.GS_HOPCTL_INDEX, i), (R.GS_HOPCTL_SRC, b2n staged)] fun s =>
    let res := firstOf [(s.hopIllegal g (s.actLeaf g) i staged, 1), (s.phaseHeld g, 4),
      (s.cmdOn g || s.routeOn g || (s.grp g).hop.isSome || (s.grp g).swing.isSome, 2), (s.noLeaf g, 5)]
    if res = 0 then
      s.modGrp g fun x =>
        { x with hop := some { src := .reg, index := i, staged := staged, dueEpoch := (s.epoch + 2) % 2 ^ 48 } }
    else s.hopctlDone g res

def execHopctlHopWaypoint (src : Src) (g : Fin 16) (i : BitVec 12) (s : State) : Host.Outcome State Fault Refusal :=
  run s fun s => s.hopctl src g i.toNat false
def execHopctlHopStaged (src : Src) (g : Fin 16) (i : BitVec 12) (s : State) : Host.Outcome State Fault Refusal :=
  run s fun s => s.hopctl src g i.toNat true

/-! ## Hops (R78, R83, R85, R86, R141) -/

/-- A hop of group g has begun and is not complete. -/
def State.hopBusy (s : State) (g : Nat) : Bool := match (s.grp g).hop with | some h => h.begun | none => false

/-- The hop that is due on group g: a single hop accepted and not begun, or the route's due hop, which may fall due before an
earlier hop is complete (R85). -/
def State.dueHop (s : State) (g : Nat) : Option Hop :=
  let route := match (s.grp g).route with
    | some r => if r.due then some { src := .route, index := s.nextIndex g r, dueEpoch := r.dueEpoch } else none
    | none => none
  match (s.grp g).hop with
  | some h => if h.begun then route else some h
  | none => route

/-- A hop that cannot be made is answered by its kind: a route ends, HOPCTL is refused, a HOP command is refused. -/
def State.hopRefused (s : State) (g : Nat) (h : Hop) (illegal : Bool) : State :=
  let s := s.modGrp g fun x => { x with hop := none }
  let s := s.wr (GS g) R.GS_RSTAT_HELD 0
  match h.src with
  | .route => s.endRoute g (if illegal then END_ILLEGAL else END_FAULT)
  | .reg => s.hopctlDone g (if illegal then 1 else 5)
  | .cmd c =>
    let s := s.cmdStatus c (if illegal then ST_REFUSED else ST_FAULT)
    (s.modCmd c fun x => { x with detail := if illegal then 1 else x.detail }).partDone c g 0

/-- The bookkeeping of a hop at its hop instant (R80, R81, R83): HOPPING, CUR and HOPCNT, and the route's new waypoint. DESIGN
CHOICE (assumption 87): a hop to the staged ratio enters no waypoint, and CUR keeps the index it has. -/
def State.hopBegun (s : State) (g : Nat) (h : Hop) : State :=
  let s := s.wr (GS g) R.GS_RSTAT_HELD 0
  let s := s.wr (GS g) R.GS_RSTAT_WAIT 0
  let s := s.wr (GS g) R.GS_RSTAT_HOPPING 1
  let s := s.gate (!h.staged) (·.wr (GS g) R.GS_RSTAT_CUR h.index)
  let s := s.inc (GS g) R.GS_HOPCNT
  let s := s.recCount 2
  match h.src, (s.grp g).route with
  | .route, some _ =>
    let s := s.modRoute g fun x =>
      { x with begun := true, hops := if x.begun then x.hops + 1 else x.hops, hopEpoch := h.dueEpoch, due := false,
               dwellDone := false, trigHeld := false }
    s.stepHopped g
  | _, _ => s

/-- The point-start mark of a route's hop enters the FIFOs of the joined engines, with the point frequency word of the settings
now in force (R82, R206). -/
def State.hopMarked (s : State) (g : Nat) (h : Hop) (r : Ratio) : State :=
  match h.src, (s.grp g).route with
  | .route, some rt =>
    let f := s.pointFreq g r
    let s := s.gate (s.grp g).pwEn fun s => s.modGrp g fun x => { x with pfw := f }
    s.markJoined g rt { mark := true, code := h.index, freq := f }
  | _, _ => s

/-- The in-place hop at P0 (R83): both leaves under GUARDED, the active leaf alone under PING-PONG and where a fault swing runs
(R147); the restart of kind 2. -/
def State.hopInPlace (s : State) (g : Nat) (h : Hop) (half fallback : Bool) : State :=
  let n := s.actLeaf g
  let w := (s.grp g).wp h.index
  let r := if h.staged then ((s.leaf n).staged.getD {}) else (s.grp g).wpRatio w
  let sel : Option (Nat × Wp) := if h.staged then none else some (h.index, w)
  let vpr := s.vcoPerRef g
  let fromOff := s.lst n == L_OFF
  let alone := (s.grp g).swing.isSome
  let s := forAll (if s.pingPong g || alone then [n] else [2 * g, 2 * g + 1]) (fun m s => s.hopLeaf g m r sel) s
  let s := s.gate (s.pingPong g) fun s => (s.prelockDrop g).modLeaf (s.idleLeaf g) fun l => { l with joined := false }
  let s := s.modGrp g fun x => { x with hop := some { h with begun := true, p0 := s.epoch, fallback := fallback, alone := alone } }
  let s := s.hopBegun g h
  let s := s.gate fallback fun s => (s.inc (GS g) R.GS_FBCNT).routeFlag g CF_FALLBACK
  let s := s.gate fallback fun s => match (s.grp g).route with
    | some rt => if rt.byReg then s else forAll (rt.holder :: rt.joined) (fun c s =>
        s.modCmd c fun x => { x with fallbacks := satTo 255 (x.fallbacks + 1) }) s
    | none => s
  (s.gate (!fromOff) (·.restart g 2 half vpr)).hopMarked g h r

/-- The lead of a pre-lock suffices (R86): from its start to the hop instant, against the time to in window plus the
in-window count. DESIGN CHOICE (assumption 88): at LBW below 6 the searched 14 µs scale as a whole, as R84's worked example does,
although R84 leaves the search windows unscaled. -/
def State.leadOk (s : State) (g dueEpoch : Nat) : Bool :=
  let l := s.leaf (s.idleLeaf g)
  let lead := (dueEpoch + 2 ^ 48 - (s.grp g).preEpoch) % 2 ^ 48
  let bw := bwHz l.lbw
  let ns := if l.searched then 14000 else 500
  let kc := l.ldcfg / 256 % 16
  let count := 2 ^ ((if kc ≤ 12 then kc else 12) + 4)
  let d := dOf l.dbl
  let settle := ns * (if l.lbw < 6 then 437000 else bw) * s.refHz * d
  decide (settle + count * l.refdiv * 1000000000 * bw ≤ lead * 1000000000 * bw * d)

/-- A route swing is made at this hop instant (R86, R151): the idle leaf has pre-locked the waypoint and is LOCKED, and the
lead was long enough. -/
def State.swingReady (s : State) (g : Nat) (h : Hop) : Bool :=
  s.pingPong g && decide (h.src = .route) && decide ((s.grp g).prelock = some h.index)
    && s.lst (s.idleLeaf g) == L_LOCKED && s.leadOk g h.dueEpoch

/-- Continuation offsets are in force on every enabled output (R145). -/
def State.carryOn (s : State) (g : Nat) : State :=
  iter 36 (fun o s => s.gate (s.outSet g o).live (·.flag (OP g o) R.OP_OSTAT_CARRY true)) s

/-- The route swing at S (R141, R143, R145): the idle leaf drives the tree; EPOCH restarts with anchor S, CONTINUOUS keeps
every output's next edge and leaves the group unanchored; offsets not ready make it an EPOCH swing and count in FBCNT. A small
step of the leaf that becomes idle is abandoned (R63), the spur rules are evaluated (R65), and no leaf is a guard (R149). -/
def State.routeSwing (s : State) (g : Nat) (h : Hop) (half ready : Bool) : State :=
  let n := s.idleLeaf g
  let s := s.stopStep (s.actLeaf g)
  let cont := s.is (GS g) R.GS_POLICY_SWMODE
  let r := (s.leaf n).ratio
  let vpr := s.vcoPerRef g
  let s := s.wr (GS g) R.GS_SWSTAT_ACT (n % 2)
  let s := s.hopBegun g h
  let s := s.prelockDrop g
  let s := s.modGrp g fun x => { x with swing := some .route, hop := some { h with begun := true, p0 := s.epoch } }
  let s := forAll [2 * g, 2 * g + 1] (fun m s => s.modLeaf m fun l => { l with joined := false }) s
  let s := ((s.interruptPm g).leafTrims (s.idleLeaf g)).evalSpurs n
  if cont ∧ ready then
    let c := s.contGrid g half vpr (s.vcoPerRef g)
    let s := (s.carryOn g).modGrp g fun x => { x with anchored := false, cont := some c, moved := false }
    (s.tick.evalOuts g).hopMarked g h r
  else
    let s := s.gate cont (·.inc (GS g) R.GS_FBCNT)
    (s.restart g 3 half vpr).hopMarked g h r

/-- The due hop of group g must wait (R85): an earlier hop or a swing still runs, or the active leaf is not LOCKED. A fault swing
holds no hop up: the hop proceeds on the healthy leaf alone (R147). -/
def State.hopWaits (s : State) (g : Nat) : Bool :=
  let st := s.lst (s.actLeaf g)
  s.hopBusy g || (s.hopping g && decide ((s.grp g).swing ≠ some .fault)) || (st != L_LOCKED && st != L_OFF)

/-- The due hop begins: refused where R78 fails or no leaf can lock, held while it must wait, otherwise a swing, or an in-place
hop (a fallback when it was to be a swing). -/
def State.beginHop (s : State) (g : Nat) (h : Hop) (half ready : Bool) : State :=
  let swing := s.swingReady g h
  if s.noLeaf g then s.hopRefused g h false
  else if s.hopWaits g then s.wr (GS g) R.GS_RSTAT_HELD 1
  else if s.hopIllegal g (if swing then s.idleLeaf g else s.actLeaf g) h.index h.staged then s.hopRefused g h true
  else if swing then s.routeSwing g h half ready
  else s.hopInPlace g h half (s.pingPong g && decide (h.src = .route))

/-- HOP_START (R83): `half`: P0 lies on the falling half of a reference cycle; `ready`: continuation offsets are computed. A hop
that is held is taken by HELD_HOP_RELEASE. -/
def execHopStart (g : Fin 16) (half ready : Bool) (s : State) : Host.Outcome State Fault Refusal :=
  run s fun s => match s.dueHop g with
    | some h => if s.is (GS g) R.GS_RSTAT_HELD then s else s.beginHop g h half ready
    | none => s

/-- The slip of a held hop counts, and its commands report it (R85, R259). -/
def State.slip (s : State) (g : Nat) (h : Hop) (n : Nat) : State :=
  let s := s.inc (GS g) R.GS_SLIPCNT n
  let hs : List Nat := match h.src with
    | .cmd c => [c]
    | .reg => []
    | .route => match (s.grp g).route with
      | some r => if r.byReg then [] else r.holder :: r.joined
      | none => []
  s.gate (decide (n ≠ 0)) fun s => forAll hs (fun c s =>
    (s.cmdFlag c CF_SLIP).modCmd c fun x => { x with aux := satTo 0xFFFFFFFF (x.aux + n) }) s

/-- HELD_HOP_RELEASE (R85): at the first reference edge after LOCKED the held hop is taken, its hop instant now. -/
def execHeldHopRelease (g : Fin 16) (half ready : Bool) (s : State) : Host.Outcome State Fault Refusal :=
  run s fun s => match s.dueHop g with
    | some h =>
      if s.is (GS g) R.GS_RSTAT_HELD && s.lst (s.actLeaf g) == L_LOCKED && !s.hopWaits g then
        let s := s.slip g h ((s.epoch + 2 ^ 48 - h.dueEpoch) % 2 ^ 48)
        s.beginHop g { h with dueEpoch := s.epoch } half ready
      else s
    | none => s

/-- The leaves whose LOCKED at the new setting completes the hop of group g (R83): both under GUARDED, or the active leaf alone
when its twin is in FAULT, or the hop proceeds without it (R147). -/
def State.hopLeaves (s : State) (g : Nat) : List Nat :=
  let alone := match (s.grp g).hop with | some h => h.alone | none => false
  if s.pingPong g || alone then [s.actLeaf g] else [2 * g, 2 * g + 1].filter fun n =>
    n == s.actLeaf g || (s.lst n != L_FAULT && s.lst n != L_OFF)

/-- Leaf n is LOCKED at the setting of the active leaf of its group. -/
def State.atSetting (s : State) (n : Nat) : Bool :=
  let a := s.leaf (s.actLeaf (n / 2))
  s.lst n == L_LOCKED && decide ((s.leaf n).ratio = a.ratio ∧ (s.leaf n).lbw = a.lbw)

/-- The idle leaf of group g joins when it is LOCKED, or OFF and on, has not joined, and nothing else needs it (R146). Under
GUARDED a leaf that could not hop with the active leaf joins it while the hop runs. -/
def State.joinIfIdle (s : State) (g : Nat) : State :=
  let n := s.idleLeaf g
  let x := s.grp g
  let quiet := !s.hopping g && x.hop.isNone
  s.gate (!(s.leaf n).joined && x.prelock.isNone && x.gapFailed.isNone && x.swing.isNone
      && (if s.pingPong g then quiet && x.route.isNone else quiet || (s.hopBusy g && s.lst n == L_LOCKED && !s.atSetting n)))
    (·.joinStart g)

/-- LASTHOP is written (chapter 04). -/
def State.lastHop (s : State) (g lockt : Nat) (ns : List Nat) (fallback swing : Bool) : State :=
  let b := GS g
  let any (p : Leaf → Bool) : Bool := ns.any fun n => p (s.leaf n)
  let s1 := s.wr b R.GS_LASTHOP_LOCKT (satTo 0xFFFF lockt)
  let s1 := s1.flag b R.GS_LASTHOP_SEARCHED (any (·.searched))
  let s1 := s1.flag b R.GS_LASTHOP_MISS (any (·.missed))
  let s1 := s1.flag b R.GS_LASTHOP_DISTRUST (any (·.distrust))
  (s1.flag b R.GS_LASTHOP_FALLBACK fallback).flag b R.GS_LASTHOP_SWING swing

/-- A hop has ended: its requester is answered, and a held trigger or a pending join goes on. -/
def State.hopEnded (s : State) (g : Nat) (h : Hop) : State :=
  let s := s.modGrp g fun x => { x with hop := none, settling := true }
  let s := match h.src with
    | .reg => s.hopctlDone g 0
    | .cmd c => s.partDone c g 0
    | .route => s
  let s := match (s.grp g).route with
    | some r =>
      let w := (s.grp g).wp (s.rd (GS g) R.GS_RSTAT_CUR)
      if r.begun ∧ r.dwellDone ∧ r.trigHeld ∧ 1 ≤ w.adv ∧ w.adv ≤ 3 then s.advance g (s.epoch + 2) else s
    | none => s
  s.joinIfIdle g

/-- HOP_COMPLETION (R72, R83): captures, then HOPPING clears and LASTHOP is written. `lockt` is P0 to completion in BUS
cycles; `va`, `vb` are the leaves' tuning samples. A HOP command that completed after its deadline is LATE (R268). -/
def State.hopComplete (s : State) (g lockt va vb : Nat) : State :=
  match (s.grp g).hop with
  | none => s
  | some h =>
    if !h.begun || (s.grp g).swing.isSome || !(s.hopLeaves g).all s.atSetting then s
    else
      let s := (s.wr (LP (2 * g)) R.LP_TMON va).wr (LP (2 * g + 1)) R.LP_TMON vb
      let s := forAll (s.hopLeaves g) (fun n s => s.capture n) s
      let s := s.lastHop g lockt (s.hopLeaves g) h.fallback false
      let s := s.wr (GS g) R.GS_RSTAT_HOPPING 0
      let s := match h.src with
        | .cmd c => match s.cmd? c with
          | some x => if x.late then s.cmdStatus c ST_LATE else s
          | none => s
        | _ => s
      s.hopEnded g h

def execHopCompletion (g : Fin 16) (lockt : BitVec 32) (va vb : BitVec 16) (s : State) : Host.Outcome State Fault Refusal :=
  run s fun s => s.hopComplete g lockt.toNat va.toNat vb.toNat

/-! ## The route queue (R89, R90, R267) -/

/-- The head of the group's route queue can start: no route runs, no single hop is pending or in progress, no small step slews
(R63), and no granted PHASE_HOLD covers the group. -/
def State.queueFree (s : State) (g : Nat) : Bool :=
  !s.routeOn g && !s.slewOn g && (s.grp g).hop.isNone && (s.grp g).swing.isNone && !s.phaseHeld g

end Sys2Proof.Machine
end

