-- ==== Sys2Proof/Machine/Records.lean ====
section
/-! DEFINITION. Machine/Records.lean: the result buffer of a command (R226, R261), what marks results as suspect (R341), the
ownership of sites by rings (R245), and the units that ownership switches on (R9). -/

namespace Sys2Proof.Machine

/-! ## Result buffers -/

/-- A record's bytes in the result buffer: whole words, padded to 16 bytes (R226). -/
def recBytes (words : Nat) : Nat := (words * 4 + 15) / 16 * 16

/-- The command has a result buffer with room for a record of `n` words. -/
def State.bufRoom (s : State) (h n : Nat) : Bool :=
  match s.cmd? h with
  | some c => decide (c.rbytes + recBytes n ≤ c.rlen)
  | none => false

/-- A record's words with the header the module forms (R224, R261): TYPE, LEN, SRC 1,023. -/
def moduleRecord (typ : Nat) (body : List Word) : List Word :=
  let n := body.length + 1
  BitVec.ofNat 32 (typ + n % 256 * 256 + 1023 * 65536 + n / 256 * 2 ^ 29) :: body

/-- A module record takes its place in the command's buffer and waits to be written; with the buffer full it is not written
(R261). -/
def State.modRecord (s : State) (h typ : Nat) (body : List Word) : State :=
  let ws := moduleRecord typ body
  match s.cmd? h with
  | none => s
  | some c =>
    if !s.bufRoom h ws.length then s
    else
      { s.modCmd h (fun x => { x with rbytes := x.rbytes + recBytes ws.length }) with
        modRecs := s.modRecs ++ [(h, c.rbytes, ws)] }

/-- The words as they lie in the buffer: padded with 0 to 16 bytes. -/
def padRecord (ws : List Word) : List Word := ws ++ List.replicate (recBytes ws.length / 4 - ws.length) 0

/-- A record is written at its place in the command's result buffer (R226), with Relaxed Ordering (R242). -/
def State.bufWrite (s : State) (h off : Nat) (ws : List Word) : State :=
  match s.cmd? h with
  | some c => s.send (.mem true (c.rbuf + off) (padRecord ws))
  | none => s

/-! ## Suspect results (R341) -/

/-- The sites of group g that contain one of the channels of a 32-bit mask. -/
def Grp.sitesOf (x : Grp) (mask : Nat) : Nat :=
  (List.range 4).foldl (fun m i => if x.siteMask i &&& mask != 0 then m + 2 ^ i else m) 0

/-- The results of the executing step's vector are affected for the channels of `mask`: they carry SUSPECT, and the step is a
candidate for replay (R341). -/
def State.affect (s : State) (g mask : Nat) : State :=
  let x := s.grp g
  match x.cur with
  | none => s
  | some st =>
    let hit := x.sitesOf mask
    let steps := st.steps.map fun t =>
      if t.sites &&& hit = 0 then t
      else { t with suspect := true, affected := true, affVec := if t.affected then t.affVec else st.vcnt }
    s.setGrp g { x with cur := some { st with steps := steps } }

/-- Every result of group g carries SUSPECT from here: the executing step's and the route's commands (R147, R150, R259). -/
def State.affectAll (s : State) (g : Nat) : State := (s.affect g 0xFFFFFFFF).routeFlag g CF_SUSPECT

/-- Results of the executing step carry SUSPECT without making it a candidate for replay (R180, R185). -/
def State.stepSuspect (s : State) (g mask : Nat) : State :=
  let x := s.grp g
  let hit := x.sitesOf mask
  let mark (t : TStep) : TStep := if t.sites &&& hit = 0 then t else { t with suspect := true }
  s.setGrp g { x with cur := x.cur.map fun st => { st with steps := st.steps.map mark } }

/-! ## Step records (R193, R261) -/

/-- A step number and its ring (R402). -/
def State.stepNo (s : State) (h : Nat) : Nat := match s.cmd? h with
  | some c => c.steps % 65536
  | none => 0

/-- The step record of outcomes by site (R261). -/
def stepRecord (no replays g : Nat) (out : Nat → Nat) : List Word :=
  let word (w : Nat) : Nat := (List.range 4).foldl (fun m i =>
    let site := 4 * g + i
    if site / 10 = w then m + out i * 2 ^ (3 * (site % 10)) else m) 0
  BitVec.ofNat 32 (no + replays * 65536) :: (List.range 7).map fun w => BitVec.ofNat 32 (word w)

/-- The command of a step learns its outcomes: the record, STATUS, flags, its step count and the end of its step part. -/
def State.stepReport (s : State) (g : Nat) (t : TStep) (out : Nat → Nat) (status : Nat) : State :=
  let h := t.handle
  let s := s.modRecord h 0x82 (stepRecord (s.stepNo h) t.replays g out)
  let s := s.gate (status != 0) (·.cmdStatus h status)
  let s := (s.gate t.suspect (·.cmdFlag h CF_SUSPECT)).gate t.coast (·.cmdFlag h CF_COAST)
  let s := s.modCmd h fun c => { c with steps := c.steps + 1 }
  s.partDone h g 1

/-- Every named site of a step reports outcome `code` (R193): 3 SETUP, 5 ABORTED, 6 SAFE. -/
def State.stepCut (s : State) (g : Nat) (t : TStep) (code status : Nat) : State :=
  s.stepReport g t (fun i => if bitOf t.sites i then code else 0) status

/-! ## Ownership (R9, R245) -/

/-- The ring's sites count as owned: it is ACTIVE, STOPPING or STOPPED. -/
def State.ringOwns (s : State) (r : Nat) : Bool :=
  s.rstate r == RS_ACTIVE || s.rstate r == RS_STOPPING || s.rstate r == RS_STOPPED

/-- The sites that rings own now. The sites of an executing command stay on until it has ended at its test-step boundary
(R247), whatever its ring's state. -/
def State.ownedSites (s : State) : Nat :=
  let m := (List.range 16).foldl (fun m r => if s.ringOwns r then m ||| (s.ring r).sites else m) 0
  s.cmds.foldl (fun m c => if c.phase = .running then m ||| c.sites else m) m

/-- Group g has a site that a ring owns. -/
def State.groupOwned (s : State) (g : Nat) : Bool := s.hasGroup g && groupSites s.ownedSites g != 0

/-- The BANK domains may be on: CONFIGURE, ARMED, RUN or CALIBRATE (R23). -/
def State.bankMode (s : State) : Bool := decide (3 ≤ s.mode) && decide (s.mode ≤ 6)

/-- The site of position k of the group by the map in force, or none. -/
def Grp.siteOf (x : Grp) (k : Nat) : Option Nat := (List.range 4).find? fun i => bitOf (x.siteMask i) k

/-- Channel c is down (R338). -/
def State.chDown (s : State) (c : Nat) : Bool := bitOf (s.rd (FLT + 4 * (c / 32)) R.FLT_CHDOWN) (c % 32)

/-- Logical engine e is down (R338). -/
def State.engDown (s : State) (e : Nat) : Bool := bitOf (s.rd (FLT + 4 * (e / 32)) R.FLT_EDOWN) (e % 32)

/-- Leaf n is retired (R338). -/
def State.leafRetired (s : State) (n : Nat) : Bool :=
  if n < 32 then bitOf (s.rd FLT R.FLT_LEAFRET) n else bitOf (s.rd FLT R.FLT_SYSRET) (n - 32)

/-- The positions of group g that belong to sites a ring owns (R9, R12). -/
def State.ownedMask (s : State) (g : Nat) : Nat :=
  let o := groupSites s.ownedSites g
  let x := s.grp g
  (List.range 4).foldl (fun m i => if bitOf o i then m ||| x.siteMask i else m) 0

/-- Group g is in the module-wide calibration that runs: every set and output of it is under calibration (R23). -/
def State.inRun (s : State) (g : Nat) : Bool := s.cal.run && bitOf s.cal.groups g

/-- The powered sets of group g, as a mask of positions: the group is on, the channel's site is owned or under calibration, and
the channel is not down (R9, R23, R338). -/
def State.setsOn (s : State) (g : Nat) : Nat :=
  if (s.grp g).on then
    let d := s.rd (FLT + 4 * g) R.FLT_CHDOWN
    ((if s.inRun g then 0xFFFFFFFF else s.ownedMask g) ||| d) ^^^ d
  else 0

/-- The set of channel c (or spare set at 512 + g) is powered; a spare set is powered with its group unless retired. -/
def State.setOn (s : State) (c : Nat) : Bool :=
  if c < 512 then bitOf (s.setsOn (c / 32)) (c % 32)
  else (s.grp (c - 512)).on && !s.is (FLT + 4 * (c - 512)) R.FLT_SPMAP_SPRET

end Sys2Proof.Machine
end

