-- ==== Sys2Proof/Machine/Blocks.lean ====
section
/-! DEFINITION. Machine/Blocks.lean: units switched on and off (R9, R417, R418), engine exceptions (R235), the early end of a
command (R255, R27), and the entry to SAFE (R27). -/

namespace Sys2Proof.Machine

/-! ## Registers of a unit that is switched on or off (R289, R417, R418) -/

/-- Of the addresses in `[lo, lo + n)` that table `src` lists, the register bits that `mask` selects take its value. -/
def State.overlay (s : State) (lo n : Nat) (src : Tab Word) (mask : RegRow → Nat) : State :=
  forAll (src.filter fun e => decide (lo ≤ e.1) && decide (e.1 < lo + n)) (fun e s =>
    match rowOf e.1 with
    | some r =>
      let m := BitVec.ofNat 32 (mask r)
      s.setWord e.1 ((s.word e.1 &&& ~~~ m) ||| (e.2 &&& m))
    | none => s) s

/-- The registers of a page take their Reset column: numbers, Image fields from the configuration image, Slot fields from the
calibration store; tumbler fields keep the value of their copies. -/
def State.pageReset (s : State) (lo n : Nat) : State :=
  let old := s.regs
  let s := s.clearRegs lo n
  let s := s.overlay lo n s.image fun r => (r.img ||| r.tmb) ^^^ r.tmb
  let s := s.overlay lo n s.store (·.slot)
  s.overlay lo n old (·.tmb)

/-! ## Engines -/

/-- The logical engine that physical engine p works for (R240): itself, or the engine that a spare's SERVES names. -/
def State.logEng (s : State) (p : Nat) : Nat := if p < 512 then p else s.rd (ENG p) R.ENG_SERVES_ENG

/-- A spare engine has no engine to serve. -/
def State.spareIdle (s : State) (p : Nat) : Bool := decide (512 ≤ p) && !s.is (ENG p) R.ENG_SERVES_VALID

/-- Engine p is switched on: IDLE, memories 0, IMGCRC being recomputed, its self-test running (R216, R334). -/
def State.engOn (s : State) (p : Nat) : State :=
  let sv := s.word (ENG p + R.ENG_SERVES_ENG.off)
  let s := s.pageReset (ENG p) 0x40
  let s := s.gate (decide (512 ≤ p)) (·.setWord (ENG p + R.ENG_SERVES_ENG.off) sv)
  s.setEng p { on := true, st := E_IDLE, crcBusy := true, testing := true }

/-- Engine p is switched off: OFF, both memories lost. -/
def State.engOff (s : State) (p : Nat) : State :=
  let sv := s.word (ENG p + R.ENG_SERVES_ENG.off)
  let s := s.pageReset (ENG p) 0x40
  let s := s.gate (decide (512 ≤ p)) (·.setWord (ENG p + R.ENG_SERVES_ENG.off) sv)
  let s := s.setEng p {}
  { s with boxes := s.boxes.clearRange (ENG p) 0x40 }

/-- Some engine of group g still runs, or is to start, under command h. -/
def State.engsBusy (s : State) (h g : Nat) : Bool :=
  s.engines.any fun e => decide (s.logEng e.1 / 32 = g) &&
    ((e.2.handle == some h && e.2.live) || (match e.2.req with | some q => q.handle == some h | none => false))

/-- The engine part of command h on group g ends when its last engine has stopped (R252). -/
def State.engPart (s : State) (h g : Nat) : State := s.gate (!s.engsBusy h g) (·.partDone h g 2)

/-- An exception of engine p (R235): the state before the failing instruction stands; EXCINFO, EXCCNT, EV(12g + 7) and the
module record follow, and the command notes the code of its lowest-numbered engine. -/
def State.engExc (s : State) (p code : Nat) : State :=
  let x := s.eng p
  let e := s.logEng p
  let s := s.setEng p { x with st := E_EXC, waitOn := 0, skipLeft := none, stepOne := false }
  let s := s.wr (ENG p) R.ENG_EXCINFO_CODE code
  let s := s.wr (ENG p) R.ENG_EXCINFO_PC x.pc
  let s := s.inc (ENG p) R.ENG_EXCCNT
  let s := s.graise (e / 32) 7 (e + code * 65536)
  match x.handle with
  | none => s
  | some h =>
    let s := s.modRecord h 0x81 [BitVec.ofNat 32 (e + code * 65536), BitVec.ofNat 32 x.pc, BitVec.ofNat 32 h]
    let s := s.modCmd h fun c =>
      { c with excEng := if e < c.excEng then e else c.excEng,
               excCode := (if e < c.excEng then code else c.excCode % 16) + (if code ≤ 8 ∨ 16 ≤ c.excCode then 16 else 0) }
    s.engPart h (e / 32)

/-- The engines in RUN or WAIT under command h take exception STOPPED, and its pending starts are withdrawn. -/
def State.engStopCmd (s : State) (h : Nat) : State :=
  let ps := (s.engines.filter fun e => e.2.handle == some h && e.2.live).map (·.1)
  let qs := (s.engines.filter fun e => match e.2.req with | some q => q.handle == some h | none => false).map (·.1)
  let s := forAll qs (fun p s => s.modEng p fun x => { x with req := none }) s
  forAll ps (fun p s => s.engExc p 9) s

/-! ## Groups (R9, R23) -/

/-- Two of the written masks share a channel. -/
def State.sitesOverlap (s : State) (g : Nat) : Bool :=
  let m (i : Nat) : Nat := s.rd (GS g + 4 * i) R.GS_SITE_MAP
  (List.range 4).any fun i => (List.range i).any fun j => m i &&& m j != 0


/-- Group g is switched on: its registers take their Reset column, its leaves are OFF and the retired ones stay off, its route
and pattern memories are empty, and the site configuration in force is the written one. -/
def State.grpOn (s : State) (g : Nat) : State :=
  let s := s.pageReset (GS g) 0x1000
  let s := s.pageReset (OUT g) 0x1000
  let s := s.pageReset (RT g) 0x1000
  let s := (s.trimsOn (GS g) 0x1000).trimsOn (OUT g) 0x1000
  let s := s.trimsOn (CAL + 0x400 + 16 * g) 16
  let old := s.grp g
  let b (i : Nat) : Nat := GS g + 4 * i
  let s := s.setGrp g
    { on := true, queue := old.queue, steps := old.steps, rstGen := old.rstGen + 1,
      siteMap := (List.range 4).map fun i => s.rd (b i) R.GS_SITE_MAP,
      siteCfg := (List.range 4).map fun i => (s.word (b i + R.GS_SITE_CFG_EN.off)).toNat }
  let s := forAll [2 * g, 2 * g + 1] (fun n s => s.setLeaf n { on := !s.leafRetired n }) s
  let whole := !s.leafRetired (2 * g) && !s.leafRetired (2 * g + 1)
  let pol := s.rd (GS g) R.GS_POLICY_POL
  let s := s.wr (GS g) R.GS_SWSTAT_POLIF (if whole then pol else 0)
  let s := s.wr (GS g) R.GS_SWSTAT_POLPEND (if whole then 0 else pol)
  let s := s.flag (GS g) R.GS_PSTAT_OVL (s.sitesOverlap g)
  s.wr (GS g) R.GS_SWSTAT_ACT (b2n (s.leafRetired (2 * g) && !s.leafRetired (2 * g + 1)))

/-- Group g is switched off: its route ends as by a STOP (R81), and everything its domain holds is lost. -/
def State.grpOff (s : State) (g : Nat) : State :=
  let s := s.routeEnd g END_STOP
  let old := s.grp g
  let s := s.setGrp g { queue := old.queue, steps := old.steps, rstGen := old.rstGen }
  let s := (s.setLeaf (2 * g) {}).setLeaf (2 * g + 1) {}
  let s := s.pageReset (GS g) 0x1000
  let s := s.pageReset (OUT g) 0x1000
  let s := s.pageReset (RT g) 0x1000
  let s := { s with boxes := ((s.boxes.clearRange (GS g) 0x1000).clearRange (OUT g) 0x1000).clearRange (RT g) 0x1000 }
  s.evalS5

/-- A pin-electronics set is switched on or off: its settings stay (R175); a set switched on takes its trims and runs its
self-test, and a spare set serves the channel that the maps give it. -/
def State.chanOn (s : State) (c : Nat) : State :=
  let x := s.chan c
  let g := if c < 512 then c / 32 else c - 512
  let a := FLT + 4 * g
  let k := s.rd a R.FLT_SPMAP_CH
  let served := s.is a R.FLT_SPMAP_SERVES
  let spare := decide (512 ≤ c) && served
  let s := s.setChan c
    { inf := if spare then (s.chan (32 * g + k)).inf else x.inf, iso := x.iso, rstSeen := x.rstSeen,
      serves := if spare then some k else none, testing := !(served && c == 32 * g + k) }
  (s.trimsOn (CH c) 0x1000).gate spare (·.wr (CH (32 * g + k)) R.CH_CSTAT_SPARE 1)
def State.chanOff (s : State) (c : Nat) : State :=
  let x := s.chan c
  let s := s.setChan c { inf := x.inf, iso := x.iso, rstSeen := x.rstSeen }
  (s.wr (CH c) R.CH_CSTAT_SPARE 0).wr (CH c) R.CH_CSTAT_SHADOW 0

/-- The spare that serves retired engine e by the maps. -/
def State.engSpare (s : State) (e : Nat) : Option Nat :=
  ((List.range 4).map fun i => 4 * (e / 128) + i).find? fun i =>
    s.is (FLT + 4 * i) R.FLT_ESMAP_SERVES && s.rd (FLT + 4 * i) R.FLT_ESMAP_ENG == e

/-- A spare is receiving the memories of engine p, which is still powered. -/
def State.engCopied (s : State) (p : Nat) : Bool := (s.eng p).on && s.engines.any fun e => e.2.copyFrom == some p

/-- Engine p is to be powered: its channel is in an owned site of a powered group, and it is neither down nor retired; a spare
that serves none is powered while a group of its bank is. -/
def State.engWanted (s : State) (p : Nat) : Bool :=
  if s.engCopied p then true
  else if p < 512 then
    bitOf (s.ownedMask (p / 32)) (p % 32) && (s.grp (p / 32)).on && (s.engSpare p).isNone && !s.engDown p
  else if s.is (FLT + 4 * (p - 512)) R.FLT_ESMAP_RETIRED then false
  else if s.spareIdle p then (List.range 4).any fun i => (s.grp (4 * ((p - 512) / 4) + i)).on
  else
    let e := s.logEng p
    (s.grp (e / 32)).on && bitOf (s.ownedMask (e / 32)) (e % 32)

/-- The engines that work for group g or are spares of its bank. -/
def engsOf (g : Nat) : List Nat := (List.range 32).map (32 * g + ·) ++ (List.range 4).map (512 + 4 * (g / 4) + ·)

/-- Output o of group g is to be switched on: an output of a channel with its site, the spare's output with the spare, the
others with the group (R9, R4). -/
def State.outWanted (s : State) (g o : Nat) : Bool :=
  (s.grp g).on && (if o < 32 then s.inRun g || bitOf (s.ownedMask g) o else if o = 32 then s.setOn (512 + g)
    else o != 34 || s.variant.coh)

/-- An output is switched on with the written settings, on the grid of the anchor in force (R128), or off. -/
def State.outFollow (s : State) (g o : Nat) : State :=
  let w := s.outWanted g o
  if (s.outSet g o).on = w then s
  else if !w then (s.modOut g o fun _ => {}).setWord (OP g o + R.OP_OSTAT_PEND.off) 0
  else
    let s := s.modOut g o fun x => { x with on := true, live := s.outEn g o }
    s.applyOut g o

/-- The sets and engines of group g follow their ownership: `was` is the mask of sets powered before. -/
def State.unitsFollow (s : State) (g was : Nat) (spareWas : Bool) : State :=
  let now := s.setsOn g
  let s := iter 32 (fun k s =>
    if bitOf was k = bitOf now k then s
    else if bitOf now k then s.chanOn (32 * g + k) else s.chanOff (32 * g + k)) s
  let spareNow := s.setOn (512 + g)
  let s := if spareWas = spareNow then s else if spareNow then s.chanOn (512 + g) else s.chanOff (512 + g)
  let s := iter 36 (fun o s => s.outFollow g o) s
  forAll (engsOf g) (fun p s =>
    let w := s.engWanted p
    if (s.eng p).on = w then s else if w then s.engOn p else s.engOff p) s

/-- Makes a change that moves ownership, mode, site maps or retirement, and switches the units of every group accordingly
(R9). -/
def State.repower (s : State) (f : State → State) : State :=
  let gs := (List.range s.variant.groups).map fun g => (g, s.setsOn g, s.setOn (512 + g), (s.grp g).on)
  let s := f s
  forAll gs (fun (g, was, spareWas, _) s =>
    let want := s.bankMode && s.groupOwned g
    let on := (s.grp g).on
    if !on && !want && was = 0 then s
    else
      let s := if on = want then s else if want then s.grpOn g else s.grpOff g
      s.unitsFollow g (if on && !want then 0xFFFFFFFF else was) spareWas) s

/-! ## The early end of a command (R27, R247, R255) -/

/-- The groups of a site mask that the variant has. -/
def State.groupsOf (s : State) (sites : Nat) : List Nat :=
  (List.range s.variant.groups).filter fun g => groupSites sites g != 0

/-- A step of command h executes on group g. -/
def State.stepOf (s : State) (h g : Nat) : Bool :=
  match (s.grp g).cur with
  | some st => st.steps.any fun t => t.handle == h
  | none => false

/-- A step of command h executes. -/
def State.stepping (s : State) (h : Nat) : Bool := s.groups.any fun e => match e.2.cur with
  | some st => st.steps.any fun t => t.handle == h
  | none => false

/-- Command h has joined or holds the route of group g. -/
def State.onRoute (s : State) (h g : Nat) : Bool :=
  match (s.grp g).route with
  | some r => !r.byReg && (r.holder :: r.joined).contains h
  | none => false

/-- What waits for command h on group g is withdrawn: queue entries, steps, a hop not begun. -/
def State.withdraw (s : State) (h g : Nat) : State :=
  s.modGrp g fun x =>
    { x with queue := x.queue.filter fun e => e.handle != h,
             steps := x.steps.filter fun t => t.handle != h,
             replay := x.replay.filter fun t => t.handle != h,
             hop := match x.hop with
               | some p => if p.src = .cmd h ∧ ¬ p.begun then none else some p
               | none => none }

/-- The command is over with STATUS `code`: its routes end as by a STOP (R88), its engines take STOPPED, and nothing of it
waits any longer. -/
def State.cmdOver (s : State) (h code : Nat) : State :=
  match s.cmd? h with
  | none => s
  | some c =>
    let gs := s.groupsOf c.sites
    let s := forAll gs (fun g s => s.withdraw h g) s
    let s := forAll gs (fun g s => s.gate (s.onRoute h g) (·.endRoute g END_STOP)) s
    let s := s.engStopCmd h
    let s := { s with holds := s.holds.filter fun x => x.granted || x.handle != h }
    s.cmdEnd h code

/-- The steps of command h that have not started report ABORTED (R193). -/
def State.stepsAborted (s : State) (h : Nat) : State :=
  forAll (List.range s.variant.groups) (fun g s =>
    let ts := ((s.grp g).replay ++ (s.grp g).steps).filter fun t => t.handle == h
    let s := s.modGrp g fun x =>
      { x with steps := x.steps.filter fun t => t.handle != h, replay := x.replay.filter fun t => t.handle != h }
    forAll ts (fun t s => s.stepCut g t 5 ST_ABORTED) s) s

/-- The command ends at its next test-step boundary: now, unless a step of it executes (R255). `byMode`: a mode request ends it,
and its steps that have not started report ABORTED (R27, R193, R196). -/
def State.cmdAbort (s : State) (h : Nat) (byMode : Bool := false) : State :=
  let s := s.gate byMode (·.stepsAborted h)
  if s.stepping h then
    let cut (t : TStep) : TStep := if t.handle = h then { t with abort := true } else t
    s.allGrp fun x =>
      { x with cur := x.cur.map fun st => { st with steps := st.steps.map cut },
               steps := x.steps.filter fun t => t.handle != h, replay := x.replay.filter fun t => t.handle != h }
  else s.cmdOver h ST_ABORTED

/-! ## Guarantees disturbed (R266) -/

/-- An action of protection or integrity on group g disturbs the granted guarantees there, a DEADLINE at the head of its queue
among them: EV210 names each holder. -/
def State.disturb (s : State) (g : Nat) : State :=
  let s := forAll (s.holds.filter fun h => h.granted && bitOf h.groups g) (fun h s => s.raise 210 (h.ring + g * 256)) s
  match s.deadlineHead g with
  | some r => s.raise 210 (r + g * 256)
  | none => s

/-! ## Calibration ended early (R324) -/

/-- The group of a calibration unit: sets, leaves, SYS (16), then the outputs of each group at 562 + g. -/
def unitGroup (u : Nat) : Nat := if u < 528 then u / 33 else if u < 560 then (u - 528) / 2 else if u < 562 then 16 else u - 562

/-- Calibration results of unit u. -/
def State.calUnit (s : State) (u : Nat) : CalUnit := Tab.get {} s.cal.units u
def State.setCalUnit (s : State) (u : Nat) (x : CalUnit) : State :=
  s.modCal fun c => { c with units := Tab.set {} c.units u x }

/-- The run ends before its units have finished: the first unit of each group still to finish reports ABANDONED, the others
NOTRUN. -/
def State.calCut (s : State) : State :=
  let todo := s.cal.todo
  let first (u : Nat) : Bool := (todo.find? fun v => unitGroup v == unitGroup u) == some u
  let s := forAll todo (fun u s => s.setCalUnit u { s.calUnit u with status := if first u then 3 else 4 }) s
  s.modCal fun c => { c with todo := [], reached := [], work := [], fresh := [] }

/-- The run is over: LASTRUN, CAL.RUNS and EV216 (R323, R324). -/
def State.calOver (s : State) (last : Nat) : State :=
  let s := s.modCal fun c => { c with run := false, ranBoot := true, runSec := s.reco.opsec }
  let s := s.wr CAL R.CAL_STAT_LASTRUN last
  (s.inc CAL R.CAL_RUNS).raise 216 last

/-! ## Entry to SAFE (R10, R27) -/

/-- SAFE_CAUSE codes (R26). -/
def SC_VINLOSS : Nat := 1
def SC_SHUTDOWN : Nat := 2
def SC_SENSORS : Nat := 3
def SC_PHASES : Nat := 4
def SC_SYSLOST : Nat := 5
def SC_SELFTEST : Nat := 6
def SC_REQUEST : Nat := 7

/-- An erase in progress is stopped; its journal entry stays open (R374). -/
def State.eraseStop (s : State) : State := (s.modReco fun r => { r with erase := none, eraseQ := [] }).recState

/-- Slot b of the calibration store holds part of a store: neither erased nor valid (R331). -/
def Die.calCut (d : Die) (b : Bool) : Die :=
  if b then { d with calB := none, calLostB := true } else { d with calA := none, calLostA := true }

/-- CAL.SLOT with its live bits VALA and VALB. -/
def State.calSlotWord (s : State) : Nat :=
  let w := s.rd CAL R.CAL_SLOT_ACT + 8 * s.rd CAL R.CAL_SLOT_LASTSTORE
  w + 2 * b2n s.reco.die.calA.isSome + 4 * b2n s.reco.die.calB.isSome

/-- A calibration store ends with LASTSTORE `res`: CAL.STORES and EV219 (R329). -/
def State.calStored (s : State) (res : Nat) : State :=
  let s := (s.wr CAL R.CAL_STAT_STOREBUSY 0).wr CAL R.CAL_SLOT_LASTSTORE res
  let s := s.inc CAL R.CAL_STORES
  s.raise 219 s.calSlotWord

/-- The store of a commit failed, or was cut short: EV206, and EV233 with the failed store in bit 8 (R388). -/
def State.commitFail (s : State) : State := (s.raise 206 1).raise 233 (s.prot.kind + 2 * 16 + 256)

/-- Slot writes in progress stop without their valid mark (R330); one whose block was still to be erased has not begun. -/
def State.slotStop (s : State) : State :=
  let s := s.gate s.cal.storing.isSome fun s =>
    let b := s.cal.storing.getD false
    let s := s.gate (!s.reco.eraseQ.contains (.calSlot b)) fun s => s.modReco fun r => { r with die := r.die.calCut b }
    (s.modCal fun c => { c with storing := none }).calStored 2
  let s := s.gate s.flt.store.isSome fun s =>
    ((s.modFlt fun f => { f with store := none }).inc FLT R.FLT_STOREFAIL).raise 206 0
  let s := s.modFlt fun f => { f with storeAgain := false }
  s.gate (s.prot.store.isSome || s.prot.storeNext) fun s =>
    (s.modProt fun p => { p with store := none, storeNext := false }).commitFail

/-- A mode request pending at the entry is evaluated again from SAFE (R27). -/
def State.requestInSafe (s : State) : State :=
  if !s.power.reqPending then s
  else
    let t := s.power.reqTarget
    if t = 0 then (s.modPower fun p => { p with downStep := if p.downStep = 3 then 3 else 2, armWait := false }).downGo
    else s.modeResult (if t = 7 then 0 else if t = 2 then (if s.power.reqKeyway then 4 else 3) else 1)

/-- The descriptors of ring r that are submitted and not yet fetched complete SAFE (R29, R258). -/
def State.ringSafe (s : State) (r : Nat) : State :=
  let n := (s.ring r).depth
  s.modRing r fun x =>
    { x with safeLeft := (s.rd (RB r) R.HIF_RNEXT_SQTAIL + n - s.rd (RB r) R.HIF_RSTAT_SQHEAD % n) % n }

/-- The module enters SAFE with a cause of R26: routes and single hops end with SAFE, executing steps are cut with outcome SAFE,
those that have not started are ABORTED (R193, R196), descriptors complete SAFE, the BANK domains go off, and a SAFE record is taken, but at a VIN loss after PDRDY (R41). The CLK domain follows the record
(R10). At VIN loss the BANK domains and the writes in progress follow in the steps of R37. -/
def State.enterSafe (s : State) (cause : Nat) : State :=
  let s := (s.wr GLB R.GLB_MODE_SAFE_CAUSE cause).modTherm fun t => { t with safeRound := true }
  let gs := List.range s.variant.groups
  let s := forAll gs (fun g s => s.disturb g) s
  let s := forAll gs (fun g s =>
    let s := s.gate ((s.grp g).route.isSome) (·.routeEnd g END_SAFE)
    s.gate (s.is (GS g) R.GS_HOPCTL_GO) (·.hopctlDone g 6)) s
  let s := forAll gs (fun g s =>
    let x := s.grp g
    let s := forAll ((match x.cur with | some st => st.steps | none => []) ++ x.replay) (fun t s => s.stepCut g t 6 ST_SAFE) s
    forAll x.steps (fun t s => s.stepCut g t 5 ST_SAFE) s) s
  let s := forAll (s.cmds.map (·.handle)) (fun h s => match s.cmd? h with
    | some c => if c.phase = .done then s else s.cmdEnd h ST_SAFE
    | none => s) s
  let s := iter 16 (fun r s => s.ringSafe r) s
  let s := { s with holds := s.holds.filter (·.granted) }
  let s := s.allGrp fun x => { x with queue := [], steps := [], replay := [], cur := none }
  let s := s.gate s.cal.run fun s => s.calCut.calOver 4
  let s := s.gate (cause != SC_VINLOSS) (·.slotStop.eraseStop)
  let s := if cause = SC_VINLOSS then s.setMode MODE_SAFE else s.repower (·.setMode MODE_SAFE)
  let s := s.recCount 7
  let s := s.gate (cause != SC_VINLOSS || !s.is GLB R.GLB_MODE_PDRDY) fun s =>
    (s.trigger 1).modPower fun p => { p with safeRecPending := true }
  s.requestInSafe

/-- A SAFE cause of R26 arises in a running mode: the module enters SAFE; a lower code that arises in the housekeeping round of the
entry replaces the recorded one. DESIGN CHOICE (assumption 78): R17 lets SYS that is lost after its first lock lead to SAFE, and
R27's complete table has no such row from BOOT; a cause that arises in BOOT leaves the mode to the end of B5. -/
def State.safeCause (s : State) (cause : Nat) : State :=
  if 2 ≤ s.mode ∧ s.mode ≤ 6 then s.enterSafe cause
  else if s.mode = MODE_SAFE ∧ s.therm.safeRound = true ∧ cause ≠ s.rd GLB R.GLB_MODE_SAFE_CAUSE then
    (s.wr GLB R.GLB_MODE_SAFE_CAUSE (satTo (s.rd GLB R.GLB_MODE_SAFE_CAUSE) cause)).recCount 7
  else s

end Sys2Proof.Machine
end

