-- ==== Sys2Proof/Machine/FaultOps.lean ====
section
/-! DEFINITION. Machine/FaultOps.lean: what a fault occurrence does to each kind of unit (R334 to R340): its record, the
takeover by the partner, and retirement. -/

namespace Sys2Proof.Machine

/-! ## Causes and units (R334, R346) -/

def FC_SELFTEST : Nat := 1
def FC_LEVEL : Nat := 2
def FC_TIMING : Nat := 3
def FC_ISOL : Nat := 4
def FC_SUPPLY : Nat := 5
def FC_LOCKFAIL : Nat := 6
def FC_WATCHDOG : Nat := 7
def FC_TWIN : Nat := 8
def FC_UNLOCK : Nat := 9
def FC_HOLDCHK : Nat := 10
def FC_PARITY : Nat := 11

/-- The unit number of the set of channel c (or of the spare set at 512 + g), of leaf n, of physical engine p. -/
def setUnit (c : Nat) : Nat := if c < 512 then 33 * (c / 32) + c % 32 else 33 * (c - 512) + 32
def leafUnit (n : Nat) : Nat := 528 + n
def engUnit (p : Nat) : Nat := 562 + p

/-- The set of a set unit: channel number, or 512 + g. -/
def unitSet (u : Nat) : Nat := if u % 33 = 32 then 512 + u / 33 else 32 * (u / 33) + u % 33

/-- The group whose events name unit u; 16 for a SYS leaf. A spare engine's events are those of the engine it serves, or of its
bank's first group. -/
def State.faultGroup (s : State) (u : Nat) : Nat :=
  if u < 528 then u / 33
  else if u < 562 then (u - 528) / 2
  else
    let p := u - 562
    if s.spareIdle p then 4 * ((p - 512) / 4) else s.logEng p / 32

/-- Device time in operating milliseconds. -/
def State.opMs (s : State) (ms : Nat) : Nat := s.reco.opsec * 1000 + ms

/-! ## Occurrences (R335) -/

/-- FLT.LAST is written. -/
def State.fltLast (s : State) (u cause outcome occ : Nat) : State :=
  let s := s.wr FLT R.FLT_LAST_UNIT u
  let s := s.wr FLT R.FLT_LAST_CAUSE cause
  let s := s.wr FLT R.FLT_LAST_OUTCOME outcome
  s.wr FLT R.FLT_LAST_OCC occ

/-- The event of unit u: `k` of its group, or `ev` for a SYS leaf, with FLT.LAST as DATA. -/
def State.fltEvent (s : State) (u k ev : Nat) : State :=
  let d := (s.word (FLT + R.FLT_LAST_UNIT.off)).toNat
  let g := s.faultGroup u
  if u < 562 ∧ g = 16 then s.raise ev d else s.graise g k d

/-- Times of unit u's last occurrences that lie within 10.000 s of time t. -/
def State.recentFaults (s : State) (u t : Nat) : List Nat := (Tab.get [] s.flt.hist u).filter fun x => decide (t ≤ x + 10000)

/-- The occurrence is recorded: time, FLT.LAST, EV(12g + 9) or EV230. -/
def State.occurred (s : State) (u cause t : Nat) : State :=
  let old := Tab.get [] s.flt.hist u
  let now := (old ++ [t]).drop (old.length + 1 - 3)
  let s := s.modFlt fun f => { f with hist := Tab.set [] f.hist u now }
  let s := s.fltLast u cause 1 (s.recentFaults u t).length
  s.fltEvent u 9 230

/-- The occurrence at t is the third within 10 s of the first of the three. -/
def State.thirdFault (s : State) (u t : Nat) : Bool := decide (3 ≤ (s.recentFaults u t).length)

/-- The occurrence was transient: it is counted, and FLT.LAST says so. -/
def State.transient (s : State) (u cause : Nat) : State :=
  (s.inc FLT R.FLT_TRANSCNT).fltLast u cause 0 (s.rd FLT R.FLT_LAST_OCC)

/-! ## The stored maps (R340) -/

/-- The addresses of the retirement maps. -/
def mapAddrs : List Nat :=
  (List.range 16).map (fun g => FLT + 0x10 + 4 * g) ++ (List.range 16).map (fun g => FLT + 0x50 + 4 * g)
    ++ [FLT + 0x90, FLT + 0x94] ++ (List.range 16).map (fun i => FLT + 0xA0 + 4 * i)
    ++ (List.range 16).map (fun i => FLT + 0xE0 + 4 * i)

/-- The configuration image with the present retirement maps. -/
def State.imageWithMaps (s : State) : Tab Word :=
  mapAddrs.foldl (fun t a => Tab.set (resetWord s.variant a) t a (s.word a)) s.image

/-- The slot that a store writes is B: A holds the newest valid generation (R366). -/
def Die.storeB (d : Die) : Bool :=
  match d.slotA, d.slotB with
  | some a, some b => decide (b.1 ≤ a.1)
  | some _, none => true
  | none, _ => false

/-- The module stores the image with the new maps; a store already running is followed by another. -/
def State.storeMaps (s : State) : State :=
  if s.flt.store.isSome ∨ s.prot.store.isSome ∨ s.prot.storeNext = true then s.modFlt fun f => { f with storeAgain := true }
  else
    let b := s.reco.die.storeB
    (s.modFlt fun f => { f with store := some b }).eraseStart (.cfgSlot b)

/-- A retirement, or a unit going down, is reported and counted (R338). -/
def State.retireReport (s : State) (u cause outcome : Nat) : State :=
  let s := s.fltLast u cause outcome (s.rd FLT R.FLT_LAST_OCC)
  let s := s.inc FLT R.FLT_PERMCNT
  let s := s.gate (outcome == 3) (·.inc FLT R.FLT_DOWNCNT)
  let s := s.recCount 6
  s.fltEvent u 10 231

/-! ## Pin-electronics sets -/

/-- The spare set's own fields of FLT.SPMAP. -/
def SPM (g : Nat) : Nat := FLT + 4 * g

/-- The spare set of group g is powered, not retired, and serves and shadows nothing. -/
def State.spareFree (s : State) (g : Nat) : Bool :=
  s.setOn (512 + g) && !s.is (SPM g) R.FLT_SPMAP_SERVES && (s.chan (512 + g)).serves.isNone

/-- The spare set shadows position k: O32 takes the settings of its output (R180, R120). -/
def State.shadow (s : State) (g k : Nat) : State :=
  let s := s.modChan (512 + g) fun x => { x with serves := some k, inf := (s.chan (32 * g + k)).inf }
  let o := s.outSet g k
  let s := s.modOut g 32 fun x => { o with on := x.on }
  s.wr (CH (32 * g + k)) R.CH_CSTAT_SHADOW 1

/-- The spare set is released; its own settings are to be applied again (R180). -/
def State.unshadow (s : State) (g k : Nat) : State :=
  let s := s.modChan (512 + g) fun x => { x with serves := none }
  let s := s.modOut g 32 fun x => { x with live := x.on && s.outEn g 32 }
  (s.wr (CH (32 * g + k)) R.CH_CSTAT_SHADOW 0).wr (CH (512 + g)) R.CH_CSTAT_PEND 1

/-- The spare takes the pin of position k at the first quiet point. -/
def State.toSpare (s : State) (g k : Nat) : State :=
  (s.shadow g k).modChan (32 * g + k) fun x => { x with swing := some true }

/-- A released spare goes to the lowest-numbered channel whose set waits for it after an occurrence (R336, R345). -/
def State.takeSpare (s : State) (g : Nat) : State :=
  let waits (k : Nat) : Bool :=
    let x := s.chan (32 * g + k)
    x.cause != 0 && !x.iso && x.swing.isNone && !s.is (CH (32 * g + k)) R.CH_CSTAT_SPARE
  if !s.spareFree g then s
  else match (List.range 32).find? waits with
    | some k => s.toSpare g k
    | none => s

/-- Rolling calibration of group g. -/
def State.roll (s : State) (g : Nat) : Roll := Tab.get {} s.cal.rolls g
def State.setRoll (s : State) (g : Nat) (x : Roll) : State :=
  let s := s.modCal fun c => { c with rolls := Tab.set {} c.rolls g x }
  s.flag CAL R.CAL_STAT_ROLLACT (s.cal.rolls.any fun e => e.2.step != 0)

/-- Rolling calibration of group g is abandoned (R327): the set keeps its old values and reports ABANDONED; the spare is
released at once when it has not taken the pin, otherwise after the swing back at the next quiet point. -/
def State.rollAbort (s : State) (g : Nat) : State :=
  let r := s.roll g
  let c := 32 * g + r.ch
  let mark (s : State) : State := s.setCalUnit (33 * g + r.ch) { s.calUnit (33 * g + r.ch) with status := 3 }
  if r.step = 1 then
    let s := (mark s).modChan c fun x => { x with swing := none }
    ((s.unshadow g r.ch).setRoll g { r with step := 0, abandoned := false }).takeSpare g
  else if r.step = 2 then
    let s := (mark s).modChan c fun x => { x with cal := false, swing := some false }
    s.setRoll g { r with step := 3, abandoned := true }
  else s

/-- The set of channel c is down: unpowered, its pin disconnected. -/
def State.setDown (s : State) (c cause : Nat) : State :=
  let a := FLT + 4 * (c / 32)
  let s := s.repower fun s => s.wr a R.FLT_CHDOWN (setBit (s.rd a R.FLT_CHDOWN) (c % 32) true)
  let s := s.modChan c fun x => { x with cause := 0, tries := 0, swing := none, iso := true }
  s.retireReport (setUnit c) cause 3

/-- The set of channel c, or a spare set, is retired, or its channel goes down (R338). -/
def State.retireSet (s : State) (c cause : Nat) : State :=
  if 512 ≤ c then
    let g := c - 512
    let served := if s.is (SPM g) R.FLT_SPMAP_SERVES then some (s.rd (SPM g) R.FLT_SPMAP_CH) else (s.chan c).serves
    let s := s.rollAbort g
    let s := s.repower fun s => (s.wr (SPM g) R.FLT_SPMAP_SPRET 1).wr (SPM g) R.FLT_SPMAP_SERVES 0
    let s := s.retireReport (setUnit c) cause 2
    let s := match served with
      | some k =>
        let s := s.unshadow g k
        if s.is (CH (32 * g + k)) R.CH_CSTAT_SPARE && (s.chan (32 * g + k)).iso then s.setDown (32 * g + k) cause else s
      | none => s
    s.storeMaps
  else
    let g := c / 32
    let k := c % 32
    let held := (s.chan (512 + g)).serves == some k
    let s := if held || s.spareFree g then
        let s := s.gate (!held) (·.toSpare g k)
        let s := s.wr (SPM g) R.FLT_SPMAP_CH k
        let s := s.wr (SPM g) R.FLT_SPMAP_SERVES 1
        let s := s.modChan c fun x => { x with cause := 0, tries := 0, iso := s.is (CH c) R.CH_CSTAT_SPARE }
        s.retireReport (setUnit c) cause 2
      else s.setDown c cause
    s.storeMaps

/-- The spare of group g has become free through un-retiring: the lowest-numbered down channel is retired to it (R340). -/
def State.spareForDown (s : State) (g : Nat) : State :=
  let d := s.rd (FLT + 4 * g) R.FLT_CHDOWN
  match (List.range 32).find? fun k => bitOf d k with
  | none => s
  | some k =>
    if !s.spareFree g then s
    else
      let s := s.repower fun s => s.wr (FLT + 4 * g) R.FLT_CHDOWN (setBit d k false)
      let s := (s.wr (SPM g) R.FLT_SPMAP_CH k).wr (SPM g) R.FLT_SPMAP_SERVES 1
      ((s.toSpare g k).retireReport (33 * g + k) 0 2).storeMaps

/-- The spare is taken for the set of channel c, or its isolation switch opens where the spare is not free (R336). -/
def State.setTakeover (s : State) (c : Nat) : State :=
  let g := c / 32
  let k := c % 32
  let r := s.roll g
  if r.step ≠ 0 ∧ r.ch = k then (s.setRoll g { r with step := 0 }).modChan c fun x => { x with cal := false, iso := true }
  else if (s.chan (512 + g)).serves = some k then s
  else if s.spareFree g then s.toSpare g k
  else if r.step ≠ 0 then s.rollAbort g
  else s.modChan c fun x => { x with iso := true }

/-- An occurrence of causes 2 to 5 on the set of channel c or a spare set (R335, R336, R338): results of the channel carry
SUSPECT, the spare takes the pin, and the check is retried; the third occurrence retires the set. -/
def State.setFault (s : State) (c cause t : Nat) : State :=
  let u := setUnit c
  let s := s.occurred u cause t
  let s := s.gate (decide (c < 512)) (·.affect (c / 32) (2 ^ (c % 32)))
  if s.thirdFault u t then s.retireSet c cause
  else
    let s := s.modChan c fun x => { x with cause := cause, tries := 0 }
    if c < 512 then s.setTakeover c else (s.rollAbort (c - 512)).modChan c fun x => { x with iso := true }

/-! ## Leaves -/

/-- Group g is down: both leaves are retired. -/
def State.grpDown (s : State) (g : Nat) : Bool := s.leafRetired (2 * g) && s.leafRetired (2 * g + 1)

/-- Every EXEC and HOP that runs or waits on a group that is down completes FAULT (R338). -/
def State.grpFault (s : State) (g : Nat) : State :=
  let s := s.disturb g
  let s := s.endRoute g END_FAULT
  let hs := (s.cmds.filter fun c => (c.op == 1 || c.op == 2) && c.phase != .done && groupSites c.sites g != 0).map (·.handle)
  forAll hs (fun h s => s.cmdOver h ST_FAULT) s

/-- Leaf n is retired (R338): it stays OFF; a group leaf leaves its group GUARDED without a guard, a SYS leaf leaves the other
to serve alone, and the loss of both is the group going down, or SYS lost. -/
def State.retireLeaf (s : State) (n cause : Nat) : State :=
  let s := s.leafOff n
  let s := s.setLeaf n {}
  if 32 ≤ n then
    let s := s.wr FLT R.FLT_SYSRET (setBit (s.rd FLT R.FLT_SYSRET) (n - 32) true)
    (s.retireReport (leafUnit n) cause 2).storeMaps
  else
    let g := n / 2
    let s := s.wr FLT R.FLT_LEAFRET (setBit (s.rd FLT R.FLT_LEAFRET) n true)
    let s := s.wr (GS g) R.GS_SWSTAT_POLIF 0
    let s := s.wr (GS g) R.GS_SWSTAT_POLPEND (s.rd (GS g) R.GS_POLICY_POL)
    let s := s.retireReport (leafUnit n) cause 2
    let s := s.gate (s.grpDown g) (·.grpFault g)
    s.storeMaps

/-- An occurrence on leaf n: recorded, and the leaf is retried until it reaches LOCKED; the third occurrence, or a failed
self-test, retires it. -/
def State.leafFault (s : State) (n cause t : Nat) : State :=
  let u := leafUnit n
  let s := s.occurred u cause t
  let s := s.modLeaf n fun l => { l with cause := cause }
  if s.thirdFault u t || cause == FC_SELFTEST then s.retireLeaf n cause else s

/-! ## Engines -/

/-- A free spare engine of bank b: powered, not retired, serving and copying none; the lowest-numbered. -/
def State.freeSpare (s : State) (b : Nat) : Option Nat :=
  ((List.range 4).map fun i => 512 + 4 * b + i).find? fun p =>
    !s.is (FLT + 4 * (p - 512)) R.FLT_ESMAP_RETIRED && s.spareIdle p && (s.eng p).on && (s.eng p).copyFrom.isNone
      && !(s.eng p).failing && !(s.eng p).returning

/-- Spare p is to receive the memories of logical engine e, which are in engine `src` (R336). -/
def State.engCopy (s : State) (p e src : Nat) : State :=
  let s := s.wr (ENG p) R.ENG_SERVES_ENG e
  s.modEng p fun x => { x with copyFrom := some src, badCopy := false }

/-- Logical engine e is down (R338). -/
def State.engGone (s : State) (e cause : Nat) : State :=
  let a := FLT + 4 * (e / 32)
  let s := s.repower fun s => s.wr a R.FLT_EDOWN (setBit (s.rd a R.FLT_EDOWN) (e % 32) true)
  s.retireReport (engUnit e) cause 3

/-- Engine p is retired (R338): the spare that serves it, or a free spare, serves it from now on; otherwise it is down. A
retired spare's engine moves to the next free spare. -/
def State.retireEng (s : State) (p cause : Nat) : State :=
  let e := s.logEng p
  let b := if p < 512 then p / 128 else (p - 512) / 4
  let serve (s : State) : State :=
    let q := s.physEng e
    let q := if q ≠ p ∧ 512 ≤ q then some q
      else ((List.range 4).map fun i => 512 + 4 * b + i).find? fun q =>
        q != p && (s.eng q).copyFrom.isSome && s.rd (ENG q) R.ENG_SERVES_ENG == e
    match (match q with | some q => some q | none => s.freeSpare b) with
    | some q =>
      let s := s.gate ((s.eng q).copyFrom.isNone && s.physEng e != q) (·.engCopy q e p)
      let s := s.wr (FLT + 4 * (q - 512)) R.FLT_ESMAP_ENG e
      let s := s.wr (FLT + 4 * (q - 512)) R.FLT_ESMAP_SERVES 1
      s.gate (decide (p < 512)) (·.retireReport (engUnit p) cause 2)
    | none => s.engGone e cause
  let s := s.modEng p fun x => { x with failing := false, tries := 0, returning := false }
  let s := if p < 512 then serve s
    else
      let idle := s.spareIdle p
      let a := FLT + 4 * (p - 512)
      let mapped := s.is a R.FLT_ESMAP_SERVES
      let s := (s.wr a R.FLT_ESMAP_RETIRED 1).wr a R.FLT_ESMAP_SERVES 0
      let s := s.retireReport (engUnit p) cause 2
      let s := s.wr (ENG p) R.ENG_SERVES_VALID 0
      if idle then s
      else if mapped then serve s
      else match s.freeSpare b with
        | some q => s.engCopy q e p
        | none => s
  (s.repower id).storeMaps

/-- An occurrence of PARITY on engine p: a free spare takes over, and the engine runs its self-test (R335, R336). -/
def State.engFault (s : State) (p cause t : Nat) : State :=
  let u := engUnit p
  let e := s.logEng p
  let s := s.occurred u cause t
  let s := s.affect (e / 32) (2 ^ (e % 32))
  if s.thirdFault u t then s.retireEng p cause
  else
    let s := s.modEng p fun x => { x with failing := true, tries := 0, testing := true }
    if 512 ≤ p ∧ s.spareIdle p = true then s
    else match s.freeSpare (e / 128) with
      | some q => s.engCopy q e p
      | none => s

end Sys2Proof.Machine
end

