-- ==== Sys2Proof/Machine/Float.lean ====
section
/-! DEFINITION. Machine/Float.lean: binary32 arithmetic as R228 gives it. A finite number is held exactly, as a signed whole
number of units of 2^−149; every result is rounded once from the exact value and then flushed. -/

namespace Sys2Proof.Machine

/-! ## Operands -/

/-- The sign bit. -/
def fNeg (w : Word) : Bool := 2 ^ 31 ≤ w.toNat

/-- The exponent field. -/
def fExp (w : Word) : Nat := getBits w 23 8

/-- The operand is a NaN. -/
def isNan (w : Word) : Bool := fExp w == 255 && getBits w 0 23 != 0

/-- The operand is an infinity. -/
def isInf (w : Word) : Bool := fExp w == 255 && getBits w 0 23 == 0

/-- The operand is zero; a subnormal operand is taken as zero of its sign. -/
def isZero (w : Word) : Bool := fExp w == 0

/-- The magnitude of a finite operand in units of 2^−149. -/
def fMag (w : Word) : Nat := if fExp w = 0 then 0 else (2 ^ 23 + getBits w 0 23) * 2 ^ (fExp w - 1)

/-- The value of a finite operand in units of 2^−149. -/
def fVal (w : Word) : Int := if fNeg w then -(fMag w : Int) else (fMag w : Int)

/-- Infinity, or zero, of a sign. -/
def fInf (neg : Bool) : Word := if neg then 0xFF800000 else 0x7F800000
def fZero (neg : Bool) : Word := if neg then 0x80000000 else 0

/-- The result of an invalid operation with no NaN operand. -/
def fInvalid : Word := 0x7FC00000

/-- The first NaN of a list of operands, quietened, its sign and other payload bits kept. -/
def firstNan (l : List Word) : Option Word := (l.find? isNan).map fun w => w ||| 0x400000

/-! ## Rounding -/

/-- `num / den` rounded to the nearest whole number, ties to even. -/
def roundDiv (num den : Nat) : Nat :=
  let q := num / den
  let r := num % den
  if den < 2 * r ∨ (2 * r = den ∧ q % 2 = 1) then q + 1 else q

/-- The binary32 number nearest to `num / den` units of 2^−149, ties to even, then flushed: a magnitude below 2^−126 after
rounding is zero of its sign. -/
def fRound (neg : Bool) (num den : Nat) : Word :=
  let q := num / den
  let k := if q < 2 ^ 24 then 0 else Nat.log2 q - 23
  let m := roundDiv num (den * 2 ^ k)
  let m' := if m = 2 ^ 24 then 2 ^ 23 else m
  let e := if m = 2 ^ 24 then k + 2 else k + 1
  if m < 2 ^ 23 then fZero neg
  else if 255 ≤ e then fInf neg
  else BitVec.ofNat 32 ((if neg then 2 ^ 31 else 0) + e * 2 ^ 23 + (m' - 2 ^ 23))

/-- A signed exact value `i / den` units, rounded; an exact zero is +0. -/
def fRoundInt (i : Int) (den : Nat) : Word := fRound (decide (i < 0)) i.natAbs den

/-- A whole number as binary32. -/
def fOfInt (i : Int) : Word := fRoundInt (i * 2 ^ 149) 1

/-! ## Operations (R228) -/

/-- The sum of exact values with the zero rule of round-to-nearest: an exact zero is −0 only when both addends are −0. -/
def fSumZero (na nb : Bool) (i : Int) (den : Nat) : Word :=
  if i = 0 then fZero (na && nb) else fRoundInt i den

/-- a + b. -/
def fAdd (a b : Word) : Word :=
  match firstNan [a, b] with
  | some n => n
  | none =>
    if isInf a then (if isInf b && fNeg a != fNeg b then fInvalid else fInf (fNeg a))
    else if isInf b then fInf (fNeg b)
    else fSumZero (fNeg a && isZero a) (fNeg b && isZero b) (fVal a + fVal b) 1

/-- a − b. -/
def fSub (a b : Word) : Word :=
  match firstNan [a, b] with
  | some n => n
  | none => fAdd a (b ^^^ 0x80000000)

/-- a × b. -/
def fMul (a b : Word) : Word :=
  match firstNan [a, b] with
  | some n => n
  | none =>
    let neg := fNeg a != fNeg b
    if (isInf a && isZero b) || (isZero a && isInf b) then fInvalid
    else if isInf a || isInf b then fInf neg
    else if isZero a || isZero b then fZero neg
    else fRound neg (fMag a * fMag b) (2 ^ 149)

/-- d + a × b, or d − a × b when `n`, rounded once; NaN operands in the order a, b, d. -/
def fMac (n : Bool) (d a b : Word) : Word :=
  match firstNan [a, b, d] with
  | some x => x
  | none =>
    let neg := (fNeg a != fNeg b) != n
    if (isInf a && isZero b) || (isZero a && isInf b) then fInvalid
    else if isInf a || isInf b then (if isInf d && fNeg d != neg then fInvalid else fInf neg)
    else if isInf d then fInf (fNeg d)
    else
      let p : Int := fVal a * fVal b
      fSumZero (fNeg d && isZero d) (neg && (isZero a || isZero b)) (fVal d * 2 ^ 149 + (if n then -p else p)) (2 ^ 149)

/-- a / b, correctly rounded; a finite nonzero number over zero is an infinity. -/
def fDiv (a b : Word) : Word :=
  match firstNan [a, b] with
  | some n => n
  | none =>
    let neg := fNeg a != fNeg b
    if (isInf a && isInf b) || (isZero a && isZero b) then fInvalid
    else if isInf a || isZero b then fInf neg
    else if isInf b || isZero a then fZero neg
    else fRound neg (fMag a * 2 ^ 149) (fMag b)

/-- The whole square root of a number below 4^fuel. -/
def isqrt : Nat → Nat → Nat
  | 0, _ => 0
  | fuel + 1, n =>
    let r := 2 * isqrt fuel (n / 4)
    if (r + 1) * (r + 1) ≤ n then r + 1 else r

/-- The square root, correctly rounded: the root's floor with a sticky half below it. -/
def fSqrt (a : Word) : Word :=
  match firstNan [a] with
  | some n => n
  | none =>
    if isZero a then fZero (fNeg a)
    else if fNeg a then fInvalid
    else if isInf a then fInf false
    else
      let y := fMag a * 2 ^ 149
      let r := isqrt 220 y
      fRound false (2 * r + (if r * r = y then 0 else 1)) 2

/-- binary32 to int32: nearest, ties to even, saturating; a NaN gives 0x8000_0000. -/
def fToInt (a : Word) : Word :=
  if isNan a then 0x80000000
  else if isInf a then (if fNeg a then 0x80000000 else 0x7FFFFFFF)
  else
    let m := roundDiv (fMag a) (2 ^ 149)
    let i : Int := clampInt (-(2 ^ 31)) (2 ^ 31 - 1) (if fNeg a then -(m : Int) else m)
    BitVec.ofInt 32 i

/-- FCMP conditions 0 EQ, 1 LT, 2 LE, 3 UN (R229). -/
def fCmp (cond : Nat) (a b : Word) : Bool :=
  let nan := isNan a || isNan b
  let key (w : Word) : Int := if isInf w then (if fNeg w then -(2 ^ 300) else 2 ^ 300) else fVal w
  if cond = 3 then nan
  else if nan then false
  else if cond = 0 then decide (key a = key b)
  else if cond = 1 then decide (key a < key b)
  else decide (key a ≤ key b)

/-! ## Angles (R222, R228) -/

/-- π × 2^64 and π/2 × 2^64, rounded. -/
def pi64 : Nat := 57952155664616982739
def halfPi64 : Nat := 28976077832308491370

/-- The Euler series of the arc tangent in units of 2^−64: `t` is the term, `q` the ratio y²/(x²+y²). -/
def atanTail (q : Nat) : Nat → Nat → Nat → Nat
  | 0, _, t => t
  | fuel + 1, n, t => t + atanTail q fuel (n + 1) (t * q * (2 * n + 2) / (2 * n + 3) / 2 ^ 64)

/-- atan(y / x) for 0 ≤ y ≤ x, 0 < x, in units of 2^−64 radian. -/
def atanSmall (y x : Nat) : Nat :=
  let d := x * x + y * y
  atanTail (y * y * 2 ^ 64 / d) 72 0 (x * y * 2 ^ 64 / d)

/-- atan2(y, x) in units of 2^−64 degree, in (−180, 180], for operands not both 0. -/
def atan2Deg (y x : Int) : Int :=
  let yy := y.natAbs
  let xx := x.natAbs
  let first : Nat := (if yy ≤ xx then atanSmall yy xx else halfPi64 - atanSmall xx yy) * 180 * 2 ^ 64 / pi64
  let a : Int := if 0 ≤ x then (first : Int) else 180 * 2 ^ 64 - (first : Int)
  if y < 0 then -a else a

/-- FATN (R228): atan2(a, b) in degrees with the unit's error. -/
def fAtan (a b : Word) : Word :=
  match firstNan [a, b] with
  | some n => n
  | none =>
    if isInf a || isInf b || (isZero a && isZero b) then Config.fatn a b
    else
      let e : Int := (Config.fatnErr a b).val
      let t : Int := atan2Deg (fVal a) (fVal b) + (e - 1000) * 2 ^ 64 / 1000000
      let t := if t ≤ -(180 * 2 ^ 64) then t + 360 * 2 ^ 64 else if 180 * 2 ^ 64 < t then t - 360 * 2 ^ 64 else t
      let r := fRoundInt (t * 2 ^ 85) 1
      if r = 0xC3340000 then 0x43340000 else r

/-- The alternating Taylor tail of cosine or sine in units of 2^−64: `x2` is the square of the angle. -/
def trigTail (x2 : Nat) : Nat → Nat → Int → Int
  | 0, _, t => t
  | fuel + 1, n, t => t + trigTail x2 fuel (n + 2) (-(t * x2) / ((n + 1) * (n + 2) * 2 ^ 64))

/-- cos and sin of a first-quadrant phase r / 2^30 of a right angle, in units of 2^−64. -/
def cosQ (r : Nat) : Int :=
  let x := r * halfPi64 / 2 ^ 30
  trigTail (x * x / 2 ^ 64) 14 0 (2 ^ 64)
def sinQ (r : Nat) : Int :=
  let x := r * halfPi64 / 2 ^ 30
  trigTail (x * x / 2 ^ 64) 14 1 x

/-- 65,535 times a value in units of 2^−64, rounded to the nearest whole number. -/
def scaleTrig (v : Int) : Int := (2 * 65535 * v + 2 ^ 64) / 2 ^ 65

/-- 65,535 × cos Θ for the 32-bit phase Θ, rounded (R222). -/
def cosPhase (t : Nat) : Int :=
  let r := t % 2 ^ 30
  scaleTrig (match t / 2 ^ 30 % 4 with
    | 0 => cosQ r
    | 1 => -sinQ r
    | 2 => -cosQ r
    | _ => sinQ r)

/-- 65,535 × sin Θ, rounded. -/
def sinPhase (t : Nat) : Int := cosPhase ((t + 3 * 2 ^ 30) % 2 ^ 32)

/-- C and S as the table gives them. -/
def lkiCos (t : Nat) : Int := cosPhase t + ((Config.lkiCosErr (BitVec.ofNat 32 t)).val : Int) - 1
def lkiSin (t : Nat) : Int := sinPhase t + ((Config.lkiSinErr (BitVec.ofNat 32 t)).val : Int) - 1

end Sys2Proof.Machine
end

