-- ==== Sys2Proof/Machine/Engine.lean ====
section
/-! DEFINITION. Machine/Engine.lean: the channel engines (chapter 10): one instruction each, streams, exceptions, starting and
stopping. The operand `p` of an instruction row is the physical engine: E0 to E511, then ES0 to ES15 at 512. -/

namespace Sys2Proof.Machine

/-! ## Fields and registers (R214, R227) -/

def fieldD (w : Word) : Nat := getBits w 22 4
def fieldA (w : Word) : Nat := getBits w 18 4
def fieldB (w : Word) : Nat := getBits w 14 4
def immS (w : Word) : Int := toSigned 18 (getBits w 0 18)

/-- General register i; g0 reads 0. -/
def Engine.gr (x : Engine) (i : Nat) : Word := if i = 0 then 0 else Tab.get 0 x.g i

/-- Writes general register i; a write to g0 is discarded. -/
def Engine.setG (x : Engine) (i : Nat) (v : Word) : Engine := if i = 0 then x else { x with g := Tab.set 0 x.g i v }

/-- Accumulator k. -/
def Engine.ac (x : Engine) (k : Nat) : Int := Tab.get 0 x.acc k
def Engine.setA (x : Engine) (k : Nat) (v : Int) : Engine := { x with acc := Tab.set 0 x.acc k v }

/-- RFLG bits (R220). -/
def RF_SUSPECT : Nat := 1
def RF_COAST : Nat := 2
def RF_CONT : Nat := 4
def RF_BROKEN : Nat := 8
def RF_UNSET : Nat := 16
def RF_SAT : Nat := 32
def RF_AOV : Nat := 64

/-- Accumulator k takes v, saturated at 56 bits; a sum outside sets AOV and SUSPECT (R220). -/
def Engine.accTo (x : Engine) (k : Nat) (v : Int) : Engine :=
  if -(2 ^ 55) ≤ v ∧ v ≤ 2 ^ 55 - 1 then x.setA k v
  else { x.setA k (clampInt (-(2 ^ 55)) (2 ^ 55 - 1) v) with rflg := x.rflg ||| (RF_AOV + RF_SUSPECT) }

/-- The head of the sample FIFO is a mark: predicate p3 (R214). -/
def Engine.headMark (x : Engine) : Bool := match x.fifo with
  | e :: _ => e.mark
  | [] => false

/-- Predicate i. -/
def Engine.pred (x : Engine) (i : Nat) : Bool :=
  if i = 0 then x.p0 else if i = 1 then x.p1 else if i = 2 then x.p2 else x.headMark

/-- Writes predicate i, 0 to 2. -/
def Engine.setP (x : Engine) (i : Nat) (v : Bool) : Engine :=
  if i = 0 then { x with p0 := v } else if i = 1 then { x with p1 := v } else if i = 2 then { x with p2 := v } else x

/-- The data word index of a byte address: aligned and at most 0x1FFC (R234 ADDR). -/
def dataIndex (a : Word) : Option Nat := if a.toNat % 4 = 0 ∧ a.toNat ≤ 0x1FFC then some (a.toNat / 4) else none

/-- Data-memory word i. -/
def Engine.dm (x : Engine) (i : Nat) : Word := Tab.get 0 x.data i
def Engine.setDm (x : Engine) (i : Nat) (v : Word) : Engine := { x with data := Tab.set 0 x.data i v }

/-- Writes consecutive data words. -/
def Engine.putDm (x : Engine) (i : Nat) : List Word → Engine
  | [] => x
  | w :: ws => Engine.putDm (x.setDm i w) (i + 1) ws

/-- The word index of the first of `n` data words at address `a`, all of which exist. -/
def dataBlock (a : Word) (n : Nat) : Option Nat :=
  match dataIndex a with
  | some i => if i + n ≤ 2048 then some i else none
  | none => none

/-! ## The outcome of an instruction -/

/-- What an instruction does: completes, takes a branch, goes to an address, halts, traps before it changes anything, or
waits. -/
inductive EngOut where
  | next (x : Engine)
  | taken (x : Engine) (t : Nat)
  | goto (x : Engine) (t : Nat)
  | halt (x : Engine)
  | trap (code : Nat)
  | wait (x : Engine) (on : Nat)
  deriving DecidableEq, Repr

/-- A loop (start, end, iterations left) at its end address: loops back, or ends. -/
def loopBack : Nat × Nat × Nat → Option (Nat × Nat × Nat)
  | (a, e, n) => if 1 < n then some (a, e, n - 1) else none

/-- The loop ends at address pc. -/
def loopAt (l : Option (Nat × Nat × Nat)) (pc : Nat) : Bool := match l with
  | some (_, e, _) => e == pc
  | none => false

/-- Where a loop begins; an idle counter gives 0. -/
def loopStart (l : Option (Nat × Nat × Nat)) : Nat := match l with
  | some (a, _, _) => a
  | none => 0

/-- A loop at its end takes its turn: the counter after, and its start when it loops back. -/
def loopTurn (l : Option (Nat × Nat × Nat)) : Option (Nat × Nat × Nat) × Option Nat :=
  match l with
  | some l => match loopBack l with
    | some l' => (some l', some l'.1)
    | none => (none, none)
  | none => (none, none)

/-- The engine after an instruction at PC falls through (R232): where loops end here, the inner loops back first. -/
def Engine.fall (x : Engine) : Engine :=
  let at0 := loopAt x.loop0 x.pc
  let at1 := loopAt x.loop1 x.pc
  let zeroFirst := at0 && (!at1 || decide (loopStart x.loop1 ≤ loopStart x.loop0))
  let turn0 (x : Engine) : Engine × Bool :=
    if !at0 then (x, false) else match loopTurn x.loop0 with
      | (l, some t) => ({ x with loop0 := l, pc := t }, true)
      | (l, none) => ({ x with loop0 := l }, false)
  let turn1 (x : Engine) : Engine × Bool :=
    if !at1 then (x, false) else match loopTurn x.loop1 with
      | (l, some t) => ({ x with loop1 := l, pc := t }, true)
      | (l, none) => ({ x with loop1 := l }, false)
  let first := if zeroFirst then turn0 x else turn1 x
  if first.2 then first.1
  else
    let second := if zeroFirst then turn1 first.1 else turn0 first.1
    if second.2 then second.1 else { second.1 with pc := x.pc + 1 }

/-- A loop survives a branch taken at pc to t: the branch is not its end and t lies in its body. -/
def loopKept (l : Option (Nat × Nat × Nat)) (pc t : Nat) : Option (Nat × Nat × Nat) := match l with
  | some (a, e, n) => if e ≠ pc ∧ a ≤ t ∧ t ≤ e then some (a, e, n) else none
  | none => none

/-- A taken branch (R232). -/
def Engine.jump (x : Engine) (t : Nat) : Engine :=
  { x with pc := t, loop0 := loopKept x.loop0 x.pc t, loop1 := loopKept x.loop1 x.pc t }

/-- The instruction's outcome becomes the engine's state (R216, R234, R235). Reaching address 1,024 is PCEND. -/
def State.engFinish (s : State) (p : Nat) (o : EngOut) : State :=
  let go (y : Engine) : State :=
    let y := { y with stepOne := false, waitOn := 0, st := E_RUN, skipLeft := none }
    if 1024 ≤ y.pc then (s.setEng p { y with pc := 0 }).engExc p 3 else s.setEng p y
  match o with
  | .next y => go y.fall
  | .taken y t => go (y.jump t)
  | .goto y t => go { y with pc := t }
  | .halt y =>
    let s := s.setEng p { y with st := E_HALTED, waitOn := 0, stepOne := false }
    match y.handle with
    | some h => s.engPart h (s.logEng p / 32)
    | none => s
  | .trap code => s.engExc p code
  | .wait y on => s.setEng p { y with st := E_WAIT, waitOn := on }

/-- The program word at PC. -/
def Engine.insn (x : Engine) : Word := Tab.get 0 x.prog x.pc

/-- The opcode of a program word. -/
def opcodeOf (w : Word) : Nat := getBits w 26 6

/-- The instruction with an opcode is issued on engine p (R216, R398): the engine runs, is not gated, and the word at PC has
that opcode. A breakpoint gates it before its instruction. A bit that the instruction does not use traps ILLOP. -/
def State.issue (s : State) (p op unused : Nat) (f : Word → Engine → State → State) : State :=
  let x := s.eng p
  let w := x.insn
  if !(x.on && x.st == E_RUN && (!x.gated || x.stepOne) && opcodeOf w == op) then s
  else if x.brk = some x.pc ∧ ¬ x.stepOne then s.setEng p { x with gated := true }
  else if w.toNat &&& unused ≠ 0 then s.engExc p 1
  else f w x s

/-- An instruction whose effect is on its engine alone. -/
def State.issue1 (s : State) (p op unused : Nat) (f : Word → Engine → EngOut) : State :=
  s.issue p op unused fun w x s => s.engFinish p (f w x)

/-! ## Integer instructions (R228, R229) -/

/-- d := f a b. -/
def opT (f : Word → Word → Word) (w : Word) (x : Engine) : EngOut :=
  .next (x.setG (fieldD w) (f (x.gr (fieldA w)) (x.gr (fieldB w))))

/-- d := f a, with the immediate. -/
def opI (f : Word → Word → Word) (w : Word) (x : Engine) : EngOut :=
  .next (x.setG (fieldD w) (f (x.gr (fieldA w)) w))

/-- CMP and CMPI conditions 0 EQ, 1 NE, 2 LT, 3 GE, 4 LTU, 5 GEU. -/
def intCond (c : Nat) (a b : Word) : Bool :=
  if c = 0 then a == b else if c = 1 then a != b else if c = 2 then a.slt b else if c = 3 then !a.slt b
  else if c = 4 then a.ult b else !a.ult b

/-- A compare: illegal condition or p3 as destination traps ILLOP. -/
def opCmp (hi : Nat) (f : Nat → Word → Word → Bool) (second : Word → Engine → Word) (w : Word) (x : Engine) : EngOut :=
  let p := getBits w 24 2
  let c := getBits w 21 3
  if hi < c ∨ p = 3 then .trap 1 else .next (x.setP p (f c (x.gr (getBits w 17 4)) (second w x)))

def opNop (_ : Word) (x : Engine) : EngOut := .next x

/-- LD (R228): ADDR when the word does not exist. -/
def opLd (w : Word) (x : Engine) : EngOut :=
  match dataIndex (x.gr (fieldA w) + BitVec.ofInt 32 (immS w)) with
  | some i => .next (x.setG (fieldD w) (x.dm i))
  | none => .trap 2

def opSt (w : Word) (x : Engine) : EngOut :=
  match dataIndex (x.gr (fieldA w) + BitVec.ofInt 32 (immS w)) with
  | some i => .next (x.setDm i (x.gr (fieldD w)))
  | none => .trap 2

/-- BR (R228): always when A = 1, with p and S then 0. -/
def opBr (w : Word) (x : Engine) : EngOut :=
  let t := getBits w 0 10
  if getBits w 22 1 = 1 then (if getBits w 23 3 ≠ 0 then .trap 1 else .taken x t)
  else if x.pred (getBits w 24 2) = (getBits w 23 1 == 1) then .taken x t else .next x

def opCall (w : Word) (x : Engine) : EngOut :=
  if 4 ≤ x.ret.length then .trap 4 else .goto { x with ret := (x.pc + 1) :: x.ret } (getBits w 0 10)

def opRet (_ : Word) (x : Engine) : EngOut := match x.ret with
  | [] => .trap 4
  | t :: r => .goto { x with ret := r } t

/-- LOOP and LOOPI with count n (R232, R234): LOOPX on a counter in use or an end not after the instruction. -/
def opLoop (n : Nat) (w : Word) (x : Engine) : EngOut :=
  let c := getBits w 25 1
  let e := getBits w 0 10
  let used := if c = 0 then x.loop0.isSome else x.loop1.isSome
  if used ∨ e ≤ x.pc then .trap 5
  else if n = 0 then .goto x (e + 1)
  else if c = 0 then .next { x with loop0 := some (x.pc + 1, e, n) }
  else .next { x with loop1 := some (x.pc + 1, e, n) }

def opHalt (_ : Word) (x : Engine) : EngOut := .halt x

/-- CLR (R228): the named g and a registers := 0. -/
def opClr (w : Word) (x : Engine) : EngOut :=
  let g := (List.range 15).foldl (fun (x : Engine) i => if bitOf w.toNat (i + 1) then x.setG (i + 1) 0 else x) x
  .next ((List.range 4).foldl (fun (x : Engine) k => if bitOf w.toNat (22 + k) then x.setA k 0 else x) g)

/-- MAC (R228): the 64-bit product is added to ak. -/
def opMac (w : Word) (x : Engine) : EngOut :=
  let k := fieldD w
  if 3 < k then .trap 1 else .next (x.accTo k (x.ac k + (x.gr (fieldA w)).toInt * (x.gr (fieldB w)).toInt))

/-- STA (R228): two words, low word first. -/
def opSta (w : Word) (x : Engine) : EngOut :=
  let k := fieldD w
  if 3 < k then .trap 1
  else match dataBlock (x.gr (fieldA w) + BitVec.ofInt 32 (immS w)) 2 with
    | some i =>
      let v := ofSigned 64 (x.ac k)
      .next (x.putDm i [BitVec.ofNat 32 v, BitVec.ofNat 32 (v / 2 ^ 32)])
    | none => .trap 2

def opAfl (w : Word) (x : Engine) : EngOut :=
  if 3 < fieldA w then .trap 1 else .next (x.setG (fieldD w) (fOfInt (x.ac (fieldA w))))

/-- FMAC and FMAC.N: N is bit 13. -/
def opFmac (w : Word) (x : Engine) : EngOut :=
  .next (x.setG (fieldD w) (fMac (getBits w 13 1 == 1) (x.gr (fieldD w)) (x.gr (fieldA w)) (x.gr (fieldB w))))

/-! ## Streams (R218 to R225) -/

/-- RFLG bits that an entry sets (R220); `first`: it is the first consumed since RFLG was written. -/
def Entry.bits (e : Entry) (first : Bool) : Nat :=
  (if e.rst && !first then RF_BROKEN + RF_SUSPECT else 0) ||| (if e.unset then RF_UNSET + RF_SUSPECT else 0)
  ||| (if e.coast then RF_COAST else 0) ||| (if e.cont then RF_CONT else 0)
  ||| (if e.sat then RF_SAT + RF_SUSPECT else 0) ||| (if e.susp then RF_SUSPECT else 0)

/-- The head sample is consumed; `debug`: level D2 marks every result SUSPECT (R399). A record that lost a sample after its first
carries SUSPECT (R19). -/
def Engine.consume (x : Engine) (e : Entry) (debug : Bool) : Engine :=
  let lost := (e.lost || x.lostSeen) && x.nsmp != 0
  { x with fifo := x.fifo.drop 1, nsmp := x.nsmp + 1, lostSeen := false,
           rflg := (x.rflg ||| e.bits (x.nsmp == 0)) ||| (if debug || lost then RF_SUSPECT else 0) }

/-- Entries are discarded from the head of the FIFO; a sample lost among them belongs to a record that goes on (R19). -/
def Engine.discard (x : Engine) (n : Nat) : Engine :=
  { x with fifo := x.fifo.drop n, lostSeen := x.lostSeen || (x.fifo.take n).any (·.lost) }

/-- POP and LKI: nothing while a mark heads the FIFO, a wait while it is empty, otherwise `f` of the sample consumed. -/
def opSample (debug : Bool) (f : Entry → Engine → Engine) (x : Engine) : EngOut :=
  match x.fifo with
  | [] => .wait x 1
  | e :: _ => if e.mark then .next x else .next (f e (x.consume e debug))

def opPop (debug : Bool) (w : Word) (x : Engine) : EngOut :=
  opSample debug (fun e x => { x.setG (fieldD w) (BitVec.ofInt 32 e.s) with pw := e.phase }) x

/-- LKI (R222). -/
def opLki (debug coh : Bool) (w : Word) (x : Engine) : EngOut :=
  let n := fieldD w
  if 1 < n ∨ ¬ coh then .trap 1
  else opSample debug (fun e x =>
    let h := if x.harm = 0 then 1 else x.harm
    let t := h * e.phase % 2 ^ 32
    let x := x.accTo (2 * n) (x.ac (2 * n) + e.s * lkiCos t)
    x.accTo (2 * n + 1) (x.ac (2 * n + 1) - e.s * lkiSin t)) x

/-- Samples before the first mark. -/
def beforeMark (l : List Entry) : Nat := (l.takeWhile fun e => !e.mark).length

/-- SKIP discards up to n samples, stopping at a mark, and waits for the rest. -/
def opSkip (w : Word) (x : Engine) : EngOut :=
  let n := x.skipLeft.getD (x.gr (fieldA w)).toNat
  let k := beforeMark x.fifo
  if n ≤ k then .next (x.discard n)
  else if k < x.fifo.length then .next (x.discard k)
  else .wait { x.discard k with skipLeft := some (n - k) } 1

/-- The mark is consumed: MARK, and the point frequency word or VCNT that it loads (R218). -/
def Engine.takeMark (x : Engine) (e : Entry) : Engine :=
  let x := { x with mark := e.code }
  if 2 ^ 31 ≤ e.code then x
  else if bitOf e.code 30 then { x with vcnt := e.vcnt % 2 ^ 32 }
  else { x with freq := e.freq }

def opWmk (w : Word) (x : Engine) : EngOut :=
  let k := beforeMark x.fifo
  match x.fifo.drop k with
  | [] => .wait (x.discard k) 1
  | e :: _ => .next (((x.discard (k + 1)).takeMark e).setG (fieldD w) (BitVec.ofNat 32 e.code))

/-- HST (R223): bin clamp((value − HBASE) >> HSHIFT, 0, 255), saturating. -/
def opHst (w : Word) (x : Engine) : EngOut :=
  let d := (x.gr (fieldA w)).toInt - toSigned 32 x.hbase
  let v := toSigned 32 (ofSigned 32 d) / (2 ^ x.hshift : Nat)
  let i := (clampInt 0 255 v).toNat
  .next { x with hist := Tab.set 0 x.hist i (satTo 0xFFFFFFFF (Tab.get 0 x.hist i + 1)) }

def opHrd (w : Word) (x : Engine) : EngOut :=
  .next (x.setG (fieldD w) (BitVec.ofNat 32 (Tab.get 0 x.hist ((x.gr (fieldA w)).toNat % 256))))

def opMmx (w : Word) (x : Engine) : EngOut :=
  let v := (x.gr (fieldA w)).toInt
  if x.armed then .next { x with minV := v, maxV := v, armed := false }
  else .next { x with minV := if v < x.minV then v else x.minV, maxV := if x.maxV < v then v else x.maxV }

/-- LIM (R223): p := LIMLO ≤ value ≤ LIMHI, signed; a failure counts, saturating. -/
def opLim (w : Word) (x : Engine) : EngOut :=
  let p := getBits w 24 2
  let v := (x.gr (getBits w 17 4)).toInt
  let ok := decide (toSigned 32 x.limLo ≤ v) && decide (v ≤ toSigned 32 x.limHi)
  if p = 3 then .trap 1
  else .next ({ x with limCnt := if ok then x.limCnt else satTo 0xFFFFFFFF (x.limCnt + 1) }.setP p ok)

/-- RECV (R225): the oldest inbox record goes to data memory; d := TYPE. -/
def opRecv (w : Word) (x : Engine) : EngOut :=
  match x.inbox with
  | [] => .wait x 2
  | r :: rest =>
    match dataBlock (x.gr (fieldA w)) r.length with
    | none => .trap 2
    | some i => .next (({ x with inbox := rest }.putDm i r).setG (fieldD w) (r.getD 0 0 &&& 0xFF))

/-- CFP (R228): the oldest comparator-FIFO word. -/
def opCfp (w : Word) (x : Engine) : EngOut :=
  match x.cfifo with
  | [] => .wait x 3
  | v :: rest => .next ({ x with cfifo := rest }.setG (fieldD w) v)

/-- MTS (R230): a write to a read-only register is discarded. -/
def opMts (w : Word) (x : Engine) : EngOut :=
  let n := getBits w 0 6
  let v := (x.gr (fieldA w)).toNat
  if 20 < n then .trap 1
  else if n = 5 then .next { x with rflg := 0, nsmp := 0, lostSeen := false }
  else if n = 7 then .next { x with harm := v % 65536 }
  else if n = 11 then .next { x with armed := true }
  else if n = 13 then .next { x with limLo := v }
  else if n = 14 then .next { x with limHi := v }
  else if n = 15 then .next { x with limCnt := 0 }
  else if n = 16 then .next { x with hbase := v }
  else if n = 17 then .next { x with hshift := v % 32 }
  else if n = 18 then .next { x with hist := [] }
  else .next x

/-- A word in force of a channel's page (R175). -/
def State.infWord (s : State) (c off : Nat) : Word := Tab.get (resetWord s.variant (CH c + off)) (s.chan c).inf off

/-- A field in force of a channel's settings. -/
def State.infF (s : State) (c : Nat) (f : Fld) : Nat := getBits (s.infWord c f.off) f.lsb f.width

/-- LKS (R222): 2 × LSB / 65,535 in binary32 for the source and range in force; 0 on VL512-D. -/
def State.lks (s : State) (c : Nat) : Word :=
  if !s.variant.coh then 0
  else
    let src := s.infF c R.CH_CMODE_ADCSRC
    let scale (num den : Nat) : Word := fRound false (2 * num * 2 ^ 149) (den * 65535)
    if src = 3 then Config.lksCount
    else if src = 1 then
      match s.infF c R.CH_PMUCFG_IRNG with
      | 0 => scale 2 (1000000 * 2 ^ 17)
      | 1 => scale 20 (1000000 * 2 ^ 17)
      | 2 => scale 200 (1000000 * 2 ^ 17)
      | 3 => scale 2 (1000 * 2 ^ 17)
      | _ => scale 25 (1000 * 2 ^ 17)
    else if src = 0 ∧ s.infF c R.CH_CMODE_ADCRNG = 1 then scale 1 128000
    else scale 1 16000

/-- SITE (R230): the site of the engine's channel, enabled, lead; the number is open where there is no site. -/
def State.siteReg (s : State) (e : Nat) : Word :=
  let g := e / 32
  let x := s.grp g
  match x.siteOf (e % 32) with
  | none => (Config.noSite s.freeCtr).zeroExtend 32
  | some i => BitVec.ofNat 32 (4 * g + i + (if x.siteEn i then 2 ^ 30 else 0) + (if x.siteLead i = e % 32 then 2 ^ 31 else 0))

/-- MFS (R230): the special register read; `cycle` is the CYCLE count. -/
def State.special (s : State) (p n : Nat) (cycle : Word) : Word :=
  let x := s.eng p
  let e := s.logEng p
  match n with
  | 0 => BitVec.ofNat 32 x.pw
  | 1 => BitVec.ofNat 32 x.freq
  | 2 => BitVec.ofNat 32 (x.freq / 2 ^ 32)
  | 3 => fRound false (x.freq * 2 ^ 133) 1
  | 4 => BitVec.ofNat 32 x.mark
  | 5 => BitVec.ofNat 32 x.rflg
  | 6 => BitVec.ofNat 32 x.nsmp
  | 7 => BitVec.ofNat 32 x.harm
  | 8 => s.lks e
  | 9 => BitVec.ofNat 32 e
  | 10 => s.siteReg e
  | 11 => BitVec.ofInt 32 x.minV
  | 12 => BitVec.ofInt 32 x.maxV
  | 13 => BitVec.ofNat 32 x.limLo
  | 14 => BitVec.ofNat 32 x.limHi
  | 15 => BitVec.ofNat 32 x.limCnt
  | 16 => BitVec.ofNat 32 x.hbase
  | 17 => BitVec.ofNat 32 x.hshift
  | 18 => Config.hctlRead s.freeCtr
  | 19 => cycle
  | _ => BitVec.ofNat 32 x.vcnt

/-- MFS on engine p. -/
def State.opMfs (s : State) (p : Nat) (cycle : Word) : State :=
  s.issue p 0x16 0x3FFFC0 fun w x s =>
    let n := getBits w 0 6
    if 20 < n then s.engExc p 1
    else (s.engFinish p (.next (x.setG (fieldD w) (s.special p n cycle)))).gate (n == 18 || n == 10) (·.tick)

/-! ## EMIT (R224 to R226) -/

/-- The header as the emitter completes it: TYPE and flags of the program, LEN, SRC, and RFLG[2:0]. -/
def emitHeader (h : Word) (n e rflg : Nat) : Word :=
  BitVec.ofNat 32 (getBits h 0 8 + n % 256 * 256 + e % 1024 * 65536 + (getBits h 26 3 ||| rflg % 8) * 2 ^ 26
    + n / 256 % 4 * 2 ^ 29)

/-- The flags of a record reach the step of its command on the group, or the command (R259). -/
def State.resultFlags (s : State) (h g : Nat) (hd : Word) : State :=
  let susp := getBits hd 26 1 == 1
  let coast := getBits hd 27 1 == 1
  if s.stepOf h g then
    let mark (t : TStep) : TStep :=
      if t.handle = h then { t with suspect := t.suspect || susp, coast := t.coast || coast } else t
    s.modGrp g fun x => { x with cur := x.cur.map fun st => { st with steps := st.steps.map mark } }
  else (s.gate susp (·.cmdFlag h CF_SUSPECT)).gate coast (·.cmdFlag h CF_COAST)

/-- EMIT (R224, R225, R234): `host` says that the row is EMIT_HOST; the other row also takes an illegal destination. -/
def State.opEmit (s : State) (p : Nat) (host : Bool) : State :=
  s.issue p 0x25 0 fun w x s =>
    let dst := fieldD w
    if (dst == 1) != host then s
    else if w.toNat &&& 0x3FFF ≠ 0 ∨ 1 < dst then s.engExc p 1
    else
      let e := s.logEng p
      let g := e / 32
      let n := (x.gr (fieldB w)).toNat
      let site := (s.grp g).siteOf (e % 32)
      if n < 2 ∨ (if host then 512 else 16) < n ∨ (¬ host ∧ site.isNone) then s.engExc p 6
      else match dataBlock (x.gr (fieldA w)) n with
        | none => s.engExc p 2
        | some i =>
          let hd := emitHeader (x.dm i) n e x.rflg
          let ws := hd :: (List.range (n - 1)).map fun j => x.dm (i + 1 + j)
          if x.emitter.isSome then s.engFinish p (.wait x 3)
          else if !host then
            let s := s.engFinish p (.next { x with emitter := some { host := false, words := ws, handle := x.handle.getD 0 } })
            let s := match x.handle with | some h => s.resultFlags h g hd | none => s
            s.inc (ENG p) R.ENG_EMITCNT
          else match x.handle with
            | none => s.engExc p 6
            | some h =>
              if !s.bufRoom h n then s.engExc p 6
              else
                let off := match s.cmd? h with | some c => c.rbytes | none => 0
                let s := s.modCmd h fun c => { c with rbytes := c.rbytes + recBytes n }
                let s := s.engFinish p
                  (.next { x with emitter := some { host := true, words := ws, handle := h, off := off } })
                (s.resultFlags h g hd).inc (ENG p) R.ENG_EMITCNT

/-! ## RADV -/

/-- The engine's site has joined the route of its group (R82). -/
def State.joinedEng (s : State) (e : Nat) : Bool :=
  match (s.grp (e / 32)).route, (s.grp (e / 32)).siteOf (e % 32) with
  | some r, some i => bitOf (s.joinedSites (e / 32) r) i
  | _, _ => false

/-- RADV (R80, R228). -/
def State.opRadv (s : State) (p : Nat) : State :=
  s.issue p 0x26 0x3FFFFFF fun _ x s =>
    let e := s.logEng p
    (s.engFinish p (.next x)).routeTrigger (e / 32) 1 (s.joinedEng e)

/-! ## Every opcode -/

/-- Debug level D2 is in force (R395, R399). -/
def State.debugD2 (s : State) : Bool := s.rd PROT R.PROT_STATE_DBGLVL == 2

/-- WMK counts the samples it discards (R219). -/
def State.opWmkS (s : State) (p : Nat) : State :=
  s.issue p 0x1F 0x3FFFFF fun w x s => (s.engFinish p (opWmk w x)).inc (ENG p) R.ENG_DISCCNT (beforeMark x.fifo)

/-- The instruction of an opcode on engine p, apart from RADV, EMIT, MFS and WMK. -/
def State.opOf (s : State) (p op : Nat) : State :=
  match op with
  | 0x00 => s.issue1 p op 0x3FFFFFF opNop
  | 0x01 => s.issue1 p op 0x3FFF (opT (· + ·))
  | 0x02 => s.issue1 p op 0x3FFF (opT (· - ·))
  | 0x03 => s.issue1 p op 0x3FFF (opT (· &&& ·))
  | 0x04 => s.issue1 p op 0x3FFF (opT (· ||| ·))
  | 0x05 => s.issue1 p op 0x3FFE0 (opI fun a w => a <<< getBits w 0 5)
  | 0x06 => s.issue1 p op 0x3FFE0 (opI fun a w => a >>> getBits w 0 5)
  | 0x07 => s.issue1 p op 0x3FFE0 (opI fun a w => a.sshiftRight (getBits w 0 5))
  | 0x08 => s.issue1 p op 0x3FFF (opT (· * ·))
  | 0x09 => s.issue1 p op 0 (opI fun a w => a + BitVec.ofInt 32 (immS w))
  | 0x0A => s.issue1 p op 0 (opI fun a w => a ||| BitVec.ofNat 32 (getBits w 0 18))
  | 0x0B => s.issue1 p op 0x3C0000 (opI fun _ w => BitVec.ofNat 32 (getBits w 0 18 * 2 ^ 14))
  | 0x0C => s.issue1 p op 0x1FFF (opCmp 5 intCond fun w x => x.gr (getBits w 13 4))
  | 0x0D => s.issue1 p op 0 (opCmp 5 intCond fun w _ => BitVec.ofInt 32 (toSigned 17 (getBits w 0 17)))
  | 0x0E => s.issue1 p op 0 opLd
  | 0x0F => s.issue1 p op 0 opSt
  | 0x10 => s.issue1 p op 0x3FFC00 opBr
  | 0x11 => s.issue1 p op 0x3FFFC00 opCall
  | 0x12 => s.issue1 p op 0x3FFFFFF opRet
  | 0x13 => s.issue1 p op 0x1C3FC00 fun w x => opLoop (x.gr (fieldA w)).toNat w x
  | 0x14 => s.issue1 p op 0 fun w x => opLoop (getBits w 10 15) w x
  | 0x15 => s.issue1 p op 0x3FFFFFF opHalt
  | 0x17 => s.issue1 p op 0x3C3FFC0 opMts
  | 0x18 => s.issue1 p op 0x3F0001 opClr
  | 0x19 => s.issue1 p op 0x3FFF opMac
  | 0x1A => s.issue1 p op 0 opSta
  | 0x1B => s.issue1 p op 0x3FFFF opAfl
  | 0x1C => s.issue1 p op 0x3FFFFF (opPop s.debugD2)
  | 0x1D => s.issue1 p op 0x3FFFFF (opLki s.debugD2 s.variant.coh)
  | 0x1E => s.issue1 p op 0x3C3FFFF opSkip
  | 0x20 => s.issue1 p op 0x3C3FFFF opHst
  | 0x21 => s.issue1 p op 0x3FFFF opHrd
  | 0x22 => s.issue1 p op 0x3C3FFFF opMmx
  | 0x23 => s.issue1 p op 0xE1FFFF opLim
  | 0x24 => s.issue1 p op 0x3FFFF opRecv
  | 0x27 => s.issue1 p op 0x3FFFFF opCfp
  | 0x28 => s.issue1 p op 0x3FFF (opT fAdd)
  | 0x29 => s.issue1 p op 0x3FFF (opT fSub)
  | 0x2A => s.issue1 p op 0x3FFF (opT fMul)
  | 0x2B => s.issue1 p op 0x1FFF opFmac
  | 0x2C => s.issue1 p op 0x3FFF (opT fDiv)
  | 0x2D => s.issue1 p op 0x3FFFF (opI fun a _ => fSqrt a)
  | 0x2E => s.issue1 p op 0x3FFF (opT fAtan)
  | 0x2F => s.issue1 p op 0x3FFFF (opI fun a _ => fOfInt a.toInt)
  | 0x30 => s.issue1 p op 0x3FFFF (opI fun a _ => fToInt a)
  | 0x31 => s.issue1 p op 0x1FFF (opCmp 3 fCmp fun w x => x.gr (getBits w 13 4))
  | _ => s

/-! ## One row for each instruction -/

def execEngNop (p : Fin 528) (s : State) : Host.Outcome State Fault Refusal := run s fun s => s.opOf p 0x00
def execEngAdd (p : Fin 528) (s : State) : Host.Outcome State Fault Refusal := run s fun s => s.opOf p 0x01
def execEngSub (p : Fin 528) (s : State) : Host.Outcome State Fault Refusal := run s fun s => s.opOf p 0x02
def execEngAnd (p : Fin 528) (s : State) : Host.Outcome State Fault Refusal := run s fun s => s.opOf p 0x03
def execEngOr (p : Fin 528) (s : State) : Host.Outcome State Fault Refusal := run s fun s => s.opOf p 0x04
def execEngShl (p : Fin 528) (s : State) : Host.Outcome State Fault Refusal := run s fun s => s.opOf p 0x05
def execEngShr (p : Fin 528) (s : State) : Host.Outcome State Fault Refusal := run s fun s => s.opOf p 0x06
def execEngSra (p : Fin 528) (s : State) : Host.Outcome State Fault Refusal := run s fun s => s.opOf p 0x07
def execEngMul (p : Fin 528) (s : State) : Host.Outcome State Fault Refusal := run s fun s => s.opOf p 0x08
def execEngAddi (p : Fin 528) (s : State) : Host.Outcome State Fault Refusal := run s fun s => s.opOf p 0x09
def execEngOri (p : Fin 528) (s : State) : Host.Outcome State Fault Refusal := run s fun s => s.opOf p 0x0A
def execEngLui (p : Fin 528) (s : State) : Host.Outcome State Fault Refusal := run s fun s => s.opOf p 0x0B
def execEngCmp (p : Fin 528) (s : State) : Host.Outcome State Fault Refusal := run s fun s => s.opOf p 0x0C
def execEngCmpi (p : Fin 528) (s : State) : Host.Outcome State Fault Refusal := run s fun s => s.opOf p 0x0D

/-- LD. `parity`: the program word at PC, of whatever instruction, or a data word that it reads, has a parity error (R234 code 8):
exception PARITY and its fault occurrence at `ms` within the operating second; otherwise the load. DESIGN CHOICE (assumption 94):
the table has no row for a parity error, and this one carries it. -/
def execEngLd (p : Fin 528) (parity : Bool) (ms : Fin 1000) (s : State) : Host.Outcome State Fault Refusal :=
  run s fun s =>
    if parity then s.issue p (opcodeOf (s.eng p).insn) 0 fun _ _ s => ((s.inc FLT R.FLT_PARERR).engExc p 8).engFault p FC_PARITY (s.opMs ms)
    else s.opOf p 0x0E

def execEngSt (p : Fin 528) (s : State) : Host.Outcome State Fault Refusal := run s fun s => s.opOf p 0x0F
def execEngBr (p : Fin 528) (s : State) : Host.Outcome State Fault Refusal := run s fun s => s.opOf p 0x10
def execEngCall (p : Fin 528) (s : State) : Host.Outcome State Fault Refusal := run s fun s => s.opOf p 0x11
def execEngRet (p : Fin 528) (s : State) : Host.Outcome State Fault Refusal := run s fun s => s.opOf p 0x12
def execEngLoop (p : Fin 528) (s : State) : Host.Outcome State Fault Refusal := run s fun s => s.opOf p 0x13
def execEngLoopi (p : Fin 528) (s : State) : Host.Outcome State Fault Refusal := run s fun s => s.opOf p 0x14
def execEngHalt (p : Fin 528) (s : State) : Host.Outcome State Fault Refusal := run s fun s => s.opOf p 0x15
def execEngMfs (p : Fin 528) (cycle : Word) (s : State) : Host.Outcome State Fault Refusal :=
  run s fun s => s.opMfs p cycle
def execEngMts (p : Fin 528) (s : State) : Host.Outcome State Fault Refusal := run s fun s => s.opOf p 0x17
def execEngClr (p : Fin 528) (s : State) : Host.Outcome State Fault Refusal := run s fun s => s.opOf p 0x18
def execEngMac (p : Fin 528) (s : State) : Host.Outcome State Fault Refusal := run s fun s => s.opOf p 0x19
def execEngSta (p : Fin 528) (s : State) : Host.Outcome State Fault Refusal := run s fun s => s.opOf p 0x1A
def execEngAfl (p : Fin 528) (s : State) : Host.Outcome State Fault Refusal := run s fun s => s.opOf p 0x1B
def execEngPop (p : Fin 528) (s : State) : Host.Outcome State Fault Refusal := run s fun s => s.opOf p 0x1C
def execEngLki (p : Fin 528) (s : State) : Host.Outcome State Fault Refusal := run s fun s => s.opOf p 0x1D
def execEngSkip (p : Fin 528) (s : State) : Host.Outcome State Fault Refusal := run s fun s => s.opOf p 0x1E
def execEngWmk (p : Fin 528) (s : State) : Host.Outcome State Fault Refusal := run s fun s => s.opWmkS p
def execEngHst (p : Fin 528) (s : State) : Host.Outcome State Fault Refusal := run s fun s => s.opOf p 0x20
def execEngHrd (p : Fin 528) (s : State) : Host.Outcome State Fault Refusal := run s fun s => s.opOf p 0x21
def execEngMmx (p : Fin 528) (s : State) : Host.Outcome State Fault Refusal := run s fun s => s.opOf p 0x22
def execEngLim (p : Fin 528) (s : State) : Host.Outcome State Fault Refusal := run s fun s => s.opOf p 0x23
def execEngRecv (p : Fin 528) (s : State) : Host.Outcome State Fault Refusal := run s fun s => s.opOf p 0x24
def execEngEmitLead (p : Fin 528) (s : State) : Host.Outcome State Fault Refusal := run s fun s => s.opEmit p false
def execEngEmitHost (p : Fin 528) (s : State) : Host.Outcome State Fault Refusal := run s fun s => s.opEmit p true
def execEngRadv (p : Fin 528) (s : State) : Host.Outcome State Fault Refusal := run s fun s => s.opRadv p
def execEngCfp (p : Fin 528) (s : State) : Host.Outcome State Fault Refusal := run s fun s => s.opOf p 0x27
def execEngFadd (p : Fin 528) (s : State) : Host.Outcome State Fault Refusal := run s fun s => s.opOf p 0x28
def execEngFsub (p : Fin 528) (s : State) : Host.Outcome State Fault Refusal := run s fun s => s.opOf p 0x29
def execEngFmul (p : Fin 528) (s : State) : Host.Outcome State Fault Refusal := run s fun s => s.opOf p 0x2A
def execEngFmac (p : Fin 528) (s : State) : Host.Outcome State Fault Refusal := run s fun s => s.opOf p 0x2B
def execEngFdiv (p : Fin 528) (s : State) : Host.Outcome State Fault Refusal := run s fun s => s.opOf p 0x2C
def execEngFsqrt (p : Fin 528) (s : State) : Host.Outcome State Fault Refusal := run s fun s => s.opOf p 0x2D
def execEngFatn (p : Fin 528) (s : State) : Host.Outcome State Fault Refusal := run s fun s => s.opOf p 0x2E
def execEngFcvt (p : Fin 528) (s : State) : Host.Outcome State Fault Refusal := run s fun s => s.opOf p 0x2F
def execEngFint (p : Fin 528) (s : State) : Host.Outcome State Fault Refusal := run s fun s => s.opOf p 0x30
def execEngFcmp (p : Fin 528) (s : State) : Host.Outcome State Fault Refusal := run s fun s => s.opOf p 0x31

/-- ILLEGAL_OPCODE (R227, R234): an opcode from 0x32 to 0x3F. -/
def State.opIllegal (s : State) (p : Nat) : State :=
  let op := opcodeOf (s.eng p).insn
  if 0x32 ≤ op then s.issue p op 0 fun _ _ s => s.engExc p 1 else s

def execEngIllegalOpcode (p : Fin 528) (s : State) : Host.Outcome State Fault Refusal := run s fun s => s.opIllegal p

/-! ## Waits (R216, R233, R234) -/

/-- The waiting instruction is tried again: WAIT to RUN when what it waited for has arrived. -/
def State.engResume (s : State) (p : Nat) : State :=
  let x := s.eng p
  if x.st ≠ E_WAIT then s
  else
    let s' := s.setEng p { x with st := E_RUN, stepOne := x.stepOne || !x.gated }
    let op := opcodeOf x.insn
    if x.gated ∧ ¬ x.stepOne then s
    else if op = 0x1F then s'.opWmkS p
    else if op = 0x25 then s'.opEmit p (fieldD x.insn == 1)
    else s'.opOf p op

/-- ENGINE_RESUME. -/
def execEngineResume (p : Fin 528) (s : State) : Host.Outcome State Fault Refusal := run s fun s => s.engResume p

/-- The command of a handle has a route (k = 0) or a step (k = 1) left on any of its groups; the register path, on group g
(R234). -/
def State.partLeft (s : State) (h : Option Nat) (g k : Nat) : Bool :=
  match h with
  | none => if k = 0 then s.routeOn g else s.stepOn g
  | some h => match s.cmd? h with
    | some c => (List.range 16).any fun g => bitOf c.groupsLeft (partBit g k)
    | none => false

/-- What engine p waits for can never come (R234 STARVE). -/
def State.starves (s : State) (p : Nat) : Bool :=
  let x := s.eng p
  let e := s.logEng p
  let g := e / 32
  let op := opcodeOf x.insn
  if x.st ≠ E_WAIT then false
  else if x.waitOn = 1 then x.fifo.isEmpty && !s.partLeft x.handle g 0 && !s.partLeft x.handle g 1
  else if x.waitOn = 2 then
    match (s.grp g).siteOf (e % 32) with
    | none => x.inbox.isEmpty && !s.stepOn g
    | some i =>
      x.inbox.isEmpty
        && (s.siteEngines g (2 ^ i)).all (fun o => o == e ||
              (s.eng (s.physEng o)).st == E_HALTED || (s.eng (s.physEng o)).st == E_EXC)
        && !(match x.handle with | some h => s.stepOf h g | none => s.stepOn g)
        && !((s.grp g).cmp.any fun r => r.site == i)
  else op == 0x27 && x.cfifo.isEmpty && x.cwait.isEmpty && !s.partLeft x.handle g 1

/-- ENGINE_STARVE (R234). -/
def execEngineStarve (p : Fin 528) (s : State) : Host.Outcome State Fault Refusal :=
  run s fun s => s.gate (s.starves p) (·.engExc p 7)

/-! ## Records (R225, R226) -/

/-- Words in an inbox. -/
def Engine.inboxWords (x : Engine) : Nat := x.inbox.foldl (fun n r => n + r.length) 0

/-- EMIT_DELIVERY (R221, R225): the record in the emitter enters the inbox of the site's lead, which must run and have room. -/
def State.emitDeliver (s : State) (p : Nat) : State :=
  let x := s.eng p
  let e := s.logEng p
  let g := e / 32
  match x.emitter, (s.grp g).siteOf (e % 32) with
  | some m, some i =>
    if m.host then s
    else
      let l := s.physEng (32 * g + (s.grp g).siteLead i)
      let y := s.eng l
      if !y.live || decide (512 < y.inboxWords + m.words.length) then s
      else (s.modEng p fun x => { x with emitter := none }).modEng l fun y => { y with inbox := y.inbox ++ [m.words] }
  | _, _ => s

def execEmitDelivery (p : Fin 528) (s : State) : Host.Outcome State Fault Refusal := run s fun s => s.emitDeliver p

/-- RESULT_RECORD_WRITE (R226, R269): the record in the emitter of engine `e`, or the oldest module record, is written to its
place in the result buffer; nothing is written while requests are paused. -/
def State.recordWrite (s : State) (e : Option Nat) : State :=
  if s.paused then s
  else match e with
    | some p => match (s.eng p).emitter with
      | some m => if m.host then (s.modEng p fun x => { x with emitter := none }).bufWrite m.handle m.off m.words else s
      | none => s
    | none => match s.modRecs with
      | (h, off, ws) :: rest => { s with modRecs := rest }.bufWrite h off ws
      | [] => s

def execResultRecordWrite (e : Option (Fin 528)) (s : State) : Host.Outcome State Fault Refusal :=
  run s fun s => s.recordWrite (e.map (·.val))

/-! ## Image CRC (R237) -/

/-- One bit of the CRC-32 of IEEE 802.3, reflected. -/
def crcBit (c : Nat) : Nat := if c % 2 = 1 then (c / 2) ^^^ 0xEDB88320 else c / 2

/-- The CRC register after one 32-bit word in little-endian byte order. -/
def crcWord (c : Nat) (w : Word) : Nat :=
  (List.range 32).foldl (fun c _ => crcBit c) (c ^^^ w.toNat)

/-- CRC-32 over words, initial value 0xFFFF_FFFF and final complement. -/
def crc32 (ws : List Word) : Nat := (ws.foldl crcWord 0xFFFFFFFF) ^^^ 0xFFFFFFFF

/-- The CRC of a program memory. -/
def Engine.progCrc (x : Engine) : Nat := crc32 ((List.range 1024).map fun i => Tab.get 0 x.prog i)

/-! ## Starting and stopping (R235, R238, R239) -/

/-- The image may start (R238). -/
def State.imageOk (s : State) (p : Nat) : Bool :=
  !s.sealed || (List.range 16).any fun i => (s.word (PROT + R.PROT_DIG.off + 4 * i)).toNat == (s.eng p).imgcrc

/-- A program start (R215). -/
def Engine.begin (x : Engine) (q : StartReq) : Engine :=
  let y := { x with g := [], acc := [], p0 := false, p1 := false, p2 := false, rflg := 0, nsmp := 0, loop0 := none,
                    loop1 := none, ret := [], lostSeen := false, pc := q.entry, st := E_RUN, waitOn := 0, req := none, handle := q.handle,
                    skipLeft := none }
  if q.handle.isSome then y.putDm 0 q.args else y

/-- The start that engine p waits for is accepted or refused once IMGCRC is current (R238, R239): on the register path only in
CONFIGURE or ARMED and while no descriptor executes on its group. A refusal on a digest completes the command; the spec names no STATUS for it. -/
def State.engAccept (s : State) (p : Nat) : State :=
  let x := s.eng p
  match x.req with
  | none => s
  | some q =>
    if x.crcBusy then s
    else
      let answer (s : State) (r : Nat) : State :=
        if q.handle.isNone then (s.wr (ENG p) R.ENG_ECTL_RESULT r).wr (ENG p) R.ENG_ECTL_START 0
        else s.wr (ENG p) R.ENG_ECTL_RESULT r
      let res := if q.handle.isSome then 0 else firstOf [(!(s.mode == MODE_CONFIGURE || s.mode == MODE_ARMED), 3),
        (x.live || s.cmdOn (s.logEng p / 32), 1)]
      if res ≠ 0 then answer (s.setEng p { x with req := none }) res
      else if s.imageOk p then
        let s := match q.handle with | some h => s.gate x.badCopy (·.cmdFlag h CF_SUSPECT) | none => s
        answer (s.setEng p { x.begin q with badCopy := x.badCopy && q.handle.isNone }) 0
      else
        let s := answer (s.setEng p { x with req := none, st := E_IDLE }) 2
        match q.handle with
        | some h => s.cmdOver h Config.sealedStatus
        | none => s

/-- ENGINE_START_ACCEPTED (R239). -/
def execEngineStartAccepted (p : Fin 528) (s : State) : Host.Outcome State Fault Refusal := run s fun s => s.engAccept p

/-- IMGCRC_DONE (R237). -/
def execImgcrcDone (p : Fin 528) (s : State) : Host.Outcome State Fault Refusal :=
  run s fun s => s.gate ((s.eng p).on && (s.eng p).crcBusy) fun s =>
    s.modEng p fun x => { x with crcBusy := false, imgcrc := x.progCrc }

/-- ECTL.START through the window of logical engine e, or of a spare (R239, R240). It waits while CRCBUSY reads 1. -/
def State.ectlStart (s : State) (src : Src) (e entry : Nat) : State :=
  let p := s.physEng e
  s.goReq src (ENG p) R.ENG_ECTL_START [(R.ENG_ECTL_ENTRY, entry)] (fun s =>
    (s.modEng p fun x => { x with req := some { entry := entry } }).engAccept p) (via := ENG e)

def execEctlStart (src : Src) (e : Fin 528) (entry : BitVec 10) (s : State) : Host.Outcome State Fault Refusal :=
  run s fun s => s.ectlStart src e entry.toNat

/-- ECTL.STOP (R235): exception STOPPED in RUN or WAIT; the request clears at once. A pending START holds it back only where
the write would change ENTRY (R275). -/
def State.ectlStop (s : State) (src : Src) (e entry : Nat) : State :=
  let p := s.physEng e
  let a := ENG p + R.ENG_ECTL_STOP.off
  if !(s.access src && s.blockOn a) then s
  else if s.is (ENG p) R.ENG_ECTL_START = true ∧ s.rd (ENG p) R.ENG_ECTL_ENTRY ≠ entry then
    s.refuse (ENG e + R.ENG_ECTL_STOP.off) RC_GOPEND src
  else
    let s := (s.cfgWrite a src).wr (ENG p) R.ENG_ECTL_ENTRY entry
    s.gate (s.eng p).live (·.engExc p 9)

def execEctlStop (src : Src) (e : Fin 528) (entry : BitVec 10) (s : State) : Host.Outcome State Fault Refusal :=
  run s fun s => s.ectlStop src e entry.toNat

/-- A host write to word i of program (i < 1,024) or data memory (R217): a locked write while the engine runs, refused where
it would change the word and without effect where it carries the held one (R278); otherwise stored, and IMGCRC is computed
again after a program write. -/
def State.engMemWrite (s : State) (src : Src) (e i : Nat) (v : Word) : State :=
  let p := s.physEng e
  let x := s.eng p
  let o := if i < 1024 then 0x1000 + 4 * i else 0x2000 + 4 * (i - 1024)
  let a := ENG p + o
  if !(s.access src && s.blockOn a) then s
  else
    let old := if i < 1024 then Tab.get 0 x.prog i else x.dm (i - 1024)
    if x.live then s.gate (v != old) (·.refuse (ENG e + o) RC_BOLT src)
    else if i < 1024 then (s.setEng p { x with prog := Tab.set 0 x.prog i v, crcBusy := true }).cfgWrite a src
    else (s.setEng p (x.setDm (i - 1024) v)).cfgWrite a src

/-- ENGINE_MEMORY_WRITE: word i of the memory, program words 0 to 1,023 then data words 1,024 to 3,071. -/
def execEngineMemoryWrite (src : Src) (e : Fin 528) (i : Fin 3072) (v : Word) (s : State) :
    Host.Outcome State Fault Refusal :=
  run s fun s => s.engMemWrite src e i v

end Sys2Proof.Machine
end

