-- ==== Sys2Proof/Machine/Pins.lean ====
section
/-! DEFINITION. Machine/Pins.lean: the pin channels and the pattern sequencer (chapter 08): settings taken into force, pin
swings, samples, test steps, the pattern's micro-operations, fail captures and the pattern mailbox. -/

namespace Sys2Proof.Machine

/-! ## Legal settings (R174, R175, R185) -/

/-- A setting of a channel, read from written or in-force words. -/
abbrev Settings := Fld → Nat

/-- The written settings of channel c. -/
def State.written (s : State) (c : Nat) : Settings := fun f => s.rd (CH c) f

/-- The settings in force. -/
def State.inForce (s : State) (c : Nat) : Settings := fun f => s.infF c f

/-- A level in units of 0.5 mV. -/
def lev (f : Settings) (x : Fld) : Int := toSigned 16 (f x)

/-- A level lies between two limits. -/
def levIn (f : Settings) (x : Fld) (lo hi : Int) : Bool := decide (lo ≤ lev f x) && decide (lev f x ≤ hi)

/-- The levels in use are in the ranges of R174. -/
def levelsOk (f : Settings) : Bool :=
  let mode := f R.CH_CMODE_MODE
  let slow := f R.CH_CMODE_DRV == 1
  let drives := mode == 2 || mode == 3
  let lo : Int := if slow then 0 else -3000
  let hi : Int := if slow then 24000 else 13000
  let term := (drives && !slow && f R.CH_CMODE_TEN == 1) || (mode == 2 && f R.CH_CMODE_IDLE == 3)
  (!drives || (levIn f R.CH_DRVLVL_VIH lo hi && levIn f R.CH_DRVLVL_VIL lo hi))
    && (!term || levIn f R.CH_AUXLVL_VTERM (-3000) 13000)
    && (mode == 0 || (levIn f R.CH_CMPLVL_VCH (-3000) 24000 && levIn f R.CH_CMPLVL_VCL (-3000) 24000))
    && (mode != 4 || f R.CH_PMUCFG_PFM == 1 || levIn f R.CH_PMUVAL_FORCE (-4000) 24000)
    && decide (lev f R.CH_DRVLVL_VIL ≤ lev f R.CH_DRVLVL_VIH) && decide (lev f R.CH_CMPLVL_VCL ≤ lev f R.CH_CMPLVL_VCH)

/-- Field f of timing set n. -/
def tsF (n : Nat) (x : Fld) : Fld := { x with off := x.off + 16 * n }

/-- An edge of set n in fine steps. -/
def edge (f : Settings) (n : Nat) (c fi : Fld) : Nat := f (tsF n c) * 256 + f (tsF n fi)
def edgeOn (f : Settings) (n : Nat) : Nat := edge f n R.CH_TS_ON_COARSE R.CH_TS_ON_FINE
def edgeData (f : Settings) (n : Nat) : Nat := edge f n R.CH_TS_DATA_COARSE R.CH_TS_DATA_FINE
def edgeOff (f : Settings) (n : Nat) : Nat := edge f n R.CH_TS_OFF_COARSE R.CH_TS_OFF_FINE
def edgeStrb (f : Settings) (n : Nat) : Nat := edge f n R.CH_TS_STRB_COARSE R.CH_TS_STRB_FINE

/-- Format of set n. -/
def tsFmt (f : Settings) (n : Nat) : Nat := f R.CH_TSFMT / 4 ^ n % 4

/-- An edge lies within a period of `per` units of T_VCO / 2^32. -/
def inPeriod (e per : Nat) : Bool := decide (e * 2 ^ 32 < 256 * per)

/-- The counts of R185: in PAT mode all sets against O_v, in CLK mode set 0 against the channel's own output. -/
def countsOk (f : Settings) (perV perK : Nat) : Bool :=
  let mode := f R.CH_CMODE_MODE
  if mode = 2 then
    (List.range 16).all fun n =>
      inPeriod (edgeOn f n) perV && inPeriod (edgeData f n) perV && inPeriod (edgeOff f n) perV && inPeriod (edgeStrb f n) perV
        && decide (edgeOn f n ≤ edgeData f n) && (tsFmt f n == 0 || decide (edgeData f n ≤ edgeOff f n))
  else if mode = 3 then
    inPeriod (edgeData f 0) perK && inPeriod (edgeOff f 0) perK && decide (edgeData f 0 ≤ edgeOff f 0)
  else true

/-- The pulse of set n from D_DATA to D_OFF lasts at least the minimum of R174 at f_VCO = v. -/
def pulseOk (f : Settings) (n : Nat) (v : Nat × Nat) : Bool :=
  let pulse := if f R.CH_CMODE_DRV = 1 then 25000 else 250
  decide (256 * pulse * v.1 ≤ (edgeOff f n - edgeData f n) * v.2 * 10 ^ 12)

/-- The times of R185 at f_VCO = v: the pulse from D_DATA to D_OFF, and the vector period, in CLK mode that of the channel's own
output. -/
def timesOk (f : Settings) (perV perK : Nat) (v : Nat × Nat) : Bool :=
  let mode := f R.CH_CMODE_MODE
  let period (per : Nat) : Bool :=
    decide ((if f R.CH_CMODE_DRV = 1 then 50000 else 500) * 2 ^ 32 * v.1 ≤ per * v.2 * 10 ^ 12)
  if mode = 2 then period perV && (List.range 16).all fun n => tsFmt f n == 0 || pulseOk f n v
  else if mode = 3 then period perK && pulseOk f 0 v
  else true

/-- The vector clock O_v of group g, in force. -/
def State.vclk (s : State) (g : Nat) : OutSet := s.outSet g (s.rd (GS g) R.GS_PCFG_VSRC)

/-- f_VCO of the active leaf at its target. -/
def State.fvcoTarget (s : State) (g : Nat) : Nat × Nat :=
  let l := s.leaf (s.actLeaf g)
  fvcoOf s.ref.inForce l.dbl l.refdiv (l.target.getD l.ratio)

/-- The settings of channel c, or of the spare set, are legal (R175); the times are judged only when `times`. -/
def State.chanLegal (s : State) (c : Nat) (f : Settings) (times : Bool) : Bool :=
  let g := if c < 512 then c / 32 else c - 512
  let k := if c < 512 then c % 32 else 32
  decide (f R.CH_CMODE_MODE ≤ 4) && levelsOk f && decide (f R.CH_PMUCFG_IRNG ≤ 4)
    && ((List.range 16).all fun n => tsFmt f n != 3)
    && (s.variant.coh || (f R.CH_CMODE_ADCSRC != 0 && f R.CH_CMODE_ADCSRC != 3))
    && countsOk f (s.vclk g).period (s.outSet g k).period
    && (!times || timesOk f (s.vclk g).period (s.outSet g k).period (s.fvcoTarget g))

/-- A leaf of the group that serves is LOCKED: the active leaf, or its guard. -/
def State.lockedServing (s : State) (g : Nat) : Bool := s.lst (s.actLeaf g) == L_LOCKED || s.guardIn g

/-- The page offsets of a channel's settings. -/
def chanOffs : List Nat := [0x0, 0x8, 0xC, 0x10, 0x14, 0x18, 0x1C] ++ (List.range 64).map fun i => 0x100 + 4 * i

/-- Written settings of channel c or spare set 512 + g take effect, while no step executes on the group, when they are legal;
otherwise those in force stay, ILLEG reads 1 and EV(12g + 6) is raised (R175). A serving spare keeps the channel's. -/
def State.chanApply (s : State) (c : Nat) : State :=
  let g := if c < 512 then c / 32 else c - 512
  if !s.is (CH c) R.CH_CSTAT_PEND || s.stepOn g || (decide (512 ≤ c) && (s.chan c).serves.isSome) then s
  else
    let s := s.wr (CH c) R.CH_CSTAT_PEND 0
    if s.chanLegal c (s.written c) (s.lockedServing g) then
      let put (t : Tab Word) (o : Nat) : Tab Word := Tab.set (resetWord s.variant (CH c + o)) t o (s.word (CH c + o))
      let s := s.modChan c fun x => { x with inf := chanOffs.foldl put x.inf }
      let s := s.gate (decide (c < 512) && (s.chan (512 + g)).serves == some (c % 32)) fun s =>
        s.modChan (512 + g) fun x => { x with inf := (s.chan c).inf }
      s.wr (CH c) R.CH_CSTAT_ILLEG 0
    else (s.wr (CH c) R.CH_CSTAT_ILLEG 1).graise g 6 c

/-- CHANNEL_SETTINGS_APPLY (R175). -/
def execChannelSettingsApply (c : Fin 528) (s : State) : Host.Outcome State Fault Refusal :=
  run s fun s => s.chanApply c

/-! ## Sites (R181) -/

/-- The written site maps and configurations of group g take effect while no step executes. -/
def State.siteApply (s : State) (g : Nat) : State :=
  if !(s.grp g).on || s.stepOn g then s
  else
    let s := s.repower fun s => s.modGrp g fun x =>
      { x with siteMap := (List.range 4).map fun i => s.rd (GS g + 4 * i) R.GS_SITE_MAP,
               siteCfg := (List.range 4).map fun i => (s.word (GS g + 4 * i + R.GS_SITE_CFG_EN.off)).toNat }
    s.flag (GS g) R.GS_PSTAT_OVL (s.sitesOverlap g)

/-- SITE_SETTINGS_APPLY (R181). -/
def execSiteSettingsApply (g : Fin 16) (s : State) : Host.Outcome State Fault Refusal := run s fun s => s.siteApply g

/-! ## Pin swings (R180) -/

/-- The handover of channel c at its quiet point: to the spare, or back to the regular set. A calibration that waited for it
goes on, or is over; a set taken out by a fault is isolated. -/
def State.handover (s : State) (c : Nat) : State :=
  let g := c / 32
  let k := c % 32
  let r := s.roll g
  match (s.chan c).swing with
  | none => s
  | some true =>
    let s := (s.wr (CH c) R.CH_CSTAT_SPARE 1).wr (CH c) R.CH_CSTAT_SHADOW 0
    if r.step = 1 ∧ r.ch = k then
      (s.modChan c fun x => { x with swing := none, cal := true }).setRoll g { r with step := 2 }
    else s.modChan c fun x => { x with swing := none, iso := true }
  | some false =>
    let s := (s.wr (CH c) R.CH_CSTAT_SPARE 0).modChan c fun x => { x with swing := none, iso := false, cause := 0, tries := 0 }
    let s := s.unshadow g k
    let s := if r.step = 3 ∧ r.ch = k then s.setRoll g { r with step := 0, abandoned := false } else s
    let s := s.gate (s.flt.freed.contains g) fun s =>
      (s.modFlt fun f => { f with freed := f.freed.filter (· != g) }).spareForDown g
    s.takeSpare g

/-- A test step executes on the site of channel c, or of the channel that spare set c shadows or serves. -/
def State.siteStep (s : State) (c : Nat) : Bool :=
  let g := if c < 512 then c / 32 else c - 512
  let x := s.grp g
  let k := if c < 512 then some (c % 32) else s.spareServes g
  match x.cur, (match k with | some k => x.siteOf k | none => none) with
  | some st, some i => st.steps.any fun t => bitOf t.sites i
  | _, _ => false

/-- Under BOUNDARY the swing back of a rolling calibration waits for an idle period, unless it was abandoned (R326, R327). -/
def State.rollWaits (s : State) (c : Nat) : Bool :=
  let r := s.roll (c / 32)
  r.step == 3 && r.ch == c % 32 && !r.abandoned && s.is CAL R.CAL_CFG_APPLY && s.siteStep c

/-- PIN_SWING_HANDOVER. A channel forcing through its PMU has no quiet point within a step. `tight`: a CLK channel swung in a
low phase shorter than 4 ns, or a sample or strobe fell within 2 ns, so the step's results carry SUSPECT. -/
def State.pinSwing (s : State) (c : Nat) (tight : Bool) : State :=
  if (s.stepOn (c / 32) ∧ s.infF c R.CH_CMODE_MODE = 4) ∨ s.rollWaits c then s
  else (s.gate (tight && (s.chan c).swing.isSome) (·.stepSuspect (c / 32) (2 ^ (c % 32)))).handover c

def execPinSwingHandover (c : Fin 512) (tight : Bool) (s : State) : Host.Outcome State Fault Refusal :=
  run s fun s => s.pinSwing c tight

/-- PIN_SWING_TIMEOUT (R180): 100 ms without a quiet point; the swing is made at the next vector boundary. -/
def execPinSwingTimeout (c : Fin 512) (s : State) : Host.Outcome State Fault Refusal :=
  run s fun s => s.gate ((s.chan c).swing.isSome && s.stepOn (c / 32)) fun s =>
    (s.stepSuspect (c / 32) (2 ^ (c.val % 32))).handover c

/-! ## Samples (R19, R177, R204, R207) -/

/-- The module is a segment head or in a segment (R168). -/
def State.segmented (s : State) : Bool := s.variant.mc && decide (6 ≤ s.rd MSC R.MSC_STAT_STATE)

/-- Words now delivered carry UNSET (R207). -/
def State.unset (s : State) (g : Nat) : Bool :=
  (s.hopBusy g && decide ((s.grp g).swing ≠ some .route)) || (s.grp g).settling || s.is (LP (s.actLeaf g)) R.LP_LSTAT_SLEWING

/-- Words now delivered carry CONT: unanchored by a small step or a CONTINUOUS swing. -/
def State.contNow (s : State) (g : Nat) : Bool := !(s.grp g).anchored

/-- The set that serves channel c holds NOCAL values, or the active leaf does (R316). -/
def State.nocal (s : State) (c : Nat) : Bool :=
  let set := if s.is (CH c) R.CH_CSTAT_SPARE then setUnit (512 + c / 32) else setUnit c
  !(s.calUnit set).accepted || !(s.calUnit (leafUnit (s.actLeaf (c / 32)))).accepted

/-- The channel's set failed, and may be retired since, and its spare has not yet taken over (R336). -/
def State.faulted (s : State) (c : Nat) : Bool :=
  let m := SPM (c / 32)
  ((s.chan c).cause != 0 || (s.is m R.FLT_SPMAP_SERVES && s.rd m R.FLT_SPMAP_CH == c % 32)) && !s.is (CH c) R.CH_CSTAT_SPARE

/-- What is produced on group g now carries SUSPECT: a recovery has not settled (R150), or the driving leaf is in FAULT (R112). -/
def State.leafSuspect (s : State) (g : Nat) : Bool := (s.grp g).gapSusp || s.lst (s.actLeaf g) == L_FAULT

/-- The intervals after a hop (R207) and after a recovery (R150) in which results are marked are over. -/
def State.settled (s : State) (g : Nat) (yes : Bool) : State :=
  s.gate yes fun s => s.modGrp g fun x => { x with settling := false, gapSusp := false }

/-- A sample of channel c at O33 edge n enters its engine's FIFO, or is dropped when 64 samples are held (R19, R221). The PMU's
limit or clamp shows while the PMU forces (R178). -/
def State.sample (s : State) (c code n : Nat) (susp settled pclamp : Bool) : State :=
  let g := c / 32
  let x := s.grp g
  let src := s.infF c R.CH_CMODE_ADCSRC
  if !(s.setsOn g).testBit (c % 32) then s
  else
  let s := s.wr (CH c) R.CH_CSTAT_PCLAMP (b2n (pclamp && s.infF c R.CH_CMODE_MODE == 4))
  if s.infF c R.CH_CMODE_MODE == 0 || s.infF c R.CH_CMODE_ADCEN == 0 then s
  else
    let s := (s.settled g settled).wordOut g
    let v : Int := if src = 1 then toSigned 18 code else (code : Int) - 131072
    let sat := if src = 1 then v == -131072 || v == 131071 else code == 0 || code == 262143
    let phase := if x.pwEn then s.phaseWord g n else (Config.idlePhase s.freeCtr).toNat
    let s := s.gate (!x.pwEn) (·.tick)
    let p := s.physEng c
    let y := s.eng p
    if !y.live then s.modChan c fun z => { z with rstSeen := x.rstGen }
    else if 64 ≤ (y.fifo.filter fun e => !e.mark).length then
      let s := (s.setEng p { y with rstNext := true, lostNext := true }).inc (CH c) R.CH_OVFCNT
      if (s.chan c).ovfSeen then s
      else (s.modChan c fun z => { z with ovfSeen := true }).raise 207 c
    else
      let e : Entry :=
        { s := v, phase := phase, rst := y.rstNext || (s.chan c).rstSeen != x.rstGen, unset := s.unset g,
          coast := s.coasting g || s.segmented, cont := s.contNow g, sat := sat,
          susp := susp || s.leafSuspect g || s.nocal c || s.faulted c || s.debugD2, lost := y.lostNext }
      (s.setEng p { y with fifo := y.fifo ++ [e], rstNext := false, lostNext := false }).modChan c fun z => { z with rstSeen := x.rstGen }

/-- ADC_SAMPLE_ENTRY. `code` is the converter's code, `n` the number of the O33 edge since the anchor; `susp`: the sample lies
in an interval that R147, R150 or R178 marks; `settled`: 2 µs or more have passed since hop completion, and a leaf that recovers
is within 0.01 ppm; `pclamp`: the PMU's limit
or clamp acts. -/
def execAdcSampleEntry (c : Fin 512) (code : BitVec 18) (n : BitVec 48) (susp settled pclamp : Bool) (s : State) :
    Host.Outcome State Fault Refusal :=
  run s fun s => s.sample c code.toNat n.toNat susp settled pclamp

/-! ## Modes left at a step boundary (R27, R40) -/

/-- The commands that execute are aborted at their boundary. -/
def State.abortAll (s : State) (p : Cmd → Bool) : State :=
  forAll ((s.cmds.filter fun c => c.phase == .running && p c).map (·.handle)) (fun h s => s.cmdAbort h true) s

/-- The present request is made from a mode in which no step executes: 4 to ARMED, 3 to CONFIGURE, 2 and 0 to STANDBY; a
power-down goes on with the slot writes (R40). -/
def State.modeGo (s : State) (t : Nat) : State :=
  if t = 4 then (s.setMode MODE_ARMED).modeResult 0
  else if t = 3 then (s.setMode MODE_CONFIGURE).modeResult 0
  else
    let s := s.abortAll fun _ => true
    let s := s.repower (·.setMode MODE_STANDBY)
    if t = 2 then s.modeResult 0 else (s.modPower fun p => { p with downStep := 2 }).downGo

/-! ## Test steps: the checks of R192 -/

/-- The channels (positions) of the sites of group g that a mask of four bits names. -/
def Grp.members (x : Grp) (sites : Nat) : List Nat :=
  (List.range 32).filter fun k => (List.range 4).any fun i => bitOf sites i && bitOf (x.siteMask i) k

/-- Throttle level. -/
def State.throttle (s : State) : Nat := s.rd HK R.HK_TSTAT_LEVEL

/-- A member of the sites is in actuation mode. -/
def State.actuates (s : State) (g sites : Nat) : Bool :=
  ((s.grp g).members sites).any fun k => s.infF (32 * g + k) R.CH_CMODE_DRV == 1 &&
    (s.infF (32 * g + k) R.CH_CMODE_MODE == 2 || s.infF (32 * g + k) R.CH_CMODE_MODE == 3)

/-- Under T2 the step waits: a member in actuation mode, or T_V below 1.0 ns. -/
def State.t2Waits (s : State) (g sites : Nat) : Bool :=
  let v := s.fvcoTarget g
  s.throttle == 2 &&
    (s.actuates g sites
      || decide ((s.vclk g).period * v.2 * 10 ^ 12 < 1000 * 2 ^ 32 * v.1))

/-- A step of the sites waits (R192). -/
def State.stepWaits (s : State) (g : Nat) (t : TStep) : Bool :=
  !(s.mode == MODE_ARMED || s.mode == MODE_RUN)
    || s.slewOn g || s.pausedGrp g || decide (3 ≤ s.throttle) || s.t2Waits g t.sites
    || (s.siteEngines g t.sites).any (fun e => !(s.eng (s.physEng e)).cwait.isEmpty)
    || s.engines.any (fun e => match e.2.req with | some q => q.handle == some t.handle | none => false)

/-- Two outputs divide alike (R182). -/
def OutSet.divides (a b : OutSet) : Bool := decide (a.odiv = b.odiv) && decide (a.frac = b.frac) && decide (a.ps = b.ps)

/-- The command of a step starts engines. -/
def State.startsEngines (s : State) (h : Nat) : Bool := match s.cmd? h with
  | some c => c.op == 1 && getBits (c.args.getD 0 0) 30 1 == 1
  | none => false

/-- A check of R192 or R339 fails at the start boundary: outcome SETUP. -/
def State.stepSetup (s : State) (g : Nat) (t : TStep) : Bool :=
  let x := s.grp g
  let ks := x.members t.sites
  let c (k : Nat) : Nat := 32 * g + k
  let w := s.rd (GS g) R.GS_PCFG_WIDTH
  let v := s.fvcoTarget g
  !ks.all (fun k => s.chanLegal (c k) (s.inForce (c k)) true)
    || ks.any (fun k => s.infF (c k) R.CH_CMODE_MODE == 2 && !(s.outSet g k).divides (s.vclk g))
    || (ks.any (fun k => s.infF (c k) R.CH_CMODE_ADCEN == 1)
        && decide (4000000 * v.2 * (s.outSet g 33).period < v.1 * 2 ^ 32))
    || (List.range 4).any (fun i => bitOf t.sites i && !x.siteEn i)
    || decide (w < 1) || decide (32 < w)
    || ks.any (fun k => s.chDown (c k) && s.infF (c k) R.CH_CMODE_MODE != 0)
    || (s.startsEngines t.handle && ks.any fun k => s.engDown (c k))

/-- Steps that can start now. -/
def State.stepReady (s : State) (g : Nat) (t : TStep) : Bool := !s.stepWaits g t && !s.stepSetup g t

/-- RUN is left when no step executes and none is ready (R27); a request that waited for the boundary is then made. -/
def State.runOver (s : State) : State :=
  let gs := List.range s.variant.groups
  if s.mode ≠ MODE_RUN ∨ gs.any (fun g => s.stepOn g) then s
  else if s.power.reqPending then (s.setMode MODE_ARMED).modeGo s.power.reqTarget
  else if gs.any (fun g => ((s.grp g).replay ++ (s.grp g).steps).any fun t => s.stepReady g t) then s
  else s.setMode MODE_ARMED

/-! ## The end of a step (R193, R236, R261, R341) -/

/-- FAILCNT then FIRSTFAIL enter the comparator FIFO of a channel's engine, or wait for room (R236, R221). -/
def State.cmpWords (s : State) (c : Nat) : State :=
  let ws : List Word := [s.word (CH c + R.CH_FAILCNT.off), s.word (CH c + R.CH_FIRSTFAIL.off)]
  let p := s.physEng c
  let x := s.eng p
  if !x.live then s
  else if x.cfifo.length + 2 ≤ 16 ∧ x.cwait = [] then s.setEng p { x with cfifo := x.cfifo ++ ws }
  else s.setEng p { x with cwait := x.cwait ++ ws }

/-- Every engine of the step's sites holds a program that can start (R341). -/
def State.canRestart (s : State) (g : Nat) (t : TStep) : Bool :=
  !s.startsEngines t.handle || (s.siteEngines g t.sites).all fun e =>
    let p := s.physEng e
    !s.engDown e && s.imageOk p

/-- An affected step is replayed (R341). -/
def State.replays (s : State) (g : Nat) (st : Stream) (t : TStep) : Bool :=
  let m := s.rd FLT R.FLT_CFG
  t.affected && decide (t.replays < (if m = 3 then 2 else m))
    && (match s.cmd? t.handle with | some c => !bitOf c.flags 1 && c.phase == .running | none => false)
    && (match st.norpl with | some v => decide (t.affVec < v) | none => true)
    && !st.hopped && s.canRestart g t && s.mode == MODE_RUN && !s.power.reqPending && !t.abort

/-- The sites' outcomes (R193): PATERR, then MATCH, FAIL, PASS. -/
def TStep.outcome (t : TStep) (paterr : Bool) (i : Nat) : Nat :=
  if !bitOf t.sites i then 0 else if paterr then 4 else if bitOf t.unmatched i then 2 else if bitOf t.failed i then 1 else 0

/-- One step of the stream ends: replayed, or reported. -/
def State.stepOver (s : State) (g : Nat) (st : Stream) (paterr : Bool) (t : TStep) : State :=
  if s.replays g st t then
    s.modGrp g fun x => { x with replay := x.replay ++
      [{ handle := t.handle, sites := t.sites, line0 := t.line0, replays := t.replays, bufMark := t.bufMark }] }
  else
    let s := s.gate t.affected fun s =>
      (s.inc FLT R.FLT_NRPLCNT).graise g 11 (s.stepNo t.handle + ringOf t.handle * 65536)
    let status := if paterr then ST_PATERR else if t.failed != 0 || t.unmatched != 0 then ST_FAIL else 0
    let s := s.stepReport g t (t.outcome paterr) status
    if t.abort ∧ ¬ s.stepping t.handle then
      let s := s.cmdOver t.handle ST_ABORTED
      s.gate (!s.ringOwns (ringOf t.handle)) (·.repower id)
    else s

/-- The stream of group g ends at a HALT, or under R188 with PATERR. -/
def State.streamEnd (s : State) (g : Nat) (paterr : Bool) : State :=
  match (s.grp g).cur with
  | none => s
  | some st =>
    let sites := st.steps.foldl (fun m t => m ||| t.sites) 0
    let s := forAll (s.siteEngines g sites) (fun e s => s.cmpWords e) s
    let s := s.modGrp g fun x => { x with cur := none }
    let s := s.wr (GS g) R.GS_PSTAT_STEP 0
    let s := forAll st.steps (fun t s => s.stepOver g st paterr t) s
    s.runOver

/-! ## Drivers (R174, R176, R179, R184) -/

/-- The members of the enabled sites of group g that the pattern drives: (site, column, position), in PAT mode and below WIDTH
(R181). DEDUCED (assumption 95): the template drives every enabled site, also one that the step does not name. -/
def State.patCols (s : State) (g i : Nat) : List (Nat × Nat) :=
  let x := s.grp g
  let ks := (List.range 32).filter fun k => bitOf (x.siteMask i) k
  ((List.range ks.length).zip ks).filter fun (j, k) =>
    decide (j < s.rd (GS g) R.GS_PCFG_WIDTH) && s.infF (32 * g + k) R.CH_CMODE_MODE == 2

/-- Changes every channel that the pattern of group g drives, given its column. -/
def State.forPat (s : State) (g : Nat) (f : Nat → Nat → State → State) : State :=
  forAll ((List.range 4).filter (s.grp g).siteEn) (fun i s =>
    forAll (s.patCols g i) (fun (j, k) s => f j (32 * g + k) s) s) s

/-- Before its first vector every driver is in the channel's idle state (R176). DESIGN CHOICE (assumption 96): symbol K before any
data repeats the idle level. -/
def State.driversIdle (s : State) (g : Nat) : State :=
  s.forPat g fun _ c s =>
    let idle := s.infF c R.CH_CMODE_IDLE
    s.modChan c fun x => { x with drvOn := idle == 1 || idle == 2, drvLvl := idle == 2, drvData := idle == 2 }

/-- Symbol y with timing set n at a driver (R184): what happens, each with its edge in fine steps, and the driver after it. DESIGN
CHOICE (assumption 96): K repeats the last data bit. -/
def symbolDrive (f : Settings) (n y : Nat) (x : Chan) : List (Nat × DriveEv) × Chan :=
  let ev (c : Bool) (t : Nat) (e : DriveEv) : List (Nat × DriveEv) := if c then [(t, e)] else []
  if y = 0 ∨ y = 1 ∨ y = 6 then
    let d := if y = 6 then x.drvData else y == 1
    let back := (tsFmt f n == 1 && d) || (tsFmt f n == 2 && !d)
    (ev (!x.drvOn) (edgeOn f n) .on ++ ev (!x.drvOn || x.drvLvl != d) (edgeData f n) (.level d)
      ++ ev back (edgeOff f n) (.level !d), { x with drvOn := true, drvData := d, drvLvl := d != back })
  else (ev x.drvOn (edgeOff f n) .off ++ ev (decide (2 ≤ y) && decide (y ≤ 4)) (edgeStrb f n) .strobe, { x with drvOn := false })

/-! ## Step start (R191, R192) -/

/-- A step refused with SETUP. -/
def State.stepRefuse (s : State) (g : Nat) (t : TStep) : State :=
  let s := s.modGrp g fun x => { x with steps := x.steps.filter fun u => u.handle != t.handle }
  s.stepCut g t 3 ST_SETUP

/-- The steps of a stream start: FAILCNT and FIRSTFAIL restart, STEPCNT counts, and the mode is RUN. A step that starts while a
recovery has not settled or a failed set has no successor yet is affected from its first vector (R341). -/
def State.streamStart (s : State) (g : Nat) (ts : List TStep) (line : Nat) : State :=
  let sites := ts.foldl (fun m t => m ||| t.sites) 0
  let s := forAll ((s.grp g).members sites) (fun k s =>
    let c := 32 * g + k
    ((s.wr (CH c) R.CH_FAILCNT 0).wr (CH c) R.CH_FIRSTFAIL 0xFFFFFFFF).modChan c fun x => { x with ovfSeen := false }) s
  let s := s.driversIdle g
  let coast := s.coasting g || s.segmented
  let any (t : TStep) (p : Nat → Bool) : Bool :=
    ((s.grp g).members t.sites).any fun k => s.infF (32 * g + k) R.CH_CMODE_MODE != 0 && p (32 * g + k)
  let mark (t : TStep) : TStep :=
    { t with suspect := s.debugD2 || s.leafSuspect g || any t s.nocal || any t s.faulted,
             affected := (s.grp g).gapSusp || any t s.faulted, affVec := 0,
             coast := coast, bufMark := match s.cmd? t.handle with | some c => c.rbytes | none => 0 }
  let s := s.modGrp g fun x => { x with cur := some { steps := ts.map mark, line := line } }
  let s := s.inc (GS g) R.GS_STEPCNT
  let s := (s.wr (GS g) R.GS_PSTAT_STEP 1).wr (GS g) R.GS_PSTAT_LINE line
  s.gate (s.mode == MODE_ARMED) (·.setMode MODE_RUN)

/-- The first ready step of group g starts, with every other ready step of the same start line; steps that fail a check are
refused, and a step that the throttle holds back shows THROTTLED. -/
def State.stepStart (s : State) (g : Nat) : State :=
  if s.stepOn g ∨ ¬ (s.grp g).on ∨ (s.grp g).replay ≠ [] then s
  else
    let s := forAll ((s.grp g).steps.filter fun t => !s.stepWaits g t && s.stepSetup g t) (fun t s => s.stepRefuse g t) s
    let s := forAll ((s.grp g).steps.filter fun t => decide (3 ≤ s.throttle) || s.t2Waits g t.sites)
      (fun t s => s.cmdFlag t.handle CF_THROTTLED) s
    let ready := (s.grp g).steps.filter fun t => s.stepReady g t
    match ready with
    | [] => s
    | t0 :: _ =>
      let ts := ready.filter fun t => t.line0 == t0.line0
      let s := s.modGrp g fun x => { x with steps := x.steps.filter fun t => !ts.contains t }
      s.streamStart g ts t0.line0

/-- TEST_STEP_START (R191). -/
def execTestStepStart (g : Fin 16) (s : State) : Host.Outcome State Fault Refusal := run s fun s => s.stepStart g

/-! ## Vectors (R184, R187 to R189, R194) -/

/-- The four words of pattern line n. -/
def Grp.line (x : Grp) (n : Nat) : List Word := (List.range 4).map fun j => Tab.get 0 x.pat (4 * n + j)

/-- Symbol of column j. -/
def lineSym (l : List Word) (j : Nat) : Nat :=
  let v := (l.getD 0 0).toNat + (l.getD 1 0).toNat * 2 ^ 32 + (l.getD 2 0).toNat * 2 ^ 64
  v / 2 ^ (3 * j) % 8

/-- Timing set of a line, for all columns (R183, R186). -/
def lineTs (l : List Word) : Nat := getBits (l.getD 3 0) 0 4

/-- Micro-operation and operand of a line. -/
def lineOp (l : List Word) : Nat := getBits (l.getD 3 0) 4 4
def lineArg (l : List Word) : Nat := getBits (l.getD 3 0) 8 24

/-- Columns of site i of group g that compare on this line: (column, position), for members in PAT mode below WIDTH. -/
def State.compares (s : State) (g i : Nat) (l : List Word) : List (Nat × Nat) :=
  (s.patCols g i).filter fun (j, _) => decide (2 ≤ lineSym l j) && decide (lineSym l j ≤ 4)

/-- A line's vector at the pins (R183, R184): each driven channel acts on the edges of the line's timing set. -/
def State.driveLine (s : State) (g : Nat) (l : List Word) : State :=
  s.forPat g fun j c s =>
    let d := symbolDrive (s.inForce c) (lineTs l) (lineSym l j) (s.chan c)
    (s.setChan c d.2).gate (!d.1.isEmpty) (·.send (.drive c d.1))

/-- The sites of a stream. -/
def Stream.sites (st : Stream) : Nat := st.steps.foldl (fun m t => m ||| t.sites) 0

/-- A failed compare of channel c at vector v counts, and the first is kept (R194). -/
def State.compareFail (s : State) (c v : Nat) : State :=
  let s := s.inc (CH c) R.CH_FAILCNT
  s.gate (s.rd (CH c) R.CH_FIRSTFAIL == 0xFFFFFFFF) (·.wr (CH c) R.CH_FIRSTFAIL (satTo 0xFFFFFFFE v))

/-- The failing columns of a site at vector v: FAIL for its step, and a capture of the first 64 failing vectors. -/
def State.siteFail (s : State) (g i v cols : Nat) : State :=
  let x := s.grp g
  match x.cur with
  | none => s
  | some st =>
    let n := (st.steps.find? fun t => bitOf t.sites i).elim 64 fun t => t.caps.getD i 0
    let up (t : TStep) : TStep :=
      if bitOf t.sites i then { t with failed := setBit t.failed i true, caps := t.caps.set i (n + 1) } else t
    let cur := some { st with steps := st.steps.map up }
    if n < 64 then s.setGrp g { x with cur := cur, cmp := x.cmp ++ [{ site := i, index := n, vector := v, fails := cols }] }
    else s.setGrp g { x with cur := cur }

/-- The compares of one issue of a line: outside MATCH they count and are captured (R194). -/
def State.compareLine (s : State) (g : Nat) (l : List Word) (fails v : Nat) : State :=
  match (s.grp g).cur with
  | none => s
  | some st =>
    iter 4 (fun i s =>
      if !bitOf st.sites i then s
      else
        let bad := (s.compares g i l).filter fun (_, k) => bitOf fails k
        let s := forAll bad (fun (_, k) s => s.compareFail (32 * g + k) v) s
        s.gate (!bad.isEmpty) (·.siteFail g i v (bad.foldl (fun m (j, _) => m + 2 ^ j) 0))) s

/-- The sites of a mask whose every compare of this issue passes. -/
def State.matchedNow (s : State) (g sites : Nat) (l : List Word) (fails : Nat) : Nat :=
  (List.range 4).foldl (fun m i =>
    if bitOf sites i && (s.compares g i l).all (fun (_, k) => !bitOf fails k) then m + 2 ^ i else m) 0

/-- The stream moves to line n; past line 0x1FFFF the step ends with PATERR (R188). -/
def State.toLine (s : State) (g n : Nat) : State :=
  if 0x20000 ≤ n then s.streamEnd g true
  else (s.modGrp g fun x => { x with cur := x.cur.map fun st => { st with line := n, rep := none, matched := 0 } }).wr
    (GS g) R.GS_PSTAT_LINE n

/-- Changes the stream of group g. -/
def State.modCur (s : State) (g : Nat) (f : Stream → Stream) : State :=
  s.modGrp g fun x => { x with cur := x.cur.map f }

/-- The stream repeats its line: `left` issues remain. -/
def State.again (s : State) (g left : Nat) : State := s.modCur g fun st => { st with rep := some left }

/-- Some command of the stream's sites holds or has joined the route (R187). -/
def State.streamJoined (s : State) (g : Nat) (st : Stream) : Bool :=
  match (s.grp g).route with
  | none => false
  | some r => !r.byReg && st.steps.any fun t => (r.holder :: r.joined).contains t.handle

/-- What follows the vector: the micro-operation of the line (R187 to R189). -/
def State.micro (s : State) (g : Nat) (st : Stream) (l : List Word) (fails v : Nat) : State :=
  let arg := lineArg l
  let next (s : State) : State := s.toLine g (st.line + 1)
  match lineOp l with
  | 1 =>
    let left := st.rep.getD arg
    if left = 0 then next s else s.again g (left - 1)
  | 2 =>
    let n := arg % 2 ^ 23
    next (s.modCur g fun st => if bitOf arg 23 then { st with loop1 := n } else { st with loop0 := n })
  | 3 =>
    let k := if bitOf arg 23 then st.loop1 else st.loop0
    let s := s.modCur g fun st => if bitOf arg 23 then { st with loop1 := k - 1 } else { st with loop0 := k - 1 }
    if k ≤ 1 then next s else s.toLine g (arg % 2 ^ 17)
  | 4 => s.toLine g (arg % 2 ^ 17)
  | 5 =>
    let en := (s.grp g).enabled
    let m := st.matched ||| s.matchedNow g en l fails
    let left := st.rep.getD arg
    if m &&& en = en ∨ left = 0 then
      let open_ := (st.sites ||| m) ^^^ m
      let up (t : TStep) : TStep := { t with unmatched := t.unmatched ||| (t.sites &&& open_) }
      next (s.modCur g fun st => { st with steps := st.steps.map up })
    else (s.again g (left - 1)).modCur g fun st => { st with matched := m }
  | 6 => next (s.routeTrigger g 2 (s.streamJoined g st))
  | 7 =>
    let word := arg % 256 * 4096 + 2 ^ 30
    next (forAll (s.siteEngines g (s.grp g).enabled) (fun e s => s.pushMark e { mark := true, code := word, vcnt := v }) s)
  | 8 =>
    let on := if bitOf arg 0 then s.is (GS g) R.GS_RSTAT_RUN
      else s.is (GS g) R.GS_RSTAT_HOPPING || s.is (GS g) R.GS_RSTAT_HELD
    if on then s else next s
  | 9 => next (s.modCur g fun st => { st with norpl := some (st.norpl.getD v) })
  | 10 => s.streamEnd g false
  | _ => next s

/-- A vector of the executing step is issued, and its line's micro-operation follows. `fails`: the channels whose compare
failed; `clips`: those in PAT mode whose drive transitions fell closer than the minimum pulse, so that the later one is taken one
minimum pulse after the earlier (R185); `settled`: as for a sample. Nothing while the sequencer holds (R195), or where the line has
another micro-operation. -/
def State.vector (s : State) (g op fails clips : Nat) (settled : Bool) : State :=
  match (s.grp g).cur with
  | none => s
  | some st =>
    let l := (s.grp g).line st.line
    if lineOp l ≠ op ∨ s.is (GS g) R.GS_PSTAT_FHOLD ∨ 512 ≤ (s.grp g).cmp.length then s
    else
      let v := st.vcnt
      let s := (s.settled g settled).driveLine g l
      let clipped := ((s.grp g).members st.sites).filter fun k => bitOf clips k && s.infF (32 * g + k) R.CH_CMODE_MODE == 2
      let s := forAll clipped (fun k s => s.inc (CH (32 * g + k)) R.CH_CLIPCNT) s
      let all (susp : Bool) (t : TStep) : TStep := { t with suspect := t.suspect || susp, coast := t.coast || s.coasting g || s.segmented }
      let s := s.modCur g fun st =>
        { st with vcnt := v + 1, steps := st.steps.map (all (!clipped.isEmpty || s.leafSuspect g || s.debugD2)) }
      let s := s.gate (op != 5) (·.compareLine g l fails v)
      match (s.grp g).cur with
      | some st => s.micro g st l fails v
      | none => s

/-- One row for each micro-operation. A line written with the reserved OP 11 to 15 cannot be stored (R190). -/
def execPatNext (g : Fin 16) (fails clips : Word) (s : State) (settled : Bool := true) : Host.Outcome State Fault Refusal :=
  run s fun s => s.vector g 0 fails.toNat clips.toNat settled
def execPatRepeat (g : Fin 16) (fails clips : Word) (s : State) (settled : Bool := true) : Host.Outcome State Fault Refusal :=
  run s fun s => s.vector g 1 fails.toNat clips.toNat settled
def execPatLset (g : Fin 16) (fails clips : Word) (s : State) (settled : Bool := true) : Host.Outcome State Fault Refusal :=
  run s fun s => s.vector g 2 fails.toNat clips.toNat settled
def execPatLend (g : Fin 16) (fails clips : Word) (s : State) (settled : Bool := true) : Host.Outcome State Fault Refusal :=
  run s fun s => s.vector g 3 fails.toNat clips.toNat settled
def execPatJump (g : Fin 16) (fails clips : Word) (s : State) (settled : Bool := true) : Host.Outcome State Fault Refusal :=
  run s fun s => s.vector g 4 fails.toNat clips.toNat settled
def execPatMatch (g : Fin 16) (fails clips : Word) (s : State) (settled : Bool := true) : Host.Outcome State Fault Refusal :=
  run s fun s => s.vector g 5 fails.toNat clips.toNat settled
def execPatRadv (g : Fin 16) (fails clips : Word) (s : State) (settled : Bool := true) : Host.Outcome State Fault Refusal :=
  run s fun s => s.vector g 6 fails.toNat clips.toNat settled
def execPatMark (g : Fin 16) (fails clips : Word) (s : State) (settled : Bool := true) : Host.Outcome State Fault Refusal :=
  run s fun s => s.vector g 7 fails.toNat clips.toNat settled
def execPatWait (g : Fin 16) (fails clips : Word) (s : State) (settled : Bool := true) : Host.Outcome State Fault Refusal :=
  run s fun s => s.vector g 8 fails.toNat clips.toNat settled
def execPatNorpl (g : Fin 16) (fails clips : Word) (s : State) (settled : Bool := true) : Host.Outcome State Fault Refusal :=
  run s fun s => s.vector g 9 fails.toNat clips.toNat settled
def execPatHalt (g : Fin 16) (fails clips : Word) (s : State) (settled : Bool := true) : Host.Outcome State Fault Refusal :=
  run s fun s => s.vector g 10 fails.toNat clips.toNat settled

/-! ## The pins (R22, R23, R173, R176, R179) -/

/-- What a ball meets. -/
inductive PinState where
  | disconnected | calBus | highZ | terminated | driven (hi : Bool) | clock | pmu
  deriving DecidableEq, Repr

/-- The set of channel c, or spare set 512 + g, is on the calibration bus. -/
def State.onCalBus (s : State) (c : Nat) : Bool :=
  s.setOn c && ((s.chan c).cal || (s.mode == MODE_CALIBRATE && s.inRun (if c < 512 then c / 32 else c - 512)))

/-- The isolation switch of the regular set of channel c is closed: the set is powered, in a mode other than OFF, in service at its
ball, and not under calibration (R179). -/
def State.isolationClosed (s : State) (c : Nat) : Bool :=
  s.setOn c && s.infF c R.CH_CMODE_MODE != 0 && !(s.chan c).iso && !s.is (CH c) R.CH_CSTAT_SPARE && !s.onCalBus c

/-- The hinge switches of channel c: sense while the spare shadows or serves it, force while the spare serves it (R179, R180). -/
def State.hingeSense (s : State) (c : Nat) : Bool := s.setOn (512 + c / 32) && s.spareServes (c / 32) == some (c % 32)
def State.hingeForce (s : State) (c : Nat) : Bool :=
  s.hingeSense c && s.is (CH c) R.CH_CSTAT_SPARE && s.infF c R.CH_CMODE_MODE != 0 && !s.onCalBus (512 + c / 32)

/-- A driver that is off leaves the ball to the termination, in fast mode with TEN, or high-impedance (R174). -/
def State.driverOff (s : State) (c : Nat) : PinState :=
  if s.infF c R.CH_CMODE_TEN = 1 ∧ s.infF c R.CH_CMODE_DRV = 0 then .terminated else .highZ

/-- The pattern drives channel c now: a step executes and the channel is a column of an enabled site. -/
def State.patDriven (s : State) (c : Nat) : Bool :=
  s.stepOn (c / 32) && ((List.range 4).filter (s.grp (c / 32)).siteEn).any fun i =>
    (s.patCols (c / 32) i).any fun (_, k) => k == c % 32

/-- The pin of channel c. DESIGN CHOICE (assumption 97): IDLE acts in PAT mode, and a channel in HIZ mode is high-impedance whatever
it holds. -/
def State.pin (s : State) (c : Nat) : PinState :=
  if s.onCalBus c && !s.hingeForce c then .calBus
  else if !s.isolationClosed c && !s.hingeForce c then .disconnected
  else if s.mode ≠ MODE_ARMED ∧ s.mode ≠ MODE_RUN then .highZ
  else
    let x := s.chan c
    match s.infF c R.CH_CMODE_MODE with
    | 2 =>
      if s.patDriven c then (if x.drvOn then .driven x.drvLvl else s.driverOff c)
      else match s.infF c R.CH_CMODE_IDLE with
        | 0 => s.driverOff c
        | 1 => .driven false
        | 2 => .driven true
        | _ => .terminated
    | 3 => .clock
    | 4 => .pmu
    | _ => .highZ

/-- One reference period of the CLK channels of group g (R185): where f_VCO leaves the pulse below the minimum, each period of the
channel's output is clipped and counted, and the results of a step on its site carry SUSPECT. -/
def State.clkTick (s : State) (g : Nat) : State :=
  let m := s.setsOn g
  let l := s.leaf (s.actLeaf g)
  let i := s.instVal (s.actLeaf g)
  let v := fvcoAt s.ref.inForce l.dbl l.refdiv i
  let ks := (List.range 32).filter fun k => bitOf m k && s.infF (32 * g + k) R.CH_CMODE_MODE == 3
  forAll (if s.mode = MODE_ARMED ∨ s.mode = MODE_RUN then ks else []) (fun k s =>
    let c := 32 * g + k
    if pulseOk (s.inForce c) 0 v || s.treeLow g then s.modChan c fun x => { x with clkAcc := 0 }
    else
      let a := (s.chan c).clkAcc + dOf l.dbl * i.1 * 2 ^ 32 / (l.refdiv * i.2)
      let p := (s.outSet g k).period
      let s := (s.modChan c fun x => { x with clkAcc := a % p }).inc (CH c) R.CH_CLIPCNT (a / p)
      s.gate (decide (a / p ≠ 0)) (·.stepSuspect g (2 ^ k))) s

/-! ## The compare-result FIFO (R194, R195, R236) -/

/-- COMPARE_FIFO_HOLD (R195): 512 captures are held and a step executes. -/
def execCompareFifoHold (g : Fin 16) (s : State) : Host.Outcome State Fault Refusal :=
  run s fun s => s.gate (s.stepOn g && decide (512 ≤ (s.grp g).cmp.length) && !s.is (GS g) R.GS_PSTAT_FHOLD) fun s =>
    (s.wr (GS g) R.GS_PSTAT_FHOLD 1).inc (GS g) R.GS_HOLDCNT

/-- COMPARE_FIFO_RELEASE (R195). -/
def execCompareFifoRelease (g : Fin 16) (s : State) : Host.Outcome State Fault Refusal :=
  run s fun s => s.gate (decide ((s.grp g).cmp.length < 512)) (·.wr (GS g) R.GS_PSTAT_FHOLD 0)

/-- The oldest capture enters the lead's inbox as a record of TYPE 0x80 when the lead runs and has room. -/
def State.capture80 (s : State) (g : Nat) : State :=
  let x := s.grp g
  match x.cmp with
  | [] => s
  | r :: rest =>
    let p := s.physEng (32 * g + x.siteLead r.site)
    let y := s.eng p
    if !y.live || decide (512 < y.inboxWords + 5) then s
    else
      let rec80 : List Word := moduleRecord 0x80 [BitVec.ofNat 32 (4 * g + r.site + r.index * 65536),
        BitVec.ofNat 32 r.vector, BitVec.ofNat 32 (r.vector / 2 ^ 32 % 65536), BitVec.ofNat 32 r.fails]
      (s.setGrp g { x with cmp := rest }).setEng p { y with inbox := y.inbox ++ [rec80] }

/-- FAIL_CAPTURE_DELIVERY (R236). -/
def execFailCaptureDelivery (g : Fin 16) (s : State) : Host.Outcome State Fault Refusal := run s fun s => s.capture80 g

/-- COMPARATOR_WORDS_ENTER (R236): waiting words enter the comparator FIFO of engine p, in order and two together, as space
allows. -/
def State.cmpEnter (s : State) (p : Nat) : State :=
  s.modEng p fun x =>
    let n := (16 - x.cfifo.length) / 2 * 2
    { x with cfifo := x.cfifo ++ x.cwait.take n, cwait := x.cwait.drop n }

def execComparatorWordsEnter (p : Fin 528) (s : State) : Host.Outcome State Fault Refusal := run s fun s => s.cmpEnter p

/-! ## Pattern mailbox (R190) -/

/-- The line would be unusable. -/
def lineIllegal (w : Nat) (l : List Word) : Bool :=
  decide (11 ≤ lineOp l) || (List.range 32).any (fun j => decide (j < w) && lineSym l j == 7)
    || (lineOp l == 2 && lineArg l % 2 ^ 23 == 0)

/-- RESULT of writing a line: ILLEGAL, then BUSY while a step executes or the group is off. -/
def State.lineResult (s : State) (g : Nat) (l : List Word) : Nat :=
  firstOf [(lineIllegal (s.rd (GS g) R.GS_PCFG_WIDTH) l, 1), (!(s.grp g).on || s.stepOn g, 2)]

/-- Line n of the group's pattern memory is written. -/
def Grp.setLine (x : Grp) (n : Nat) (l : List Word) : Grp :=
  let put (t : Tab Word) (j : Nat) : Tab Word := Tab.set 0 t (4 * n + j) (l.getD j 0)
  { x with pat := put (put (put (put x.pat 0) 1) 2) 3 }

/-- An accepted write of a line; CLEARED clears. -/
def State.lineStore (s : State) (g n : Nat) (l : List Word) : State :=
  (s.modGrp g (·.setLine n l)).wr (GS g) R.GS_PSTAT_CLEARED 0

/-- The mailbox takes a read (op 0) or write (op 1) and holds its outcome. -/
def State.pmb (s : State) (src : Src) (g op : Nat) (inc : Bool) : State :=
  s.goReq src (GS g) R.GS_PMB_CTRL_GO [(R.GS_PMB_CTRL_OP, op), (R.GS_PMB_CTRL_INC, b2n inc)] fun s =>
    let s := s.wr (GS g) R.GS_PMB_CTRL_VALID 0
    let n := s.rd (GS g) R.GS_PMB_ADDR
    let l : List Word := (List.range 4).map fun j => s.word (GS g + R.GS_PMB_D0.off + 4 * j)
    let res := if op = 1 then s.lineResult g l else if (s.grp g).on then 0 else 2
    let s := s.gate (op == 1 && res == 0) (·.lineStore g n l)
    s.hold (GS g) R.GS_PMB_CTRL_GO op res (if (s.grp g).on then (s.grp g).line n else []) (b2n inc)

def execPmbRead (src : Src) (g : Fin 16) (inc : Bool) (s : State) : Host.Outcome State Fault Refusal :=
  run s fun s => s.pmb src g 0 inc
def execPmbWrite (src : Src) (g : Fin 16) (inc : Bool) (s : State) : Host.Outcome State Fault Refusal :=
  run s fun s => s.pmb src g 1 inc

/-- PMB_COMPLETE (R76, R190, R276): the outcome is posted, and with INC an accepted operation advances ADDR; a software write
to ADDR in this cycle (`clash`) stands and is counted as a lost update. -/
def State.pmbComplete (s : State) (g : Nat) (clash : Option (Src × Word)) : State :=
  let x := s.box (GS g + R.GS_PMB_CTRL_GO.off)
  if !x.busy then s
  else
    let adv := decide (x.aux = 1) && decide (x.result = 0)
    let s := s.postBox (GS g) R.GS_PMB_CTRL_RESULT R.GS_PMB_CTRL_GO R.GS_PMB_CTRL_VALID R.GS_PMB_Q0 x
    match clash with
    | some (src, w) => ((s.wr (GS g) R.GS_PMB_ADDR w.toNat).cfgWrite (GS g + R.GS_PMB_ADDR.off) src).gate adv (·.inc GLB R.GLB_LOSTUPD)
    | none => s.gate adv (·.inc (GS g) R.GS_PMB_ADDR)

def execPmbComplete (g : Fin 16) (clash : Option (Src × Word)) (s : State) : Host.Outcome State Fault Refusal :=
  run s fun s => s.pmbComplete g clash

end Sys2Proof.Machine
end

