-- ==== Sys2Proof/Machine/Frames.lean ====
section
/-! DEFINITION. Machine/Frames.lean: the chain frame of R153: its CRC, its fields, and sending one. -/

namespace Sys2Proof.Machine

/-- One bit of CRC-16/CCITT. -/
def crc16bit (c : Nat) : Nat := if 2 ^ 15 ≤ c then (2 * c % 2 ^ 16) ^^^ 0x1021 else 2 * c

/-- CRC-16/CCITT of bytes, each most significant bit first, from 0xFFFF (R153, R298). -/
def crc16 (bs : List (BitVec 8)) : Nat :=
  bs.foldl (fun c b => crc16bit (crc16bit (crc16bit (crc16bit (crc16bit (crc16bit (crc16bit (crc16bit
    (c ^^^ (b.toNat * 256))))))))) ) 0xFFFF

/-- A little-endian field of n characters from character k of a frame; the list starts at character 1. -/
def frameField (cs : List (BitVec 8)) (k n : Nat) : Nat :=
  ((cs.drop (k - 1)).take n).foldr (fun b v => b.toNat + 256 * v) 0

/-- A frame has its 127 characters after the comma, and a good CRC. -/
def frameOk (cs : List (BitVec 8)) : Bool :=
  decide (cs.length = 127) && decide (crc16 (cs.take 125) = frameField cs 126 2)

/-- A value in n little-endian characters. -/
def leChars (n v : Nat) : List (BitVec 8) := (List.range n).map fun i => BitVec.ofNat 8 (v / 256 ^ i)

/-- What a frame carries beside its timing: POSF, LENF, an announcement (number, epoch count, interval) and a message (its
header and four words). -/
structure FrameBody where
  posf : Nat := 0
  lenf : Nat := 0
  ann : Option (Nat × Nat × Nat) := none
  msg : Option (List Nat) := none
  deriving DecidableEq, Repr

/-- The module's own accumulated latency: that of its upstream neighbour and its own hop (R164). -/
def State.ownLat (s : State) : Nat :=
  if s.rd MSC R.MSC_STAT_STATE = 5 then 0 else s.chain.accLat + s.chain.hopDly.toNat

/-- The characters 1 to 127 of a frame of the port, sent with the timing mark at fraction `frac` of the reference period. -/
def State.frameChars (s : State) (up : Bool) (frac : Nat) (b : FrameBody) : List (BitVec 8) :=
  let c := s.chain
  let (rseq, rcount, rfrac) := if up then c.rxUp else c.rxDn
  let (anum, aep, aint) := b.ann.getD (0, 0, if c.sched then c.interval else 0)
  let ws := b.msg.getD []
  let type := b2n (!up) + 2 * b2n (!up && decide (6 ≤ s.rd MSC R.MSC_STAT_STATE)) + 4 * b2n (!c.linkRef)
    + 8 * b2n b.ann.isSome + 16 * b2n b.msg.isSome
  let cs := leChars 1 type ++ leChars 2 (if up then c.txUp else c.txDn) ++ leChars 6 s.epoch ++ leChars 4 frac
    ++ leChars 2 rseq ++ leChars 6 rcount ++ leChars 4 rfrac ++ leChars 2 b.posf ++ leChars 2 b.lenf ++ leChars 4 s.refHz
    ++ leChars 4 anum ++ leChars 6 aep ++ leChars 4 aint
    ++ leChars 4 (ws.getD 0 0) ++ leChars 4 (ws.getD 1 0) ++ leChars 4 (ws.getD 2 0) ++ leChars 4 (ws.getD 3 0)
    ++ leChars 2 (ws.getD 4 0) ++ leChars 60 0
  cs ++ leChars 2 (crc16 cs)

/-- The transmitter of the port runs: not on the ring oscillator (R18, R152), not on the downstream port with DNEN = 0, and
not upstream from a module with HEAD = 1, which ignores that port (R154). -/
def State.txOn (s : State) (up : Bool) : Bool :=
  s.variant.mc && s.power.clk && s.power.clkRoot != 2 && (if up then !s.chain.cfgHead else s.is MSC R.MSC_CFG_DNEN)

/-- A frame leaves the port (R153): SEQ counts on, and the instant of its timing mark is kept for the exchange of R160; the
fraction of the reference period at that mark is a free value (assumption 100). `offer`: the position an enumeration carries,
in full; beside it goes the latency that R164 passes on, for which the layout has no field (assumption 99). -/
def State.sendFrame (s : State) (up : Bool) (b : FrameBody) (offer : Nat := 0) : State :=
  s.gate (s.txOn up) fun s =>
    let frac := (Config.markFrac s.freeCtr).toNat
    let lat := if up && s.is MSC R.MSC_STAT_DNLINK && s.is MSC R.MSC_CFG_DNEN then s.chain.chainLat else s.ownLat
    let s := (s.send (.chain up offer lat (s.frameChars up frac b))).tick
    s.modChain fun c =>
      if up then { c with txUp := (c.txUp + 1) % 65536, sentUp := ((c.txUp, s.epoch, frac) :: c.sentUp).take 16 }
      else { c with txDn := (c.txDn + 1) % 65536 }

/-- A frame that carries the module's position and nothing else. -/
def State.plainFrame (s : State) (up : Bool) : State := s.sendFrame up { posf := s.rd MSC R.MSC_STAT_POS }

/-- A LEN reply n goes upstream (R156). -/
def State.replyLen (s : State) (n : Nat) : State :=
  s.gate (s.is MSC R.MSC_STAT_UPLINK) (·.sendFrame true { posf := s.rd MSC R.MSC_STAT_POS + 8192, lenf := n })

end Sys2Proof.Machine
end

