-- ==== Sys2Proof/Machine/Clock.lean ====
section
/-! DEFINITION. Machine/Clock.lean: the clock tree and the CLK domain (R14 to R18, R114 to R116, R154), and what the failure of
a leaf does to the output tree of its group (R147, R148, R150, R151). -/

namespace Sys2Proof.Machine

/-! ## Clock tree -/

/-- SYS leaf n is in LOCKED or HOLDOVER (R17). -/
def State.sysServes (s : State) (n : Nat) : Bool := s.lst n == L_LOCKED || s.lst n == L_HOLDOVER

/-- The clock root changes: 0 SYS leaf A, 1 SYS leaf B, 2 the ring oscillator, on which the epoch counter stops; EV199
(R15, R16, R18). -/
def State.clkSwing (s : State) (root : Nat) : State :=
  if s.power.clkRoot = root then s
  else
    let s := s.modPower fun p => { p with clkRoot := root }
    let s := s.wr GLB R.GLB_MODE_CLKSRC (if root = 2 then 0 else 1)
    let s := if root = 2
      then { s with running := false,
                    reco := { s.reco with period := { s.reco.period with rflags := s.reco.period.rflags ||| 8 } } }
      else (s.wr SYS R.SYS_SYSSTAT_ACT root).leafTrims (33 - root)
    s.raise 199 root

/-- REFSRC and HEAD are taken at an entry to DOWN, and the reference they select (R154, R158). -/
def State.chainLatch (s : State) : State :=
  let ref := s.rd MSC R.MSC_CFG_REFSRC
  let head := s.is MSC R.MSC_CFG_HEAD
  s.modChain fun c => { c with refsrc := ref, cfgHead := head, linkRef := !head && ref != 1 }

/-- The module's chain state returns to DOWN: position and offsets cleared, counters kept (R155). DESIGN CHOICE (assumption 98):
the milestone schedule in force, one waiting and the last announcement are dropped with them; the table of R155 does not say.
A VL512-FS reads HEAD with one module. -/
def State.chainDown (s : State) : State :=
  if !s.variant.mc then
    ((s.wr MSC R.MSC_STAT_STATE 5).wr MSC R.MSC_CHAIN_LEN 1).modChain fun c => { newBase := c.newBase }
  else
    let up := s.rd MSC R.MSC_STAT_UPLINK
    let dn := s.rd MSC R.MSC_STAT_DNLINK
    let s := (s.setWord (MSC + R.MSC_STAT_STATE.off) 0).setWord (MSC + R.MSC_CHAIN_LEN.off) 0
    let s := (s.wr MSC R.MSC_STAT_UPLINK up).wr MSC R.MSC_STAT_DNLINK dn
    (s.modChain fun c => { rx := c.rx, newBase := c.newBase, txUp := c.txUp, txDn := c.txDn }).chainLatch

/-- CHAIN.LEN is learnt; EV201 on a change, and at the head at every answer (R155, R156). -/
def State.setLen (s : State) (n : Nat) (always : Bool) : State :=
  let old := s.rd MSC R.MSC_CHAIN_LEN
  let s := s.wr MSC R.MSC_CHAIN_LEN n
  s.gate (always || old != s.rd MSC R.MSC_CHAIN_LEN) (·.raise 201 (s.word (MSC + R.MSC_CHAIN_LEN.off)).toNat)

/-- The downstream port is up and enabled, and its transmitter runs: on the ring oscillator it sends nothing (R18). -/
def State.dnOpen (s : State) : Bool := s.is MSC R.MSC_STAT_DNLINK && s.is MSC R.MSC_CFG_DNEN && s.power.clkRoot != 2

/-- The interval in force, or granted and waiting, keeps the rule of R164. -/
def State.intervalOk (s : State) (i : Nat) : Bool := decide ((s.chain.chainLat + 2000000000) * s.refHz ≤ i * 10 ^ 15)

/-- The latency that comes back from downstream (R164): at the head it is the total; the rule newly broken by a growth raises
EV203. -/
def State.latIs (s : State) (lat : Nat) : State :=
  let s := s.modChain fun c => { c with chainLat := lat }
  s.gate (s.rd MSC R.MSC_STAT_STATE == 5) fun s =>
    let i := match s.chain.newSched with | some (_, i, _) => some i | none => if s.chain.sched then some s.chain.interval else none
    let broken := match i with | some i => !s.intervalOk i | none => false
    let new := broken && !s.chain.shortNow
    (s.modChain fun c => { c with shortNow := broken }).gate new (·.raise 203 4)

/-- An enumeration goes downstream with position p, or ends here with n = 0 (R156): a module below the head then replies
upstream, and at the head the chain latency is 0. -/
def State.enumDown (s : State) (p : Nat) : State :=
  let head := s.rd MSC R.MSC_STAT_STATE == 5
  if s.dnOpen then
    (s.modChain fun c => { c with enumBusy := true }).sendFrame false { posf := p % 4096 + 4096 } p
  else
    let s := (s.modChain fun c => { c with enumBusy := false }).setLen 1 head
    if head then s.latIs 0 else s.replyLen 1

/-- The module becomes the head: position 0, REFIN selected, and an enumeration starts (R154 to R156). -/
def State.becomeHead (s : State) (byTimeout : Bool) : State :=
  let s := (s.wr MSC R.MSC_STAT_STATE 5).wr MSC R.MSC_STAT_POS 0
  (s.modChain fun c => { c with byTimeout := byTimeout, linkRef := false }).enumDown 1

/-- The chain starts again from DOWN with the CLK domain on: a module whose HEAD is set is the head, another whose upstream
receiver is up trains (R155). -/
def State.chainEntry (s : State) : State :=
  let s := s.chainDown
  if !s.variant.mc then s
  else if s.chain.cfgHead then s.becomeHead false
  else s.gate (s.is MSC R.MSC_STAT_UPLINK) fun s =>
    (s.wr MSC R.MSC_STAT_STATE 1).modChain fun c => { c with upSeen := true }

/-- The CLK domain goes off (R10): both SYS leaves are OFF, the clock root is the ring oscillator, the epoch counter stops, and
the chain is DOWN. -/
def State.clkOff (s : State) : State :=
  let s := forAll [32, 33] (fun n s => ((s.leafOff n).setLeaf n {}).flag (LP n) R.LP_LSTATE_REFOK false) s
  let s := forAll [R.SYS_SYSSTAT_STRAND, R.SYS_SYSSTAT_EPSYS, R.SYS_SYSSTAT_RETURN] (fun f s => s.wr SYS f 0) s
  let s := s.modPower fun p => { p with clk := false, sysLocked := false }
  let s := s.clkSwing 2
  let s := { s with ref := { inForce := s.ref.inForce }, running := false }
  s.chainDown

/-- The CLK domain comes on: the SYS settings are derived, each SYS leaf that can serve is asked to lock and waits for the
reference, and the monitors count gates (R30, R34, R60, R116). -/
def State.clkOn (s : State) : State :=
  let s := s.modPower fun p => { p with clk := true, sysLocked := false }
  let s := { s with ref := { inForce := s.refHz } }
  let s := s.deriveSys
  let s := forAll [32, 33] (fun n s =>
    if s.leafRetired n then s
    else
      let s := (s.leafTrims n).modLeaf n fun l => { l with on := true }
      s.flag (LP n) R.LP_LSTATE_WAITREF true) s
  let one := s.leafRetired 32 || s.leafRetired 33
  let s := s.gate one (·.wr SYS R.SYS_SYSSTAT_ACT (b2n (s.leafRetired 32)))
  s.chainEntry

/-- The active SYS leaf no longer serves: the clock tree swings to the other, which stops following and coasts if it was in
HOLDOVER (R16, R104); with neither, SYS is lost and the module enters SAFE (R17). R17 does not apply before the first lock. -/
def State.sysCheck (s : State) : State :=
  if !s.power.sysLocked || s.sysServes s.sysAct then s
  else
    let n := s.sysIdle
    if s.sysServes n then
      let follow := s.is (LP n) R.LP_LSTATE_FOLLOW
      let s := s.gate follow fun s =>
        ((s.flag (LP n) R.LP_LSTATE_FOLLOW false).flag (LP n) R.LP_HDAC_ENG true).wr (LP n) R.LP_HDAC_DACV (s.leaf n).heldV
      s.clkSwing (n - 32)
    else
      let s := (s.modPower fun p => { p with sysLocked := false }).flag SYS R.SYS_SYSSTAT_EPSYS false
      let s := s.clkSwing 2
      s.safeCause SC_SYSLOST

/-! ## The exit from SAFE (R10, R26, R27) -/

/-- The cause of the present SAFE persists (R26). SYSLOST clears in the exit attempt, REQUEST always. -/
def State.causePersists (s : State) : Bool :=
  let c := s.rd GLB R.GLB_MODE_SAFE_CAUSE
  if c = SC_VINLOSS then s.power.vinLost
  else if c = SC_SHUTDOWN then s.therm.shutHolds
  else if c = SC_SENSORS then decide (3 ≤ ((List.range 24).filter fun n => s.is (HK + 4 * n) R.HK_SENS_FAIL).length)
  else c == SC_PHASES || c == SC_SELFTEST

/-- The exit from SAFE: the CLK domain comes on, and for SYSLOST a SYS leaf must lock within 20 ms. While the CLK domain is
still on for the record of the entry (R10), the exit waits until it has gone off. DEDUCED (assumption 34). -/
def State.leaveSafe (s : State) : State :=
  if s.power.clk then s.modPower fun p => { p with exitWait := true }
  else
    let s := s.clkOn
    if s.rd GLB R.GLB_MODE_SAFE_CAUSE = SC_SYSLOST then s.modPower fun p => { p with sysExit := true }
    else (s.setMode MODE_STANDBY).modeResult 0

/-- The CLK domain follows the record of the entry to SAFE (R10); an exit that waited for it is judged and made. -/
def State.clkFollows (s : State) : State :=
  let s := (s.modPower fun p => { p with safeRecPending := false }).gate s.power.clk (·.clkOff)
  s.gate s.power.exitWait fun s =>
    let s := s.modPower fun p => { p with exitWait := false }
    if s.causePersists then s.modeResult 3 else s.leaveSafe

/-! ## Swings of a group's tree -/

/-- A swing of group g is complete (R140): SWCNT, and what its kind adds; `lockt`: BUS cycles from S. A hop that goes on in
place keeps HOPPING. -/
def State.swingDone (s : State) (g lockt : Nat) : State :=
  match (s.grp g).swing with
  | none => s
  | some kind =>
    let s := (s.inc (GS g) R.GS_SWCNT).recCount 3
    let act := s.rd (GS g) R.GS_SWSTAT_ACT
    let s := s.modGrp g fun x => { x with swing := none }
    match kind with
    | .route =>
      let s := s.wr (GS g) R.GS_RSTAT_HOPPING 0
      let s := s.lastHop g lockt [s.actLeaf g] false true
      match (s.grp g).hop with
      | some h => (s.hopEnded g h).modGrp g fun x => { x with settling := false }
      | none => s
    | .fault =>
      let s := s.gate ((s.grp g).hop.isNone) (·.wr (GS g) R.GS_RSTAT_HOPPING 0)
      ((s.inc (GS g) R.GS_FSWCNT).graise g 4 act).joinIfIdle g
    | .forced => (s.wr (GS g) R.GS_RSTAT_HOPPING 0).graise g 4 (act + 4)

/-- A swing in progress is complete before the next one begins, 2 PFD cycles of the active leaf after its S (R140). DEDUCED
(assumption 89). -/
def State.swingOver (s : State) (g : Nat) : State :=
  let l := s.leaf (s.actLeaf g)
  s.swingDone g (2 * l.refdiv * 312500000 / (s.ref.inForce * dOf l.dbl))

/-- The healthy leaf takes over the tree at S without a restart (R140, R144, R148): HOPPING reads 1 until C. A leaf that
followed in HOLDOVER coasts on its own value from here (R104). A forced swing abandons a small step (R63). -/
def State.treeSwing (s : State) (g : Nat) (kind : SwingKind) : State :=
  let s := s.swingOver g
  let n := s.idleLeaf g
  let s := s.gate (decide (kind = .forced)) fun s => (s.stopStep (2 * g)).stopStep (2 * g + 1)
  let s := s.gate (s.is (LP n) R.LP_LSTATE_FOLLOW) fun s =>
    ((s.flag (LP n) R.LP_LSTATE_FOLLOW false).flag (LP n) R.LP_HDAC_ENG true).wr (LP n) R.LP_HDAC_DACV (s.leaf n).heldV
  let s := s.wr (GS g) R.GS_SWSTAT_ACT (n % 2)
  let s := s.wr (GS g) R.GS_RSTAT_HOPPING 1
  (((s.modGrp g fun x => { x with swing := some kind }).interruptPm g).leafTrims (s.idleLeaf g)).evalSpurs n

/-- The recovery of an exposed group starts (R150): the tree is gated low, the other leaf abandons its pre-lock and is to take
the recovery entry; EV(12g + 4). DESIGN CHOICE (assumption 90): R150 does not say at which of its instants ACT toggles; the model
takes F. -/
def State.recoveryStart (s : State) (g : Nat) : State :=
  let s := s.swingOver g
  let old := s.actLeaf g
  let n := s.idleLeaf g
  let s := s.prelockDrop g
  let s := s.modGrp g fun x => { x with gapFailed := some old, gapSusp := true }
  let s := s.wr (GS g) R.GS_SWSTAT_ACT (n % 2)
  let s := s.wr (GS g) R.GS_SWSTAT_GAP 1
  let s := s.graise g 4 (n % 2 + 2)
  (s.disturb g).affectAll g

/-- No leaf of the group can take over (R151): the outputs follow the last serving leaf, results carry SUSPECT, a hop in
progress is cut and the route ends with FAULT. -/
def State.bothFail (s : State) (g : Nat) : State :=
  let s := s.affectAll g
  let s := s.disturb g
  let s := match (s.grp g).hop with
    | some h => (s.hopRefused g h false).wr (GS g) R.GS_RSTAT_HOPPING 0
    | none => s
  s.endRoute g END_FAULT

/-- Leaf n can be set to the recovery entry. -/
def State.leafFree (s : State) (n : Nat) : Bool := (s.leaf n).on && !s.leafRetired n && s.lst n != L_FAULT

/-- The active leaf of group g has failed: a fault swing to the guard or to the twin that follows in HOLDOVER (R104, R147), the
other leaf of a hop goes on alone (R87), a recovery when the group is exposed (R150), otherwise both leaves have failed. -/
def State.activeFailed (s : State) (g : Nat) : State :=
  let n := s.idleLeaf g
  let hopTwin := s.hopping g && !s.pingPong g && (s.lst n == L_SEARCH || s.lst n == L_ACQUIRE || s.lst n == L_LOCKED)
  if s.guardIn g ∨ (s.lst n = L_HOLDOVER ∧ s.is (LP n) R.LP_LSTATE_FOLLOW = true) ∨ hopTwin = true then
    let s := (s.disturb g).affectAll g
    if hopTwin then
      let s := (s.wr (GS g) R.GS_SWSTAT_ACT (n % 2)).interruptPm g
      let s := s.modGrp g fun x =>
        { x with swing := some .fault, hop := x.hop.map fun h => if h.begun then { h with alone := true } else h }
      (s.leafTrims (s.actLeaf g)).evalSpurs n
    else s.treeSwing g .fault
  else if s.exposed g ∧ s.leafFree n = true then s.recoveryStart g
  else s.bothFail g

/-! ## Retries (R98, R99) -/

/-- A retry of leaf n starts: RETRY and RETRYCNT count, EV(12g + 2). -/
def State.countRetry (s : State) (n : Nat) : State :=
  let r := satTo 3 (s.rd (LP n) R.LP_LSTATE_RETRY + 1)
  let s := s.wr (LP n) R.LP_LSTATE_RETRY r
  let s := (s.inc (LP n) R.LP_RETRYCNT).recCount 4
  s.gate (decide (n < 32)) (·.graise (n / 2) 2 (n % 2 + 16 * r))

/-- Leaf n enters RELOCK: the DAC leaves the node, the loop closes with the boost, and the lock timer starts; the
charge-pump code is chosen anew under ICP_AUTO (R46), and LDCFG and HCFG are taken (R117). -/
def State.relockEntry (s : State) (n : Nat) : State :=
  let s := s.setLst n L_RELOCK
  let s := forAll [R.LP_LSTATE_FOLLOW, R.LP_LSTATE_HOLDQ, R.LP_HDAC_ENG] (fun f s => s.wr (LP n) f 0) s
  (((s.takeDet n).armBoost n).chooseIcp n).modLeaf n fun l => { l with kind := .relock }

/-- A SYS leaf relocks under SNAP (R108, R115): its modulator and its dividers restart. -/
def State.sysSnap (s : State) (n : Nat) : State :=
  ((s.relockEntry n).restartMod n).modLeaf n fun l => { l with pfdPhase := 0 }

/-- The return of the SYS leaves cannot go on, because the idle one is in FAULT or retired: RETURN clears, and the active one,
if it waits for the reference or for new settings, is stranded in HOLDOVER (R45, R116). -/
def State.strandCheck (s : State) : State :=
  if !s.power.sysLocked || s.sysAble s.sysIdle then s
  else
    let s := (s.modRef fun r => { r with retStep := 0 }).flag SYS R.SYS_SYSSTAT_RETURN false
    let a := s.sysAct
    let s := s.gate (s.ref.newHz && s.lst a == L_LOCKED) fun s => s.holdEntry a 2 (s.rd (LP a) R.LP_TMON * 256) false
    s.gate ((s.ref.qualified || s.ref.newHz) && s.lst a == L_HOLDOVER) (·.flag SYS R.SYS_SYSSTAT_STRAND true)

/-- Leaf n leaves LOCKED by an unlock, or loses its feedback edge (R92, R98): HOLDOVER with cause UNLOCK, then RELOCK in the
next PFD cycle, which counts as a retry. `mean`: the average of R101. -/
def State.unlockLeaf (s : State) (n mean : Nat) : State :=
  let s := s.inc (LP n) R.LP_LOSSCNT
  let s := s.recCount 0
  let s := (s.wr (LP n) R.LP_TAVG mean).holdEntry n 4 mean false
  (s.countRetry n).relockEntry n

/-- Leaf n enters FAULT and a fault occurrence is recorded; the tree, or the clock tree, moves to its partner. A leaf whose
retries are spent is retired (R98, R335, R338). -/
def State.leafToFault (s : State) (n cause t : Nat) : State :=
  let s := s.abandonStep n
  let s := s.setLst n L_FAULT
  let s := s.modLeaf n fun l => { l with kind := .none, joining := false, joined := false, slewing := false, window := 0 }
  let s := s.occurred (leafUnit n) cause t
  let s := s.modLeaf n fun l => { l with cause := cause }
  let dead := cause == FC_LOCKFAIL || s.thirdFault (leafUnit n) t
  if 32 ≤ n then
    let s := s.sysCheck
    (if dead then (s.retireLeaf n cause).sysCheck else s).strandCheck
  else
    let g := n / 2
    let s := if s.actLeaf g = n then s.activeFailed g
      else s.gate ((s.grp g).prelock.isSome) (·.prelockDrop g)
    if dead then s.retireLeaf n cause else s

end Sys2Proof.Machine
end

