-- ==== Sys2Proof/Machine/Lock.lean ====
section
/-! DEFINITION. Machine/Lock.lean: the commands of chapter 05: lock, loss of the reference, holdover, its return and EPOFS. What
only silicon can tell is an operand: a counted gate, a measured phase jump, the means of the tuning monitors. -/

namespace Sys2Proof.Machine

/-! ## LOCKED (R91, R98, R115, R146) -/

/-- The clock tree and the SYS return at the moment SYS leaf n reports LOCKED: the first lock takes the clock root (R15), a
leaf that returned takes it over and the former one relocks (R115), and an exit from SAFE that waited for it is met (R27). -/
def State.sysLock (s : State) (n : Nat) : State :=
  if s.power.clkRoot = 2 then
    let s := (s.clkSwing (n - 32)).modPower fun p => { p with sysLocked := true }
    s.gate (s.power.sysExit && s.mode == MODE_SAFE) fun s => (s.setMode MODE_STANDBY).modeResult 0
  else if s.ref.retStep = 1 ∧ n = s.sysIdle then
    let old := s.sysAct
    let s := s.clkSwing (n - 32)
    let s := s.raise 197 (s.word (SYS + R.SYS_SYSSTAT_ACT.off)).toNat
    let s := s.modRef fun r => { r with retStep := 2 }
    let s := s.gate s.ref.newHz fun s => match (s.leaf old).staged with
      | some r => s.takeSettings old r none
      | none => s
    let s := s.modRef fun r => { r with newHz := false }
    s.sysSnap old
  else if s.ref.retStep = 2 then (s.modRef fun r => { r with retStep := 0 }).flag SYS R.SYS_SYSSTAT_RETURN false
  else s

/-- Leaf n reports LOCKED (R98): the lock timer stops, RETRY is cleared; a pending fault occurrence was transient; captures,
joins and pre-locks follow. -/
def State.leafLocked (s : State) (n : Nat) : State :=
  let from' := s.lst n
  let l := s.leaf n
  let s := s.setLst n L_LOCKED
  let s := s.wr (LP n) R.LP_LSTATE_RETRY 0
  let s := s.flag (LP n) R.LP_HDAC_ENG false
  let s := s.modLeaf n fun l =>
    { l with kind := .none, slewing := false, boostSteps := if l.boostSteps = 5 ∧ l.len = 0 then 4 else l.boostSteps }
  let s := s.gate (l.cause != 0) fun s =>
    (s.transient (leafUnit n) l.cause).modLeaf n fun l => { l with cause := 0 }
  if 32 ≤ n then s.sysLock n
  else
    let g := n / 2
    let s := s.gate (from' == L_RELOCK) (·.graise g 1 (n % 2 + 16 * s.rd (GS g) R.GS_HOLDSTAT_LASTRET))
    let s := s.gate (from' == L_ACQUIRE && !(s.hopping g && (s.hopLeaves g).contains n)) (·.capture n)
    let s := if l.joining then s.joinDone g else s
    let s := s.gate ((s.grp g).prelock.isSome && s.idleLeaf g == n) (·.flag (GS g) R.GS_SWSTAT_PRELOCK false)
    s.joinIfIdle g

/-- The in-window count of leaf n completes (R91, R98, R100): ACQUIRE ends in LOCKED; RELOCK ends too, or waits for the return
slew of R109. `vt` is the tuning sample. -/
def State.inWindow (s : State) (n vt : Nat) : State :=
  let l := s.leaf n
  if s.lst n = L_ACQUIRE then (s.wr (LP n) R.LP_TMON vt).leafLocked n
  else if s.lst n = L_RELOCK then
    let s := s.wr (LP n) R.LP_TMON vt
    if l.slewing then
      s.modLeaf n fun l => { l with kind := .none, boostSteps := if l.boostSteps = 5 ∧ l.len = 0 then 4 else l.boostSteps }
    else s.leafLocked n
  else s

/-- LOCK_IN_WINDOW (R91). -/
def execLockInWindow (n : Fin 34) (vt : BitVec 16) (s : State) : Host.Outcome State Fault Refusal :=
  run s fun s => s.inWindow n vt.toNat

/-! ## Unlock (R92, R147) -/

/-- UNLOCK: with the guard LOCKED, the unlock of the active leaf is a fault occurrence and a fault swing (R147). `mean` is the
average of R101, `ms` the operating millisecond. -/
def State.unlock (s : State) (n mean ms : Nat) : State :=
  if s.lst n ≠ L_LOCKED then s
  else
    let g := n / 2
    let t := s.opMs ms
    let guarded := decide (n < 32) && s.actLeaf g == n && s.guardIn g
    let s := s.gate guarded fun s => (s.treeSwing g .fault).affectAll g |>.disturb g
    let s := s.unlockLeaf n mean
    let s := s.gate guarded (·.leafFault n FC_UNLOCK t)
    s.gate (decide (32 ≤ n)) (·.sysCheck)

def execUnlock (n : Fin 34) (mean : BitVec 24) (ms : Fin 1000) (s : State) : Host.Outcome State Fault Refusal :=
  run s fun s => s.unlock n mean.toNat ms

/-! ## Loss of the reference (R93 to R95) -/

/-- The first declaration of a loss, with cause 1 or 2, by the monitors of the leaves in `own`: EV195 names the lowest; every
leaf locked to the reference enters HOLDOVER, with its own cause or 3 (R95). `means` are the averages of R101 by leaf, `quiet`
the leaves that satisfy HOLDQ (R103). -/
def State.declareLoss (s : State) (cause own : Nat) (means : List (BitVec 24)) (quiet : Nat) : State :=
  let first := ((List.range 34).find? fun n => bitOf own n).getD 32
  let s := s.modRef fun r =>
    { r with lost := true, qualified := false, firstCause := cause, good := 0, retStep := 0 }
  let s := s.raise 195 (cause + 256 * first)
  let s := s.gate (!s.ref.newHz) (·.flag SYS R.SYS_SYSSTAT_RETURN false)
  let s := s.gate s.running (·.flag SYS R.SYS_SYSSTAT_EPSYS true)
  let s := forAll (List.range 34) (fun n s =>
    s.lossAt n (if bitOf own n then cause else 3) (means.getD n 0).toNat (bitOf quiet n)) s
  let s := forAll (List.range 16) (fun g s => s.wr (GS g) R.GS_HOLDSTAT_DEFER 0) (s.allGrp fun x => { x with deferRet := false })
  s.sysCheck

/-- A loss may be declared: the reference is qualified, or SYS runs on the settings of before a write of SYS.REF_HZ (R45), and no
loss is in force. -/
def State.lossOpen (s : State) : Bool := s.ref.qualified || (s.ref.newHz && !s.ref.lost)

/-- MISSING_EDGE (R93): the gate in progress is not good, and the loss is declared unless one is already in force. -/
def execMissingEdge (own quiet : BitVec 34) (means : List (BitVec 24)) (s : State) : Host.Outcome State Fault Refusal :=
  run s fun s =>
    let s := s.modRef fun r => { r with missed := true, edges := false }
    s.gate s.lossOpen (·.declareLoss 1 own.toNat means quiet.toNat)

/-! ## Qualification and return (R96, R106, R111, R114 to R116, R159) -/

/-- The selected reference may be taken by the group leaves: not the link reference of a module below ALIGNED (R159). -/
def State.refForGroups (s : State) : Bool :=
  !(s.variant.mc && s.chain.linkRef && decide (s.rd MSC R.MSC_STAT_STATE < 4))

/-- The reference is qualified for group leaf n (R96): REFOK sets, a waiting lock proceeds, and a return in HOLDOVER begins,
or is deferred under a PHASE_HOLD (R111). A leaf in FAULT that does not drive the tree is released and locks again (R98). -/
def State.leafQualified (s : State) (n : Nat) : State :=
  let g := n / 2
  let s := s.flag (LP n) R.LP_LSTATE_REFOK true
  let s := s.retryLock n
  let s := s.gate (s.lst n == L_HOLDOVER && s.phaseHeld g) fun s =>
    (s.modGrp g fun x => { x with deferRet := true }).wr (GS g) R.GS_HOLDSTAT_DEFER 1
  if s.lst n = L_FAULT ∧ s.actLeaf g ≠ n then (s.leafOff n).lockFromOff n (s.leaf (s.actLeaf g)).ratio none
  else s

/-- Every group leaf whose own count of good gates is complete takes the reference as qualified (R96). -/
def State.groupsQualify (s : State) : State :=
  if !(s.ref.qualified && s.refForGroups) then s
  else
    let q := s.rd (LP 32) R.LP_HCFG_QUAL
    forAll (List.range 32) (fun n s =>
      let k := s.rd (LP (s.pageLeaf n)) R.LP_HCFG_QUAL
      s.gate ((s.leaf n).on && !s.is (LP n) R.LP_LSTATE_REFOK && decide ((if q ≤ k then k else q) + 1 ≤ s.ref.good))
        (·.leafQualified n)) s

/-- The SYS leaves return (R45, R115, R116): the idle leaf relocks first; with one leaf alone, that leaf is stranded in
HOLDOVER. -/
def State.sysReturn (s : State) : State :=
  let a := s.sysAct
  let n := s.sysIdle
  if s.lst a ≠ L_HOLDOVER ∧ ¬ s.ref.newHz then s
  else if !s.sysAble n then s.strandCheck
  else
    let s := s.flag SYS R.SYS_SYSSTAT_RETURN true
    let s := s.modRef fun r => { r with retStep := 1 }
    match (s.leaf n).staged with
    | some r =>
      if s.lst n = L_OFF then s.lockFromOff n r none
      else (s.gate s.ref.newHz (·.takeSettings n r none)).sysSnap n
    | none => s

/-- The reference is qualified for the module (R96): EV196 after a loss, the epoch counter takes up the reference (R114), and
the SYS leaves lock or return. -/
def State.moduleQualified (s : State) : State :=
  let lost := s.ref.lost
  let s := s.modRef fun r => { r with qualified := true, lost := false, edges := true }
  let s := s.gate lost (·.raise 196 0)
  let s := s.flag SYS R.SYS_SYSSTAT_EPSYS false
  let s := forAll [32, 33] (fun n s =>
    s.gate (s.leaf n).on fun s => (s.flag (LP n) R.LP_LSTATE_REFOK true).retryLock n) s
  s.gate s.power.sysLocked (·.sysReturn)

/-- A gate's count lies outside 1,000 ppm of the declared frequency (R94): `count` reference cycles in 65,536 cycles of 50 MHz. -/
def excursion (hz count : Nat) : Bool :=
  let a := count * 50000000
  let b := hz * 65536
  decide (b < (if a ≤ b then b - a else a - b) * 1000)

/-- A monitor gate ends (R94, R96). Leaf n's monitor counted `count` cycles; `own` are the leaves whose monitors end a gate with an
excursion in the same cycle; the active SYS leaf's monitor counts the good gates. `ht`: microseconds of the holdover that a SYS
leaf may leave now. -/
def State.gateEnd (s : State) (n count own : Nat) (means : List (BitVec 24)) (quiet ht : Nat) : State :=
  let exc := excursion s.ref.inForce count
  if s.lossOpen ∧ (exc ∨ own ≠ 0) then
    (s.declareLoss 2 (if exc then own ||| 2 ^ n else own) means quiet).modRef fun r => { r with missed := false }
  else if n ≠ s.sysAct then s
  else
    let good := !exc && !s.ref.missed
    let s := s.modRef fun r =>
      { r with good := if good then r.good + 1 else 0, missed := false, edges := r.edges || good }
    let s := s.gate (!s.ref.qualified && decide (s.rd (LP 32) R.LP_HCFG_QUAL + 1 ≤ s.ref.good)) fun s =>
      let s := forAll [32, 33] (fun m s => s.gate (s.lst m == L_HOLDOVER) (·.wr (LP m) R.LP_HOLDT ht)) s
      s.moduleQualified
    s.groupsQualify

/-- MONITOR_GATE_END (R94). -/
def execMonitorGateEnd (n : Fin 34) (count : BitVec 24) (means : List (BitVec 24)) (quiet : BitVec 34) (ht : Word)
    (s : State) (own : BitVec 34 := 0) : Host.Outcome State Fault Refusal :=
  run s fun s => s.gate s.power.clk (·.gateEnd n count.toNat own.toNat means quiet.toNat ht.toNat)

/-! ## Lock timer (R99) -/

/-- LOCK_TIMER_EXPIRY (R98): a retry, or FAULT after the third. -/
def State.timerExpiry (s : State) (n ms : Nat) : State :=
  let st := s.lst n
  let l := s.leaf n
  let closing := (st == L_SEARCH || st == L_ACQUIRE || st == L_RELOCK) && l.kind != .none
  if !closing then s
  else if s.rd (LP n) R.LP_LSTATE_RETRY = 3 then s.leafToFault n FC_LOCKFAIL (s.opMs ms)
  else if st = L_RELOCK then
    let s := s.holdEntry n (s.rd (LP n) R.LP_LSTATE_CAUSE) l.heldV false
    let s := s.modLeaf n fun x => { x with slewing := l.slewing }
    let s := (s.countRetry n).relockEntry n
    let s := s.gate (decide (n < 32)) (·.realigning (n / 2))
    s.gate (decide (32 ≤ n)) (·.sysCheck)
  else (s.countRetry n).startSearch n (s.coreFor n)

def execLockTimerExpiry (n : Fin 34) (ms : Fin 1000) (s : State) : Host.Outcome State Fault Refusal :=
  run s fun s => s.timerExpiry n ms

/-! ## The return (R106 to R109) -/

/-- The leaves that return with leaf n: under GUARDED every leaf of the group that waits in HOLDOVER, governed by the active
leaf. -/
def State.returning (s : State) (n : Nat) : List Nat :=
  let ns := if s.pingPong (n / 2) then [n] else [2 * (n / 2), 2 * (n / 2) + 1]
  ns.filter fun m => s.lst m == L_HOLDOVER && s.is (LP m) R.LP_LSTATE_REFOK

/-- J is measured, in fs, on leaf n (R106): CAPTURE within 50 ps, otherwise REALIGN, REBASE or SNAP by the group's policy. A
granted PHASE_HOLD keeps the leaves in HOLDOVER (R111). `ht`: the holdover's length in µs. -/
def State.phaseJump (s : State) (n : Nat) (j : Int) (ht : Nat) : State :=
  let g := n / 2
  let ns := s.returning n
  if !ns.contains n || s.phaseHeld g || (s.lst (s.actLeaf g) == L_HOLDOVER && s.actLeaf g != n) then s
  else
    let pol := s.rd (GS g) R.GS_HOLDCTL_RETPOL
    let cap := decide (j ≤ 50000) && decide (-50000 ≤ j)
    let ret := if cap then 1 else if pol = 1 then 3 else if pol = 2 then 4 else 2
    let s := s.wr (GS g) R.GS_HOLDSTAT_LASTRET ret
    let s := (s.modGrp g fun x => { x with deferRet := false }).wr (GS g) R.GS_HOLDSTAT_DEFER 0
    let s := s.gate (ret == 3) fun s => s.modGrp g fun x => { x with epofs := toSigned 48 (ofSigned 48 (x.epofs + j)) }
    let s := s.recHold g ht
    let s := forAll ns (fun m s =>
      let s := s.wr (LP m) R.LP_HOLDT ht
      let s := (s.relockEntry m).modLeaf m fun l =>
        { l with jump := j, slewing := ret == 2, retOfs := if ret = 2 ∨ ret = 3 then j else 0 }
      let s := s.flag (LP m) R.LP_LSTATE_OFFSET (ret == 2 || ret == 3)
      s.gate (ret == 4) (·.restartMod m)) s
    let s := s.realigning g
    s.gate (ret == 4) fun s => ((s.restartStream g).rstDue g).interruptPm g

/-- PHASE_JUMP_MEASURED (R106). -/
def execPhaseJumpMeasured (n : Fin 32) (j : BitVec 48) (ht : Word) (s : State) : Host.Outcome State Fault Refusal :=
  run s fun s => s.phaseJump n (toSigned 48 j.toNat) ht.toNat

/-- REALIGN_SLEW_END (R109): the offset is removed, and each slewing leaf of the group that is in window becomes LOCKED. -/
def State.slewEnd (s : State) (g : Nat) : State :=
  let ns := [2 * g, 2 * g + 1].filter fun n => s.lst n == L_RELOCK && (s.leaf n).slewing && (s.leaf n).kind == .none
  if ns.isEmpty then s
  else
    let s := forAll ns (fun n s =>
      (s.flag (LP n) R.LP_LSTATE_OFFSET false).modLeaf n fun l => { l with slewing := false, retOfs := 0 }) s
    forAll ns (fun n s => s.leafLocked n) (s.realigning g)

def execRealignSlewEnd (g : Fin 16) (s : State) : Host.Outcome State Fault Refusal := run s fun s => s.slewEnd g

/-- HOLDOVER_SELFCHECK_FAIL (R98, R104, R334). -/
def execHoldoverSelfcheckFail (n : Fin 34) (ms : Fin 1000) (s : State) : Host.Outcome State Fault Refusal :=
  run s fun s => s.gate (s.lst n == L_HOLDOVER) (·.leafToFault n FC_HOLDCHK (s.opMs ms))

/-! ## EPOFS (R110) and the phase mailbox (R118) -/

/-- CLROFS_REQUEST: the write of HOLDCTL that sets CLROFS, with the fields it carries. -/
def execClrofsRequest (src : Src) (g : Fin 16) (retpol : BitVec 2) (pause : Bool) (rate : BitVec 7) (s : State) :
    Host.Outcome State Fault Refusal :=
  run s fun s => s.goReq src (GS g) R.GS_HOLDCTL_CLROFS
    [(R.GS_HOLDCTL_RETPOL, retpol.toNat), (R.GS_HOLDCTL_PAUSE, b2n pause), (R.GS_HOLDCTL_RATE, rate.toNat)] (·.configured)

/-- CLROFS_SLEW_START: once no descriptor executes on the group and no granted PHASE_HOLD covers it. -/
def execClrofsSlewStart (g : Fin 16) (s : State) : Host.Outcome State Fault Refusal :=
  run s fun s => s.gate (s.is (GS g) R.GS_HOLDCTL_CLROFS && !s.cmdOn g && !s.phaseHeld g) fun s =>
    let s := s.wr (GS g) R.GS_HOLDCTL_CLROFS 0
    (s.modGrp g fun x => { x with clrSlew := true }).realigning g

/-- CLROFS_SLEW_END: EPOFS reads 0. -/
def execClrofsSlewEnd (g : Fin 16) (s : State) : Host.Outcome State Fault Refusal :=
  run s fun s => s.gate (s.grp g).clrSlew fun s =>
    let s := (s.modGrp g fun x => { x with clrSlew := false, epofs := 0 }).realigning g
    forAll [2 * g.val, 2 * g.val + 1] (fun n s =>
      (s.flag (LP n) R.LP_LSTATE_OFFSET false).modLeaf n fun l => { l with retOfs := 0 }) s

/-- PJ_SNAPSHOT (R118). -/
def execPjSnapshot (src : Src) (g : Fin 16) (sel : Bool) (s : State) : Host.Outcome State Fault Refusal :=
  run s fun s => s.goReq src (GS g) R.GS_PJ_CTRL_GO [(R.GS_PJ_CTRL_SEL, b2n sel)] fun s =>
    (s.wr (GS g) R.GS_PJ_CTRL_VALID 0).hold (GS g) R.GS_PJ_CTRL_GO 0 0 [] (b2n sel)

/-- PJ_COMPLETE (R118): the selected value is copied, VALID sets and GO clears. -/
def execPjComplete (g : Fin 16) (s : State) : Host.Outcome State Fault Refusal :=
  run s fun s =>
    let a := GS g + R.GS_PJ_CTRL_GO.off
    let x := s.box a
    s.gate x.busy fun s =>
      let v := if x.aux = 1 then (s.grp g).epofs else (s.leaf (s.actLeaf g)).jump
      let s := s.putQ (GS g) R.GS_PJ_Q0 (signed48 v)
      ((s.wr (GS g) R.GS_PJ_CTRL_GO 0).wr (GS g) R.GS_PJ_CTRL_VALID 1).setBox a {}

end Sys2Proof.Machine
end

