-- ==== Sys2Proof/Machine/Outputs.lean ====
section
/-! DEFINITION. Machine/Outputs.lean: the commands of chapter 06: outputs, restarts and milestones, phase measurement, swings
of the output tree and recovery. -/

namespace Sys2Proof.Machine

/-! ## Outputs (R127) -/

/-- OSTAT.LIVE: enabled and toggling. -/
def State.outLive (s : State) (g o : Nat) : Bool :=
  (s.outSet g o).on && (s.outSet g o).live && !s.treeLow g

/-- An output that exists: 0 to 35, O34 only with coherent measurement (R4, R119). -/
def State.outExists (s : State) (sel : Nat) : Bool := decide (sel ≤ 35) && (sel != 34 || s.variant.coh)

/-- The output whose EN is used: O34 follows PW_CFG.EN (R202), and O32 the channel that the spare serves (R120). -/
def State.ownEn (s : State) (g o : Nat) : Bool := o != 34 && !(o == 32 && (s.spareServes g).isSome)

/-- OUTPUT_ENABLE_WRITE (R4, R126, R127): a write of OCFG of output o; its EN parks or releases the output, the divider fields
wait for the next restart. A write of an absent OCFG is discarded. -/
def execOutputEnableWrite (src : Src) (g : Fin 16) (o : Fin 36) (v : Word) (s : State) :
    Host.Outcome State Fault Refusal :=
  run s fun s => s.gate (s.access src && s.blockOn (OP g o) && s.outExists o) fun s =>
    let s := s.plainWrite src (OP g o) v
    s.gate (s.ownEn g o) fun s => s.modOut g o fun x => { x with live := getBits v 24 1 == 1 }

/-- The group whose O35 drives the MON_P/MON_N pair; none: the pair is parked low (R121). -/
def State.monPair (s : State) : Option Nat :=
  let g := s.rd SYS R.SYS_MONSEL_GRP
  if s.is SYS R.SYS_MONSEL_EN && s.hasGroup g then some g else none

/-- The accumulator of an output at divider cycle k after it was loaded with 0 (R123). -/
def OutSet.acc (o : OutSet) (k : Nat) : Nat := k * o.frac % 2 ^ 32

/-- The VCO periods of divider cycle k: one more when the accumulator carries (R123). -/
def OutSet.cycle (o : OutSet) (k : Nat) : Nat := odivOf o.odiv + (if 2 ^ 32 ≤ o.acc k + o.frac then 1 else 0)

/-- The DTC's delay of edge k, in units of T_VCO / 1,024 (R123). DESIGN CHOICE (assumption 91): R123 does not say how the delay is
quantised; the model drops the rest. -/
def OutSet.dtc (o : OutSet) (k : Nat) : Nat := o.acc k / 2 ^ 22

/-! ## Restarts on request and at milestones (R133 to R136) -/

/-- APPLY is answered. -/
def State.applyDone (s : State) (g res : Nat) : State :=
  ((s.wr (OUT g) R.OUT_APPLY_RESULT res).wr (OUT g) R.OUT_APPLY_GO 0).modGrp g fun x => { x with applyDue := 0 }

/-- APPLY: refused, or a restart of kind 5 at the next PFD edge, or at the next milestone the group takes. `half`: that PFD
edge lies on the falling half of a reference cycle. -/
def execApply (src : Src) (g : Fin 16) (milestone half : Bool) (s : State) : Host.Outcome State Fault Refusal :=
  run s fun s => s.goReq src (OUT g) R.OUT_APPLY_GO [(R.OUT_APPLY_WHEN, b2n milestone)] fun s =>
    let res := firstOf [(s.phaseHeld g, 2), (s.routeOn g || s.hopping g || s.cmdOn g, 1),
      (s.lst (s.actLeaf g) != L_LOCKED, 3)]
    if res ≠ 0 then s.applyDone g res
    else if milestone then s.modGrp g fun x => { x with applyDue := 2 }
    else (s.restart g 5 half (s.vcoPerRef g)).applyDone g 0

/-- A restart at epoch count `e` would move no edge of any output: no settings are pending, and the interval from the anchor is
a whole number of periods of each (R136). -/
def State.edgesKept (s : State) (g e : Nat) : Bool :=
  let x := s.grp g
  let v := s.vcoPerRef g
  let halves : Int := (2 * ((e + 2 ^ 48 - x.anchor) % 2 ^ 48) : Nat) - (b2n x.anchorHalf : Nat)
  let num : Int := halves * (v.1 * 2 ^ 32 : Nat)
  let den : Int := (2 * v.2 : Nat)
  x.anchored && decide (0 < den) && decide (num % den = 0) && (List.range 36).all fun o =>
    let a := s.outSet g o
    let w := s.outDue g o
    !a.on || o == 34 ||
      (decide (num / den % (a.period : Nat) = 0) && decide ({ w with live := a.live, on := a.on } = a))

/-- The group takes milestone m (R133). -/
def State.takesMs (s : State) (g m : Nat) : Bool :=
  let k := s.rd (GS g) R.GS_MSCFG_EVERY
  (s.grp g).on && s.is (GS g) R.GS_MSCFG_TAKE && decide (m % 2 ^ (if k ≤ 16 then k else 16) = 0)

/-- The restart of kind 4 under a PHASE_HOLD, which moves no edge: the new anchor alone; pending phase-word settings wait
(R265). -/
def State.quietRestart (s : State) (g e : Nat) : State :=
  let s := forAll [2 * g, 2 * g + 1] (fun n s => s.gate (s.serving n) fun s =>
    (s.restartMod n).modLeaf n fun l => { l with pfdPhase := 0 }) s
  let s := s.modGrp g fun x => { x with anchored := true, anchor := e, anchorHalf := false }
  s.wr (GS g) R.GS_SWSTAT_ANKIND 4

/-- A route swing of group g with a restart began at this very instant e (R151). -/
def State.swungAt (s : State) (g e : Nat) : Bool :=
  decide ((s.grp g).swing = some .route) && (s.grp g).anchored && (match (s.grp g).hop with | some h => h.p0 == e | none => false)

/-- A milestone at epoch count e meets group g: the restart of kind 4, or a skip (R100, R134, R265); an APPLY that waits for it
is served by the same instant, kind 5. A swing that restarted the group at this instant has made the one restart (R151). -/
def State.msRestart (s : State) (g e : Nat) : State :=
  let skip (s : State) : State := s.inc (GS g) R.GS_MSSKIP
  let st := s.lst (s.actLeaf g)
  let coast := st == L_HOLDOVER || st == L_RELOCK
  if s.swungAt g e then (s.gate ((s.grp g).applyDue == 2) (·.applyDone g 0)).inc (GS g) R.GS_MSCNT
  else if s.hopping g then skip (forAll [2 * g, 2 * g + 1] (fun n s => s.gate (s.lst n != L_OFF) (·.restartMod n)) s)
  else if coast then skip s
  else if st ≠ L_LOCKED then s
  else if s.phaseHeld g then
    if s.edgesKept g e then (s.quietRestart g e).inc (GS g) R.GS_MSCNT else skip s
  else
    let ep := s.epoch
    let s := ({ s with epoch := e }).restart g 4 false (s.vcoPerRef g)
    let s := s.gate ((s.grp g).applyDue == 2) fun s => (s.restart g 5 false (s.vcoPerRef g)).applyDone g 0
    ({ s with epoch := ep }).inc (GS g) R.GS_MSCNT

/-- A milestone's use by the route of group g (R79): a start that waits for it, or an advance with ADV 4. -/
def State.msRoute (s : State) (g e : Nat) : State :=
  match (s.grp g).route with
  | none => s
  | some r =>
    if !r.begun then s.gate (r.atMilestone && !r.due) (·.modRoute g fun r => { r with due := true, dueEpoch := e })
    else
      let w := (s.grp g).wp (s.rd (GS g) R.GS_RSTAT_CUR)
      s.gate (w.adv == 4 && r.dwellDone && !r.due && !s.hopping g) (·.advance g e)

/-- The next milestone: its number, its epoch count, and whether it is the base of the new schedule (R163, R165). -/
def State.nextMs (s : State) : Option (Nat × Nat × Bool) :=
  let c := s.chain
  let old := (c.base + c.next * c.interval) % 2 ^ 48
  let dist (x : Nat) : Nat := (x + 2 ^ 48 - s.epoch) % 2 ^ 48
  match c.newSched with
  | some (b, _, m) => if c.sched ∧ dist old < dist b then some (c.next, old, false) else some (m, b, true)
  | none => if c.sched then some (c.next, old, false) else none

/-- The rejoin is over: the segment head is ALIGNED, and its segment with it; EV201 (R155, R169). -/
def State.rejoined (s : State) : State :=
  let s := (s.wr MSC R.MSC_STAT_STATE 4).wr MSC R.MSC_STAT_SLEWING 0
  let s := (s.modChain fun c => { c with rejoin := 0, delta := 0 }).wr MSC R.MSC_CHAIN_SEGHD 0
  s.raise 201 (s.word (MSC + R.MSC_CHAIN_LEN.off)).toNat

/-- MILESTONE (R163, R165, R166): MS_NUM follows, a new schedule's base raises EV213, the head announces the next milestone, and
every group that takes it restarts, skips it or uses it. -/
def State.milestone (s : State) : State :=
  match s.nextMs with
  | none => s
  | some (m, e, newBase) =>
    if !s.running then s
    else
      let s := s.gate newBase fun s => match s.chain.newSched with
        | some (b, i, k) =>
          let base := (b + 2 ^ 48 - k * i % 2 ^ 48) % 2 ^ 48
          (s.modChain fun c => { c with sched := true, base := base, interval := i, newSched := none }).gate (k == 0) (·.raise 213 i)
        | none => s
      let s := (s.wr MSC R.MSC_MS_NUM m).modChain fun c => { c with next := m + 1 }
      let c := s.chain
      let s := s.gate (s.rd MSC R.MSC_STAT_STATE == 5) fun s =>
        s.sendFrame false { posf := s.rd MSC R.MSC_STAT_POS,
                            ann := some (m + 1, (c.base + (m + 1) * c.interval) % 2 ^ 48, c.interval) }
      let s := forAll (List.range s.variant.groups) (fun g s =>
        s.gate (s.takesMs g m) fun s => (s.msRestart g e).msRoute g e) s
      s.gate (s.chain.rejoin == 3) fun s =>
        let t := s.chain.delta * s.refHz
        let whole := t.tdiv (10 ^ 15)
        let s := { s with epoch := (((s.epoch : Int) - whole) % (2 ^ 48 : Nat)).toNat }
        (s.modChain fun c => { c with skew := if s.refHz = 0 then 0 else (t - whole * 10 ^ 15).tdiv s.refHz }).rejoined

def execMilestone (s : State) : Host.Outcome State Fault Refusal := run s fun s => s.milestone

/-! ## Epoch snapshot (R132) -/

/-- EPOCH_SNAPSHOT: the count of this BUS cycle is copied, VALID sets and GO clears. -/
def execEpochSnapshot (src : Src) (s : State) : Host.Outcome State Fault Refusal :=
  run s fun s => s.goReq src SYS R.SYS_EP_CTRL_GO [] fun s =>
    let hi := s.epoch / 2 ^ 32 % 2 ^ 16 + 65536 * b2n s.running
    let s := s.putQ SYS R.SYS_EP_Q0 [BitVec.ofNat 32 s.epoch, BitVec.ofNat 32 hi]
    (s.wr SYS R.SYS_EP_CTRL_GO 0).wr SYS R.SYS_EP_CTRL_VALID 1

/-! ## Phase measurement (R139) -/

/-- The write that makes a phase-measurement request; VALID clears. -/
def State.pm (s : State) (src : Src) (g sel op avg : Nat) (f : State → State) : State :=
  s.goReq src (OUT g) R.OUT_PM_CTRL_GO [(R.OUT_PM_CTRL_SEL, sel), (R.OUT_PM_CTRL_OP, op), (R.OUT_PM_CTRL_AVG, avg)] fun s =>
    f (s.wr (OUT g) R.OUT_PM_CTRL_VALID 0)

/-- The request is answered at once. -/
def State.pmPost (s : State) (g res : Nat) (q : List Word) : State :=
  let s := (s.putQ (OUT g) R.OUT_PM_Q0 q).wr (OUT g) R.OUT_PM_CTRL_RESULT res
  (s.wr (OUT g) R.OUT_PM_CTRL_GO 0).wr (OUT g) R.OUT_PM_CTRL_VALID 1

/-- PM_MEASURE: the average starts, or is to end ILLEGAL or DARK. -/
def execPmMeasure (src : Src) (g : Fin 16) (sel : BitVec 6) (avg : BitVec 4) (s : State) :
    Host.Outcome State Fault Refusal :=
  run s fun s => s.pm src g sel.toNat 0 avg.toNat fun s =>
    s.hold (OUT g) R.OUT_PM_CTRL_GO 0 (if !s.outExists sel.toNat then 1 else if !s.outLive g sel.toNat then 2 else 0) []

/-- PM_ANCHOR: the anchor in force, its half-cycle bit and its kind. -/
def execPmAnchor (src : Src) (g : Fin 16) (sel : BitVec 6) (avg : BitVec 4) (s : State) :
    Host.Outcome State Fault Refusal :=
  run s fun s => s.pm src g sel.toNat 1 avg.toNat fun s =>
    let x := s.grp g
    s.pmPost g 0 (wide48 x.anchor ++ [BitVec.ofNat 32 (b2n x.anchorHalf + 2 * s.rd (GS g) R.GS_SWSTAT_ANKIND)])

/-- PM_RESERVED_OP: OP 2 (`op` false) or 3 is ILLEGAL. -/
def execPmReservedOp (src : Src) (g : Fin 16) (op : Bool) (sel : BitVec 6) (avg : BitVec 4) (s : State) :
    Host.Outcome State Fault Refusal :=
  run s fun s => s.pm src g sel.toNat (2 + b2n op) avg.toNat (·.pmPost g 1 [])

/-- PM_COMPLETE: the mean residual in fs is posted with the result, and the recorder keeps the largest. -/
def execPmComplete (g : Fin 16) (mean : BitVec 48) (s : State) : Host.Outcome State Fault Refusal :=
  run s fun s =>
    let a := OUT g + R.OUT_PM_CTRL_GO.off
    let x := s.box a
    s.gate x.busy fun s =>
      let j := toSigned 48 mean.toNat
      let s := s.gate (x.result == 0) (·.recPres g j.natAbs)
      (s.pmPost g x.result (if x.result = 0 then signed48 j else [])).setBox a {}

/-! ## Swings (R140, R141, R147, R148) -/

/-- SWING_COMPLETE (R140): `lockt`: BUS cycles from S. -/
def execSwingComplete (g : Fin 16) (lockt : BitVec 32) (s : State) : Host.Outcome State Fault Refusal :=
  run s fun s => s.swingDone g lockt.toNat

/-- TREE_WATCHDOG (R147, R150, R151): the active leaf of group g lost its feedback edge; `atS`: declared in the cycle of a route
swing's S, of the leaf that drove the tree until then, which the swing has rescued. `mean`: the average of R101; `ms`: the
operating millisecond. -/
def execTreeWatchdog (g : Fin 16) (mean : BitVec 24) (ms : Fin 1000) (s : State) (atS : Bool := false) : Host.Outcome State Fault Refusal :=
  run s fun s =>
    let rescued := atS && decide ((s.grp g).swing = some .route)
    let n := if rescued then s.idleLeaf g else s.actLeaf g
    s.gate ((s.grp g).on && s.lst n != L_OFF && s.lst n != L_FAULT && (s.grp g).gapFailed.isNone) fun s =>
      let t := s.opMs ms
      let s := if rescued then s.affectAll g else s.activeFailed g
      let s := s.gate (s.lst n == L_LOCKED) (·.unlockLeaf n mean.toNat)
      s.leafFault n FC_WATCHDOG t

/-- TWIN_COMPARATOR (R147): a fault swing to the guard; the failed leaf joins again by a hop in place. The comparator rests
during hops. -/
def execTwinComparator (g : Fin 16) (ms : Fin 1000) (s : State) : Host.Outcome State Fault Refusal :=
  run s fun s =>
    let n := s.actLeaf g
    s.gate (s.guardIn g && s.lst n == L_LOCKED && !s.hopping g && (s.grp g).swing.isNone) fun s =>
      let t := s.opMs ms
      let s := (s.treeSwing g .fault).affectAll g |>.disturb g
      let s := s.modLeaf n fun l => { l with joined := false }
      s.leafFault n FC_TWIN t

/-- POL was written: POLPEND reads 1 until it is in force (R146). -/
def State.policyWritten (s : State) (g : Nat) : State :=
  s.flag (GS g) R.GS_SWSTAT_POLPEND (s.rd (GS g) R.GS_POLICY_POL != s.rd (GS g) R.GS_SWSTAT_POLIF)

/-- POLICY_FORCE (R148): the write of POLICY that sets FORCE, with the fields it carries. -/
def execPolicyForce (src : Src) (g : Fin 16) (pol swmode : Bool) (twin : BitVec 4) (s : State) :
    Host.Outcome State Fault Refusal :=
  run s fun s => s.goReq src (GS g) R.GS_POLICY_FORCE
    [(R.GS_POLICY_POL, b2n pol), (R.GS_POLICY_SWMODE, b2n swmode), (R.GS_POLICY_TWIN, twin.toNat)] fun s =>
    let s := s.configured.policyWritten g
    let busy := s.hopping g || (s.grp g).hop.isSome || (s.grp g).swing.isSome || s.routeOn g || s.cmdOn g
    let res := firstOf [(s.phaseHeld g, 3), (busy, 2), (s.pingPong g || !s.guardIn g, 1)]
    let s := (s.wr (GS g) R.GS_POLICY_FRES res).wr (GS g) R.GS_POLICY_FORCE 0
    s.gate (res == 0) (·.treeSwing g .forced)

/-- POLICY_TAKES_EFFECT (R146, R265, R338): under GUARDED the idle leaf joins; a group with a retired leaf stays GUARDED. -/
def execPolicyTakesEffect (g : Fin 16) (s : State) : Host.Outcome State Fault Refusal :=
  run s fun s =>
    let whole := !s.leafRetired (2 * g) && !s.leafRetired (2 * g + 1)
    s.gate (s.is (GS g) R.GS_SWSTAT_POLPEND && whole && !s.routeOn g && (s.grp g).hop.isNone && !s.hopping g
        && (s.grp g).swing.isNone && !s.cmdOn g && !s.phaseHeld g && !s.guardHeld g) fun s =>
      let s := s.wr (GS g) R.GS_SWSTAT_POLIF (s.rd (GS g) R.GS_POLICY_POL)
      let s := s.wr (GS g) R.GS_SWSTAT_POLPEND 0
      s.joinIfIdle g

/-! ## Recovery (R150) -/

/-- RECOVERY_ENTRY_SET: the other leaf takes the failed leaf's settings, band and mean tuning value; its loop closes when the
reference is qualified, otherwise it coasts. -/
def execRecoveryEntrySet (g : Fin 16) (mean : BitVec 24) (s : State) : Host.Outcome State Fault Refusal :=
  run s fun s => match (s.grp g).gapFailed with
    | none => s
    | some old =>
      let n := s.actLeaf g
      let a := s.leaf old
      let s := s.modGrp g fun x => { x with gapFailed := none }
      let s := (s.abandonStep n).copySettings n old
      let s := s.modLeaf n fun l =>
        { l with ldcfg := a.ldcfg, hcfg := a.hcfg, searched := false, missed := false, distrust := false, joined := false,
                 joining := false, waypoint := none, kind := .hop, predV := mean.toNat, heldV := mean.toNat }
      let s := s.wr (LP n) R.LP_LSTAT_BAND (s.rd (LP old) R.LP_LSTAT_BAND)
      let s := s.wr (LP n) R.LP_LSTAT_ICP_USED (s.rd (LP old) R.LP_LSTAT_ICP_USED)
      let s := s.wr (LP n) R.LP_HDAC_DACV mean.toNat
      let s := (s.restartMod n).evalSpurs n
      if s.refGood n then (s.setLst n L_ACQUIRE).closeLoop n
      else s.holdEntry n (s.rd (LP old) R.LP_LSTATE_CAUSE) mean.toNat false

/-- RECOVERY_RESUME: the tree is driven again, unless the recovery entry missed and the leaf is not yet LOCKED. -/
def execRecoveryResume (g : Fin 16) (s : State) : Host.Outcome State Fault Refusal :=
  run s fun s =>
    let n := s.actLeaf g
    let st := s.lst n
    let ok := st == L_LOCKED || st == L_HOLDOVER || (st == L_ACQUIRE && !(s.leaf n).missed)
    s.gate (s.is (GS g) R.GS_SWSTAT_GAP && (s.grp g).gapFailed.isNone && ok) fun s =>
      let s := s.wr (GS g) R.GS_SWSTAT_GAP 0
      ((s.inc (GS g) R.GS_GAPCNT).rstDue g).joinIfIdle g

end Sys2Proof.Machine
end

