-- ==== Sys2Proof/Machine/Recorder.lean ====
section
/-! DEFINITION. Machine/Recorder.lean: the commands of chapter 17: records, erases, recovery after BOOT, and the recorder's
mailbox. Whether a program, mark or erase succeeds is an operand. -/

namespace Sys2Proof.Machine

/-! ## Records (R368) -/

/-- Sum of two tables of counts that saturate at `hi`. -/
def addTab (a b : Tab Nat) (hi : Nat) : Tab Nat := b.foldl (fun t e => bumpTab t e.1 e.2 hi) a

/-- The data of a failed record go back into the present period, which covers both (R375). -/
def RecData.merge (a b : RecData) : RecData :=
  let hi := 2 ^ 64
  let top (x y : Int) : Bool := decide (x ≤ y)
  let newer := !a.seen || (b.seen && top a.tmax b.tmax)
  let lower := !a.seen || (b.seen && top b.tmin a.tmin)
  { b with
    rflags := a.rflags ||| b.rflags
    thist := addTab a.thist b.thist hi, vhist := addTab a.vhist b.vhist hi, rhist := addTab a.rhist b.rhist hi
    counts := addTab a.counts b.counts 0xFFFFFFFF, cfgw := addTab a.cfgw b.cfgw 0xFFFF, refw := addTab a.refw b.refw 0xFF
    tmax := if newer then b.tmax else a.tmax, tmaxs := if newer then b.tmaxs else a.tmaxs
    tmin := if lower then b.tmin else a.tmin, tmins := if lower then b.tmins else a.tmins
    vmax := if a.vseen && (!b.vseen || decide (b.vmax < a.vmax)) then a.vmax else b.vmax
    vmin := if a.vseen && (!b.vseen || decide (a.vmin < b.vmin)) then a.vmin else b.vmin
    pres := if b.pres < a.pres then a.pres else b.pres
    holdmax := if b.holdmax < a.holdmax then a.holdmax else b.holdmax
    xgrp := (if b.pres < a.pres then a.xgrp % 16 else b.xgrp % 16)
      + (if b.holdmax < a.holdmax then a.xgrp / 16 * 16 else b.xgrp / 16 * 16)
    seen := a.seen || b.seen, vseen := a.vseen || b.vseen }

/-- Two 16-bit fields in one word. -/
def half2 (lo hi : Nat) : Word := BitVec.ofNat 32 (lo % 65536 + hi % 65536 * 65536)

/-- Four bytes in one word. -/
def byte4 (a b c d : Nat) : Word := BitVec.ofNat 32 (a % 256 + b % 256 * 256 + c % 256 * 65536 + d % 256 * 2 ^ 24)

/-- A histogram bin, kept in µs, in units of 2 s (R368). -/
def binOf (t : Tab Nat) (k : Nat) : Nat := satTo 0xFFFF (Tab.get 0 t k / 2000000)

/-- Words 0 to 61 of a record. -/
def RecData.body (d : RecData) : List Word :=
  let n (v : Nat) : Word := BitVec.ofNat 32 v
  [ n d.seq, n (d.count % 2 ^ 24 + d.opsec / 2 ^ 32 % 256 * 2 ^ 24), n d.opsec, n d.hepoch, n (d.hepoch / 2 ^ 32),
    byte4 d.typ d.rflags d.mode d.scause, n d.period, half2 (satTo 0xFFFF d.fails) (satTo 0xFFFF d.lost) ]
  ++ (List.range 16).map (fun i => half2 (binOf d.thist (2 * i)) (binOf d.thist (2 * i + 1)))
  ++ (List.range 4).map (fun i => half2 (binOf d.vhist (2 * i)) (binOf d.vhist (2 * i + 1)))
  ++ (List.range 9).map (fun i => half2 (binOf d.rhist (2 * i)) (binOf d.rhist (2 * i + 1)))
  ++ (List.range 8).map (fun i => n (Tab.get 0 d.counts i))
  ++ (List.range 8).map (fun i => half2 (Tab.get 0 d.cfgw (2 * i)) (Tab.get 0 d.cfgw (2 * i + 1)))
  ++ (List.range 4).map (fun i => byte4 (Tab.get 0 d.refw (4 * i)) (Tab.get 0 d.refw (4 * i + 1))
      (Tab.get 0 d.refw (4 * i + 2)) (Tab.get 0 d.refw (4 * i + 3)))
  ++ [ BitVec.ofNat 32 (ofSigned 8 (-((-d.tmax) / 8)) + ofSigned 8 (d.tmin / 8) * 256 + d.vmax % 65536 * 65536),
       BitVec.ofNat 32 (d.vmin % 65536 + d.tmaxs % 256 * 65536 + d.tmins % 256 * 2 ^ 24),
       n d.pres, n d.holdmax, n (d.xgrp % 256) ]

/-- The 64 words of a record, with its CRC and valid mark. -/
def RecData.words (d : RecData) : List Word := d.body ++ [BitVec.ofNat 32 (crc32 d.body), 0xC3A55A3C]

/-! ## Where a record lies (R365, R371, R375) -/

/-- The die address of the record at page position p, by the sector map. -/
def Die.addr (d : Die) (p : Nat) : Nat :=
  let n := sectorOf p
  let page := p % 16 * 0x100
  match d.maps.reverse.find? fun m => m.1 == n with
  | some m => 0x4A0000 + m.2 * 0x1000 + page
  | none => if n < 64 then 0x50000 + n * 0x1000 + page else 0x90000 + (n - 64) * 0x1000 + page

/-- NEWEST, OLDEST and PCOUNT follow the die. -/
def State.recShow (s : State) : State :=
  let rs := s.reco.die.recs
  let s := match rs.getLast? with | some r => s.wr REC R.REC_NEWEST r.data.seq | none => s.wr REC R.REC_NEWEST 0
  let s := match rs.find? fun r => decide (1024 ≤ r.pos) with
    | some r => s.wr REC R.REC_OLDEST r.data.seq
    | none => s.wr REC R.REC_OLDEST 0
  s.wr REC R.REC_PCOUNT (rs.filter fun r => decide (r.pos < 1024)).length

/-! ## Writing (R370, R371, R375) -/

/-- The record as it is written: UNREC and FAILS after failures, CLKBACK against the previous stored label, and PERIOD since the
previous stored record (R364, R368, R375). -/
def State.recFinal (s : State) (d : RecData) : RecData :=
  let r := s.reco
  let back := decide (d.hepoch ≠ 0) && decide (r.lastLabel ≠ 0) && decide (d.hepoch < r.lastLabel)
  { d with fails := satTo 0xFFFF (s.rd REC R.REC_FAILCNT),
           period := if d.typ = 3 then d.period else d.opsec - r.lastStoredSec
           rflags := d.rflags ||| (b2n r.unrecorded) ||| 2 * b2n back }

/-- The erase of the next circulating sector starts, through the journal, when the write position enters a sector (R371), or later
where the page that entered it was lost and the next sector still holds records. -/
def State.nextErase (s : State) (pos : Nat) : State :=
  let n := 64 + ((pos - 1024) / 16 + 1) % 1026
  let r := s.reco
  if pos < 1024 ∨ r.erase = some (.sector n) ∨ r.eraseQ.contains (.sector n) then s
  else s.gate ((pos - 1024) % 16 == 0 || r.die.recs.any fun x => sectorOf x.pos == n) (·.eraseStart (.sector n))

/-- What waits on a record of a type: the CLK domain goes off after the SAFE record (R10), and the orderly power-down ends after
the POWERDOWN record (R40). -/
def State.recAfter (s : State) (typ : Nat) (stored : Bool) : State :=
  let s := s.gate (decide (typ = 1) && s.power.safeRecPending) fun s =>
    if s.power.vinLost then s.modPower fun p => { p with safeRecPending := false } else s.clkFollows
  s.gate (decide (typ = 2) && stored && s.power.reqPending) fun s => (s.wr GLB R.GLB_MODE_PDRDY 1).modeResult 0

/-- The record is stored (R370, R375): EV243; the count of failures it carries is taken off FAILCNT. -/
def State.recStored (s : State) (d : RecData) : State :=
  let pos := s.reco.die.used
  let d := s.recFinal d
  let s := s.wr REC R.REC_FAILCNT (s.rd REC R.REC_FAILCNT - d.fails)
  let s := s.modReco fun r =>
    { r with unrecorded := false, page := false, pageDone := false, lastStoredSec := d.opsec, lastLabel := d.hepoch,
             die := { r.die with recs := r.die.recs ++ [{ pos := pos, data := d }], used := pos + 1, badPages := 0 } }
  let s := (s.inc REC R.REC_WRITES).raise 243 d.seq
  (s.nextErase pos).recShow

/-- The write of the oldest waiting record cannot succeed (R375): UNRECORDED, FAILCNT counts, its data stay in the period. -/
def State.recLost (s : State) : State :=
  match s.reco.waiting with
  | [] => s
  | d :: rest =>
    let s := s.inc REC R.REC_FAILCNT
    let s := s.modReco fun r =>
      { r with unrecorded := true, page := false, pageDone := false, waiting := rest, period := d.merge r.period,
               die := { r.die with used := r.die.used + 1, badPages := r.die.badPages + 1 } }
    (s.recAfter d.typ false).recStart

/-- An attempt fails: the sector is mapped to the next spare and the record is written there, at most three attempts (R375). -/
def State.recAttempt (s : State) : State :=
  let r := s.reco
  let k := r.attempts + 1
  if 3 ≤ k ∨ 256 ≤ r.die.maps.length then s.recLost
  else
    let n := sectorOf r.die.used
    let sp := r.die.maps.length
    let s := s.modReco fun r =>
      { r with attempts := k, pageDone := false, die := { r.die with maps := r.die.maps ++ [(n, sp)] } }
    ((s.inc REC R.REC_REMAPS).raise 242 (n + 65536 * sp)).recState

/-- RECORD_PERIODIC (R369): INTERVAL operating minutes after the previous trigger. -/
def execRecordPeriodic (s : State) : Host.Outcome State Fault Refusal :=
  run s fun s =>
    let i := s.rd REC R.REC_CFG
    let m := if i = 0 then 60 else if 1440 < i then 1440 else i
    s.gate (s.power.aon && decide (s.reco.lastTrigSec + 60 * m ≤ s.reco.opsec)) (·.trigger 0)

/-- RECORD_PAGE_DONE (R370): the page is programmed and read back. -/
def execRecordPageDone (ok : Bool) (s : State) : Host.Outcome State Fault Refusal :=
  run s fun s => s.gate (s.reco.page && !s.reco.pageDone) fun s =>
    if ok then s.modReco fun r => { r with pageDone := true } else s.recAttempt

/-- The mark of the oldest waiting record is in place. -/
def State.markDone (s : State) : State :=
  match s.reco.waiting with
  | [] => s
  | d :: rest =>
    let s := (s.modReco fun r => { r with waiting := rest }).recStored d
    (s.recAfter d.typ true).recStart

/-- RECORD_STORED (R370): the mark is programmed and read back; `ok` false: the attempt fails. -/
def execRecordStored (ok : Bool) (s : State) : Host.Outcome State Fault Refusal :=
  run s fun s => s.gate (s.reco.page && s.reco.pageDone) fun s => if ok then s.markDone else s.recAttempt

/-- RECORD_DIE_TIMEOUT (R375): the die does not answer, so the write cannot succeed. -/
def execRecordDieTimeout (s : State) : Host.Outcome State Fault Refusal :=
  run s fun s => s.gate s.reco.page (·.recLost)

/-- An erase has taken effect on the die, verified blank: a calibration slot is erased and no longer a lost store. -/
def Die.erased (d : Die) (e : EraseOf) : Die :=
  let d := { d.eraseBegun e with journal := none }
  match e with
  | .calSlot false => { d with calLostA := false }
  | .calSlot true => { d with calLostB := false }
  | _ => d

/-- SECTOR_ERASE_DONE (R373): a DONE entry is appended, and the erase that waits begins. -/
def execSectorEraseDone (s : State) : Host.Outcome State Fault Refusal :=
  run s fun s => match s.reco.erase with
    | none => s
    | some e =>
      let q := s.reco.eraseQ
      let s := s.modReco fun r => { r with erase := none, eraseQ := q.drop 1, die := r.die.erased e }
      let s := match q with
        | [] => s
        | n :: _ => s.eraseStart n
      (s.recShow).recStart

/-- The copies that are due for an erase after BOOT: one free entry left, and the other copy valid (R367). -/
def Die.headerErase (d : Die) : Die :=
  if 127 ≤ d.headA.length ∧ d.headB ≠ [] then { d with headA := [] }
  else if 127 ≤ d.headB.length ∧ d.headA ≠ [] then { d with headB := [] }
  else d

/-- RECOVER_DONE (R377, R378): the journaled erase is made again, a header copy is erased when due, and the GAP record is
stored; EV241. -/
def execRecoverDone (s : State) : Host.Outcome State Fault Refusal :=
  run s fun s => s.gate s.reco.recovering fun s =>
    let s := match s.reco.die.journal with
      | some e => s.modReco fun r => { r with die := r.die.erased e }
      | none => s
    let s := s.modReco fun r => { r with recovering := false, die := r.die.headerErase }
    let s := match s.reco.gapOf with
      | none => s
      | some d => (((s.recStored d).inc REC R.REC_GAPS).modReco fun r => { r with gapOf := none }).raise 241 d.lost
    (s.recShow).recStart

/-! ## The mailbox (R380, R381) -/

/-- A REC.CTRL operation is taken: its operands are copied, VALID clears. -/
def State.recTake (s : State) (src : Src) (op : Nat) (f : State → State) : State :=
  s.goReq src REC R.REC_CTRL_GO [(R.REC_CTRL_OP, op)] fun s => f (s.wr REC R.REC_CTRL_VALID 0)

/-- The operation waits for its completion with result `res`; the operands are kept in `q`. -/
def State.recHeld (s : State) (op res : Nat) : State :=
  s.hold REC R.REC_CTRL_GO op res [s.word (REC + R.REC_D0.off), s.word (REC + R.REC_D1.off)]

def execRecRead (src : Src) (s : State) : Host.Outcome State Fault Refusal := run s fun s => s.recTake src 0 (·.recHeld 0 0)
def execRecLive (src : Src) (s : State) : Host.Outcome State Fault Refusal := run s fun s => s.recTake src 1 (·.recHeld 1 0)
def execRecTime (src : Src) (s : State) : Host.Outcome State Fault Refusal := run s fun s => s.recTake src 2 (·.recHeld 2 0)
def execRecSetepoch (src : Src) (s : State) : Host.Outcome State Fault Refusal :=
  run s fun s => s.recTake src 3 (·.recHeld 3 0)

/-- REC_WRITE: a REQUEST trigger, or BUSY. `soon`: less than 1 s has passed since the previous trigger. -/
def execRecWrite (src : Src) (soon : Bool) (s : State) : Host.Outcome State Fault Refusal :=
  run s fun s => s.recTake src 4 fun s =>
    let r := s.reco
    let busy := r.page || !r.waiting.isEmpty || r.erase.isSome || r.recovering || (soon && r.trigSeen)
    if busy then s.recHeld 4 2 else (s.trigger 4).recHeld 4 0

/-- REC_RESERVED_OP: OP 5 to 7. -/
def execRecReservedOp (src : Src) (op : Fin 3) (s : State) : Host.Outcome State Fault Refusal :=
  run s fun s => s.recTake src (5 + op) (·.recHeld (5 + op) 1)

/-- The window takes the words of a record. -/
def State.window (s : State) (ws : List Word) : State := s.putQ REC R.REC_WIN ws

/-- A READ: the valid record whose SEQ equals D0. -/
def State.readRec (s : State) (x : Box) : State × Box :=
  let d := s.reco.die
  if !d.answers then (s, { x with result := 4, q := [] })
  else match d.recs.find? fun r => r.data.seq == (x.q.getD 0 0).toNat with
    | some r => (s.window r.data.words, { x with q := [BitVec.ofNat 32 (d.addr r.pos)] })
    | none => (s, { x with result := 3, q := [] })

/-- The outcome of the operation that x holds. -/
def State.recOutcome (s : State) (x : Box) : State × Box :=
  let r := s.reco
  if x.op = 0 then s.readRec x
  else if x.op = 1 then
    (s.window { (s.recFinal (s.formRecord 4)) with seq := r.nextSeq }.words, { x with q := [0xFFFFFFFF] })
  else if x.op = 2 then
    (s, { x with q := [BitVec.ofNat 32 (r.count % 2 ^ 24 + r.opsec / 2 ^ 32 % 256 * 2 ^ 24), BitVec.ofNat 32 r.opsec,
      BitVec.ofNat 32 r.hostEpoch, BitVec.ofNat 32 (r.hostEpoch / 2 ^ 32)] })
  else if x.op = 3 then
    (s.modReco fun r =>
      { r with hostEpochNext := some ((x.q.getD 0 0).toNat + (x.q.getD 1 0).toNat * 2 ^ 32) }, { x with q := [] })
  else (s, { x with q := [] })

/-- REC_CTRL_COMPLETE (R285, R380). -/
def execRecCtrlComplete (s : State) : Host.Outcome State Fault Refusal :=
  run s fun s =>
    let x := s.box (REC + R.REC_CTRL_GO.off)
    s.gate x.busy fun s =>
      let (s, x) := s.recOutcome x
      s.postBox REC R.REC_CTRL_RESULT R.REC_CTRL_GO R.REC_CTRL_VALID R.REC_Q0 x

end Sys2Proof.Machine
end

