-- ==== Sys2Proof/Machine/Host.lean ====
section
/-! DEFINITION. Machine/Host.lean: the host interface's own machinery (chapter 11 and R406 to R409): the link and its resets,
the ring set-up mailbox, the doorbells, the event masks, MSI-X masks and the coalescing timer. -/

namespace Sys2Proof.Machine

/-! ## Guarantees that lapse (R264, R111) -/

/-- Guarantees lapse; a return that waited for a PHASE_HOLD no longer waits where none covers its group. -/
def State.lapse (s : State) (p : Hold → Bool) : State :=
  let s := { s with holds := s.holds.filter fun h => !p h }
  iter 16 (fun g s => s.gate ((s.grp g).deferRet && !s.phaseHeld g) fun s =>
    (s.modGrp g fun x => { x with deferRet := false }).wr (GS g) R.GS_HOLDSTAT_DEFER 0) s

/-! ## Rings (R245 to R247) -/

/-- The live commands of ring r. -/
def State.ringCmds (s : State) (r : Nat) : List Nat := (s.cmds.filter fun c => c.ring == r && !c.lost).map (·.handle)

/-- The ring enters ERROR: fetch stops, its commands end at their next test-step boundary, and no completion is written. -/
def State.ringError (s : State) (r : Nat) : State :=
  if s.rstate r ≠ RS_ACTIVE ∧ s.rstate r ≠ RS_STOPPING then s
  else
    let s := s.wr (RB r) R.HIF_RSTAT_STATE RS_ERROR
    let hs := (s.cmds.filter fun c => c.ring == r && (c.phase == .running || c.phase == .queued)).map (·.handle)
    (forAll hs (fun h s => s.cmdAbort h) s).repower id

/-- Command h, ended by a DISABLE, keeps what it still does under a handle 2^32 higher: the ring may be enabled and its handles
used again before the test-step boundary (R247, R250). -/
def State.orphan (s : State) (h : Nat) : State :=
  let f (x : Nat) : Nat := if x = h then h + 2 ^ 32 else x
  let step (t : TStep) : TStep := { t with handle := f t.handle }
  let by_ : HopBy → HopBy
    | .cmd c => .cmd (f c)
    | b => b
  let cmd (c : Cmd) : Cmd := if c.handle = h then { c with issue := c.issue + 2 ^ 32 } else c
  let route (r : Route) : Route := if r.byReg then r else { r with holder := f r.holder, joined := r.joined.map f }
  let emit (m : Emit) : Emit := if m.host then { m with handle := f m.handle } else m
  let s : State := { s with cmds := s.cmds.map cmd, modRecs := s.modRecs.map fun r => (f r.1, r.2) }
  let s := s.allGrp fun x =>
    { x with
      cur := x.cur.map fun (st : Stream) => { st with steps := st.steps.map step },
      steps := x.steps.map step, replay := x.replay.map step,
      queue := x.queue.map fun e => { e with handle := f e.handle },
      route := x.route.map route,
      hop := x.hop.map fun p => { p with src := by_ p.src } }
  forAll (s.engines.map (·.1)) (fun p s => s.modEng p fun x =>
    { x with
      handle := x.handle.map f, req := x.req.map fun q => { q with handle := q.handle.map f },
      emitter := x.emitter.map emit }) s

/-- The ring becomes DISABLED: commands end at their next test-step boundary without a completion, its guarantees lapse, its
routes end as by a STOP, and its sites are no longer owned. -/
def State.ringDisable (s : State) (r : Nat) : State :=
  let hs := s.ringCmds r
  s.repower fun s =>
    let s := s.wr (RB r) R.HIF_RSTAT_STATE RS_DISABLED
    let s := s.modRing r fun x => { x with waiting := [], unsig := 0 }
    (forAll hs (fun h s => (s.cmdAbort h).orphan h) s).lapse fun h => h.ring == r

/-- Every ring is DISABLED and its stored configuration cleared (R247). -/
def State.ringsReset (s : State) : State := iter 17 (fun r s => (s.ringDisable r).setRing r {}) s

/-- Fetch stops while a request that leaves RUN, or the orderly power-down, is pending (R27, R40). -/
def State.fetchStopped (s : State) : Bool := s.power.reqPending && (s.mode == MODE_RUN || s.power.downStep != 0)

/-! ## The ring set-up mailbox (R246) -/

/-- The operands D0 to D6 as they are stored: for ring 16, D0, D1, D5 and D6 are ignored. -/
def State.rsetWords (s : State) (r : Nat) : List Word :=
  let d (k : Nat) : Word := s.word (HIF + R.HIF_RSET_D0.off + 4 * k)
  if r = 16 then [0, 0, d 2, d 3, d 4, 0, 0] else [d 0, d 1, d 2, d 3, d 4, d 5, d 6]

/-- A site mask held in two words. -/
def maskOf (lo hi : Word) : Nat := lo.toNat + hi.toNat * 2 ^ 32

/-- A CONFIGURE names a site that another ring's configuration holds, or one that is absent. -/
def State.siteConflict (s : State) (r : Nat) (d : List Word) : Bool :=
  let m := maskOf (d.getD 5 0) (d.getD 6 0)
  decide (2 ^ (4 * s.variant.groups) ≤ m)
    || (List.range 16).any fun q => q != r && (s.ring q).stored && (s.ring q).sites &&& m != 0

/-- RESULT of a CONFIGURE. -/
def State.configureResult (s : State) (r : Nat) (d : List Word) : Nat :=
  let d4 := d.getD 4 0
  let depth := getBits d4 0 4
  firstOf [(decide (16 < r) || decide (depth < 6) || decide (12 < depth) || getBits d4 11 5 != 0, 1),
    (s.rstate r != RS_DISABLED, 2), (s.siteConflict r d, 3),
    (getBits (d.getD 0 0) 0 12 != 0 || getBits (d.getD 2 0) 0 12 != 0, 4)]

/-- The level records and the boot queue that an ENABLE of ring 16 writes first (R406); at the first one after BOOT, each lost
calibration store is counted and raises EV217 (R331). -/
def State.eventRingOn (s : State) : State :=
  let lv := s.levels.filter fun x => bitOf (s.word (EVT + R.EVT_RMASK_0.off + 4 * (x.1 / 32))).toNat (x.1 % 32)
  let s := forAll lv (fun x s => s.evRecord ⟨x.1, true, s.levelData x.1 x.2⟩) s
  if !s.bootQOn then s
  else
    let s := forAll s.bootQ (fun o s => s.evRecordAt o.1 o.2.1 o.2.2) s
    let s := s.inc EVT R.EVT_SEQ s.bootDropped
    let s := { s with evLost := s.evLost || decide (0 < s.bootDropped), bootQ := [], bootDropped := 0, bootQOn := false }
    let lost := s.cal.lost
    let s := s.modCal fun c => { c with lost := 0 }
    let found (k : Nat) (s : State) : State := s.gate (bitOf lost k) fun s => (s.inc CAL R.CAL_SLOTLOSS).raise 217 k
    found 1 (found 0 s)

/-- The ring becomes ACTIVE: from DISABLED its indexes and counts start at 0 and its phase at 1. -/
def State.ringEnable (s : State) (r : Nat) : State :=
  let fresh := s.rstate r == RS_DISABLED
  let s := s.repower fun s =>
    let s := s.gate fresh fun s =>
      let s := (s.setWord (RB r + R.HIF_RSTAT_STATE.off) 0).setWord (RB r + R.HIF_RNEXT_ISSUE.off) 0
      let s := s.gate (r == 16) (·.wr HIF R.HIF_EVHEAD 0)
      s.modRing r fun x => { x with cqHead := 0, phase := true, unsig := 0, safeLeft := 0, waiting := [] }
    s.wr (RB r) R.HIF_RSTAT_STATE RS_ACTIVE
  s.gate (r == 16) (·.eventRingOn)

/-- STOPPING, and STOPPED once no fetched command is left. -/
def State.ringStopped (s : State) (r : Nat) : State :=
  s.gate (s.rstate r == RS_STOPPING && (s.ringCmds r).isEmpty) (·.wr (RB r) R.HIF_RSTAT_STATE RS_STOPPED)

/-- An RSET operation: VALID clears, the operation is made, and its outcome is held for the completion. -/
def State.rset (s : State) (src : Src) (op r : Nat) : State :=
  s.goReq src HIF R.HIF_RSET_CTRL_GO [(R.HIF_RSET_CTRL_RING, r), (R.HIF_RSET_CTRL_OP, op)] fun s =>
    let s := s.wr HIF R.HIF_RSET_CTRL_VALID 0
    let st := s.rstate r
    let d := s.rsetWords r
    let ok : Bool :=
      if op = 2 then (st == RS_DISABLED && (s.ring r).stored) || st == RS_STOPPED
      else if op = 3 then st == RS_ACTIVE
      else if op = 4 then st != RS_DISABLED
      else true
    let res := if 5 ≤ op ∨ 16 < r then 1 else if op = 1 then s.configureResult r d else if ok then 0 else 2
    let s := s.gate (res == 0) fun s =>
      if op = 1 then s.modRing r fun x => { x with stored := true, d := d }
      else if op = 2 then s.ringEnable r
      else if op = 3 then (s.wr (RB r) R.HIF_RSTAT_STATE RS_STOPPING).ringStopped r
      else if op = 4 then s.ringDisable r
      else s
    s.hold HIF R.HIF_RSET_CTRL_GO op res (if r ≤ 16 then (s.ring r).d else [])

def execRsetRead (src : Src) (r : BitVec 5) (s : State) : Host.Outcome State Fault Refusal :=
  run s fun s => s.rset src 0 r.toNat
def execRsetConfigure (src : Src) (r : BitVec 5) (s : State) : Host.Outcome State Fault Refusal :=
  run s fun s => s.rset src 1 r.toNat
def execRsetEnable (src : Src) (r : BitVec 5) (s : State) : Host.Outcome State Fault Refusal :=
  run s fun s => s.rset src 2 r.toNat
def execRsetStop (src : Src) (r : BitVec 5) (s : State) : Host.Outcome State Fault Refusal :=
  run s fun s => s.rset src 3 r.toNat
def execRsetDisable (src : Src) (r : BitVec 5) (s : State) : Host.Outcome State Fault Refusal :=
  run s fun s => s.rset src 4 r.toNat
def execRsetReservedOp (src : Src) (op : Fin 3) (r : BitVec 5) (s : State) : Host.Outcome State Fault Refusal :=
  run s fun s => s.rset src (5 + op) r.toNat

/-- RSET_COMPLETE (R246). -/
def execRsetComplete (s : State) : Host.Outcome State Fault Refusal :=
  run s fun s =>
    let x := s.box (HIF + R.HIF_RSET_CTRL_GO.off)
    s.gate x.busy (·.postBox HIF R.HIF_RSET_CTRL_RESULT R.HIF_RSET_CTRL_GO R.HIF_RSET_CTRL_VALID R.HIF_RSET_Q0 x)

/-! ## Doorbells (R248) -/

/-- A discarded doorbell counts and is reported. -/
def State.doorbellBad (s : State) (r : Nat) (cq : Bool) : State := (s.inc (RB r) R.HIF_DBERR).raise 209 (r + 32 * b2n cq)

/-- The ring takes doorbells. -/
def State.ringUp (s : State) (r : Nat) : Bool := s.rstate r == RS_ACTIVE || s.rstate r == RS_STOPPING

/-- The index may move from `old` to `v` over at most `room` entries of a ring of the given depth. -/
def doorbellOk (depth old v room : Nat) : Bool := decide (v < depth) && decide ((v + depth - old % depth) % depth ≤ room)

/-- SQ_TAIL_DOORBELL: a write of BAR2 at r × 0x1000; `whole`: it is a 32-bit write. -/
def State.sqTail (s : State) (r : Nat) (v : Word) (whole : Bool) : State :=
  let n := (s.ring r).depth
  let old := s.rd (RB r) R.HIF_RNEXT_SQTAIL
  let head := s.rd (RB r) R.HIF_RSTAT_SQHEAD
  if !s.access .pcie then s
  else if s.ringUp r && whole && doorbellOk n old v.toNat ((head + 2 * n - 1 - old) % n) then
    (s.wr (RB r) R.HIF_RNEXT_SQTAIL v.toNat).gate (s.mode == MODE_SAFE) (·.ringSafe r)
  else s.doorbellBad r false

def execSqTailDoorbell (r : Fin 16) (v : Word) (whole : Bool) (s : State) : Host.Outcome State Fault Refusal :=
  run s fun s => s.sqTail r v whole

/-- CQ_HEAD_DOORBELL: a write of BAR2 at r × 0x1000 + 8. -/
def State.cqHeadWrite (s : State) (r : Nat) (v : Word) (whole : Bool) : State :=
  let x := s.ring r
  let n := x.depth
  let tail := s.rd (RB r) R.HIF_RSTAT_CQTAIL
  if !s.access .pcie then s
  else if s.ringUp r && whole && doorbellOk n x.cqHead v.toNat ((tail + n - x.cqHead) % n) then
    s.setRing r { x with cqHead := v.toNat }
  else s.doorbellBad r true

def execCqHeadDoorbell (r : Fin 16) (v : Word) (whole : Bool) (s : State) : Host.Outcome State Fault Refusal :=
  run s fun s => s.cqHeadWrite r v whole

/-- A read of BAR2 at offset a: a doorbell reads the last accepted value, anything else 0 (R248). -/
def State.readDoorbell (s : State) (a : Nat) : Word :=
  let r := a / 0x1000
  if 16 ≤ r then 0
  else if a % 0x1000 / 4 = 0 then BitVec.ofNat 32 (s.rd (RB r) R.HIF_RNEXT_SQTAIL)
  else if a % 0x1000 / 4 = 2 then BitVec.ofNat 32 (s.ring r).cqHead
  else 0

/-- A write of HIF.EVHEAD, checked as a doorbell of ring 16 (R248). -/
def State.evHeadWrite (s : State) (src : Src) (v : Word) : State :=
  let n := (s.ring 16).depth
  let old := s.rd HIF R.HIF_EVHEAD
  let tail := s.rd (RB 16) R.HIF_RSTAT_CQTAIL
  if s.ringUp 16 && doorbellOk n old v.toNat ((tail + n - old) % n) then
    (s.wr HIF R.HIF_EVHEAD v.toNat).cfgWrite (HIF + R.HIF_EVHEAD.off) src
  else s.doorbellBad 16 true

def execEvheadWrite (src : Src) (v : Word) (s : State) : Host.Outcome State Fault Refusal :=
  run s fun s => s.gate (s.access src) (·.evHeadWrite src v)

/-! ## Events (R407 to R409) -/

/-- A write to RMASK, PMASK or VMAP: an RMASK bit that rises over an active level event writes a SET record for each active
instance (R409). -/
def State.evMaskWrite (s : State) (src : Src) (a : Nat) (v : Word) : State :=
  let old := s.word a
  let s := s.plainWrite src a v
  let i := (a - EVT) / 4
  s.gate (decide (i < 8) && s.ringUp 16) fun s =>
    let rises (x : Nat × Nat) : Bool := decide (x.1 / 32 = i) && bitOf v.toNat (x.1 % 32) && !bitOf old.toNat (x.1 % 32)
    forAll (s.levels.filter rises) (fun x s => s.evRecord ⟨x.1, true, s.levelData x.1 x.2⟩) s

/-- The address of event mask or map word i: RMASK 0 to 7, PMASK 8 to 15, VMAP 16 to 79. -/
def evMaskAddr (i : Nat) : Nat := if i < 16 then EVT + 4 * i else EVT + R.EVT_VMAP.off + 4 * (i - 16)

/-- EVENT_MASK_WRITE. -/
def execEventMaskWrite (src : Src) (i : Fin 80) (v : Word) (s : State) : Host.Outcome State Fault Refusal :=
  run s fun s => s.gate (s.access src) (·.evMaskWrite src (evMaskAddr i) v)

/-- PSEEN_WRITE (R408): the acknowledged count. -/
def execPseenWrite (src : Src) (v : Word) (s : State) : Host.Outcome State Fault Refusal :=
  run s fun s => s.gate (s.access src) (·.plainWrite src (EVT + R.EVT_PSEEN.off) v)

/-! ## MSI-X (R244, R263) -/

/-- Pending messages are sent when their masks clear. -/
def State.pendingSent (s : State) : State :=
  if !s.msixEn || s.msixMask then s
  else iter 64 (fun v s =>
    s.gate (s.is HIF (pbaFld v) && !s.is (MSIXT v) R.HIF_MSIX_CTRL) fun s => (s.wr HIF (pbaFld v) 0).send (.msix v)) s

/-- A write of the vector control word of table entry v. -/
def State.msixCtrl (s : State) (src : Src) (v : Nat) (w : Word) : State :=
  (s.plainWrite src (MSIXT v + R.HIF_MSIX_CTRL.off) w).pendingSent

/-- MSIX_MASK_WRITE: the vector control word of entry v, or, for none, the message control word of the function, whose bit 15
enables MSI-X and whose bit 14 masks the function. -/
def execMsixMaskWrite (v : Option (Fin 64)) (w : Word) (s : State) : Host.Outcome State Fault Refusal :=
  run s fun s => s.gate (s.access .pcie) fun s => match v with
    | some v => s.msixCtrl .pcie v w
    | none => { s with msixEn := getBits w 15 1 == 1, msixMask := getBits w 14 1 == 1 }.pendingSent

/-- COALESCE_TIMER (R263): CTIME µs after the oldest unsignalled completion, or event record, of ring r. -/
def execCoalesceTimer (r : Fin 17) (s : State) : Host.Outcome State Fault Refusal :=
  run s fun s =>
    let x := s.ring r
    s.gate (s.rstate r != RS_DISABLED && x.ctime != 0 && x.unsig != 0) fun s =>
      (s.setRing r { x with unsig := 0 }).gate x.ien (·.fire x.vec)

/-! ## The function (R242, R243) -/

/-- Vendor ID and Device ID. -/
def pciIds : Word := BitVec.ofNat 32 (Config.vendor.toNat + 0x0512 * 65536)

/-- A read of BAR k: BAR0 and BAR2 are 64-bit, non-prefetchable, of 16 MiB and 64 KiB, BAR1 and BAR3 their upper halves; BAR4 and
BAR5 read 0. -/
def State.barRead (s : State) (k : Nat) : Word :=
  match k with
  | 0 => (s.pci.bar0 &&& 0xFF000000) ||| 4
  | 1 => s.pci.bar1
  | 2 => (s.pci.bar2 &&& 0xFFFF0000) ||| 4
  | 3 => s.pci.bar3
  | _ => 0

/-! ## The link (R35, R247, R269, R403, R418) -/

/-- What waited for the link, or for Bus Master Enable, is sent in order (R269), a message as the masks then let it (R244). -/
def State.resumed (s : State) : State :=
  if s.paused then s
  else forAll s.held (fun o s => match o with
    | .msix v => s.fire v
    | o => s.send o) { s with held := [] }

/-- HIF.LINK takes its live values; the link going down begins the level event LINKDN. -/
def State.linkSet (s : State) (up : Bool) (speed width : Nat) (bme : Bool) : State :=
  let was := s.is HIF R.HIF_LINK_UP
  let s := s.wr HIF R.HIF_LINK_SPEED (if up then speed else 0)
  let s := s.wr HIF R.HIF_LINK_WIDTH (if up then width else 0)
  let s := (s.wr HIF R.HIF_LINK_BME (b2n bme)).wr HIF R.HIF_LINK_UP (b2n up)
  { s with linkLost := !up && (was || s.linkLost) }

/-- LINK_STATE_CHANGE: the link or Bus Master Enable changes while the endpoint is out of reset; an EXTEST-group instruction keeps
the link down (R394). -/
def execLinkStateChange (up : Bool) (speed : BitVec 4) (width : BitVec 5) (bme : Bool) (s : State) :
    Host.Outcome State Fault Refusal :=
  run s fun s => s.gate (s.power.host && !s.power.perst && !(up && s.extest)) fun s => (s.linkSet up speed.toNat width.toNat bme).resumed

/-- LINK_DOWN_TIMEOUT: the link has been down for 100 ms (R247). -/
def execLinkDownTimeout (s : State) : Host.Outcome State Fault Refusal :=
  run s fun s => s.gate (s.power.host && !s.is HIF R.HIF_LINK_UP && s.linkLost) fun s => { s.ringsReset with held := [] }

/-- The HIF block, the MSI-X table, the Pending Bit Array and the function's configuration return to their reset values, and ring
state follows R247. -/
def State.hifReset (s : State) : State :=
  let s := s.ringsReset
  let s := s.clearRegs HIF 0x1000
  { s with msixEn := false, msixMask := false, held := [], boxes := s.boxes.clearRange HIF 0x1000,
           pci := { subsys := s.pci.subsys } }

/-- PERST (R35, R418): the HOST domain is reset and the link goes down. -/
def execPerst (s : State) : Host.Outcome State Fault Refusal :=
  run s fun s =>
    let lost := s.is HIF R.HIF_LINK_UP || s.linkLost
    let s := (s.gate s.power.host (·.hifReset)).modPower fun p => { p with perst := true }
    { s with linkLost := lost }

/-- PERST_DEASSERT: link training can begin. -/
def execPerstDeassert (s : State) : Host.Outcome State Fault Refusal :=
  run s fun s => s.modPower fun p => { p with perst := false }

/-- FUNCTION_LEVEL_RESET (R418): the link stays up; Bus Master Enable clears. -/
def execFunctionLevelReset (s : State) : Host.Outcome State Fault Refusal :=
  run s fun s => s.gate (s.access .pcie) fun s =>
    let speed := s.rd HIF R.HIF_LINK_SPEED
    let width := s.rd HIF R.HIF_LINK_WIDTH
    s.hifReset.linkSet true speed width false

/-- CONFIG_REQUEST_RETRY (R35): a Configuration Request before BOOT ends is answered with retry status. -/
def execConfigRequestRetry (s : State) : Host.Outcome State Fault Refusal :=
  run s fun s => s.gate (s.power.host && !s.power.perst && s.mode == MODE_BOOT) (·.send .retry)

end Sys2Proof.Machine
end

