-- ==== Sys2Proof/Machine/Commands.lean ====
section
/-! DEFINITION. Machine/Commands.lean: descriptors from their fetch to their completion (R249 to R261) and the guarantees
(R264 to R268). -/

namespace Sys2Proof.Machine

/-! ## Descriptors (R249 to R254) -/

/-- A fetched descriptor as a command: `d` are its sixteen words. -/
def cmdOf (r slot issue : Nat) (d : List Word) : Cmd :=
  let w (k : Nat) : Word := d.getD k 0
  { ring := r, slot := slot, issue := issue, op := getBits (w 0) 0 8, flags := getBits (w 0) 8 8, deadline := (w 1).toNat,
    sites := maskOf (w 2) (w 3), rbuf := maskOf (w 4) (w 5), rlen := (w 6).toNat,
    args := (List.range 9).map fun k => w (7 + k) }

/-- Argument word k. -/
def Cmd.arg (c : Cmd) (k : Nat) : Word := c.args.getD k 0

/-- Argument words k onwards are 0. -/
def Cmd.zeroFrom (c : Cmd) (k : Nat) : Bool := (c.args.drop k).all fun w => decide (w = 0)

/-- LOAD: target, direction, unit, first entry; bytes of an entry, entries of the memory, and the count (R254). -/
def Cmd.target (c : Cmd) : Nat := getBits (c.arg 0) 0 3
def Cmd.toHost (c : Cmd) : Bool := getBits (c.arg 0) 3 1 == 1
def Cmd.unit (c : Cmd) : Nat := getBits (c.arg 1) 0 10
def Cmd.first (c : Cmd) : Nat := getBits (c.arg 2) 0 17
def Cmd.entryBytes (c : Cmd) : Nat := [16, 4, 8, 16, 4, 4].getD c.target 16
def Cmd.memSize (c : Cmd) : Nat := [4096, 4096, 256, 131072, 1024, 2048].getD c.target 0
def Cmd.count (c : Cmd) : Nat := c.rlen / c.entryBytes

/-- EXEC: a route, a step, the engines (R253). -/
def Cmd.rte (c : Cmd) : Bool := getBits (c.arg 0) 28 1 == 1
def Cmd.stp (c : Cmd) : Bool := getBits (c.arg 0) 29 1 == 1
def Cmd.engs (c : Cmd) : Bool := getBits (c.arg 0) 30 1 == 1

/-- The arguments of the opcode are as defined: the reserved bits are 0 (R251 to R254). HOLD's LENGTH is for PHASE_HOLD. -/
def Cmd.argsOk (c : Cmd) : Bool :=
  let a (k lsb w : Nat) : Nat := getBits (c.arg k) lsb w
  if c.op = 0 then c.zeroFrom 0
  else if c.op = 1 then a 0 31 1 == 0 && a 1 27 5 == 0 && (c.rte || c.stp || c.engs)
  else if c.op = 2 then a 0 13 19 == 0 && c.zeroFrom 1
  else if c.op = 3 ∨ c.op = 6 then c.zeroFrom 1
  else if c.op = 4 then
    decide (c.target ≤ 5) && a 0 4 28 == 0 && a 1 10 22 == 0 && a 2 17 15 == 0 && c.zeroFrom 3
      && decide (1 ≤ c.count) && decide (c.first + c.count ≤ c.memSize)
  else if c.op = 5 then
    a 0 1 31 == 0 && c.zeroFrom 2 && (a 0 0 1 == 1 || (decide (1 ≤ (c.arg 1).toNat) && decide ((c.arg 1).toNat ≤ 10000)))
  else false

/-- Opcode and reserved fields pass. -/
def Cmd.legal (c : Cmd) : Bool :=
  decide (c.flags < 16) && decide (c.rbuf % 16 = 0) && decide (c.rlen % 16 = 0) && c.argsOk

/-- The descriptor names an absent site, group or engine (R4). -/
def State.cmdAbsent (s : State) (c : Cmd) : Bool :=
  decide (2 ^ (4 * s.variant.groups) ≤ c.sites)
    || (c.op == 4 && !(if c.target ≤ 3 then s.hasGroup c.unit else decide (c.unit < 512) && s.hasGroup (c.unit / 32)))

/-- The site that holds channel k of group g: by the map in force, or the written one while the group is off. -/
def State.siteOfCh (s : State) (g k : Nat) : Option Nat :=
  if (s.grp g).on then (s.grp g).siteOf k
  else ({ siteMap := (List.range 4).map fun i => s.rd (GS g + 4 * i) R.GS_SITE_MAP } : Grp).siteOf k

/-- The descriptor names a site that its ring does not own (R245, R254). -/
def State.cmdForeign (s : State) (c : Cmd) : Bool :=
  let own := (s.ring c.ring).sites
  decide ((own ||| c.sites) ≠ own)
    || (c.op == 4 && (if c.target ≤ 3 then groupSites own c.unit == 0
        else match s.siteOfCh (c.unit / 32) (c.unit % 32) with
          | some i => !bitOf own (4 * (c.unit / 32) + i)
          | none => true))

/-- The submission checks in order (R249): ISSUE, opcode and reserved fields, absent resources, ownership. -/
def State.submission (s : State) (c : Cmd) (written : Nat) : Nat :=
  firstOf [(decide (written ≠ c.issue), ST_SEQERR), (!c.legal, ST_ILLEGAL), (s.cmdAbsent c, ST_ABSENT),
    (s.cmdForeign c, ST_NOTOWNED)]

/-- The handles of the CANCELs (op 3), or of the RELEASEs (op 6), that wait for the end of the command with handle t (R255). -/
def State.enders (s : State) (op t : Nat) : List Nat :=
  (s.cmds.filter fun c => c.op == op && c.phase == .queued && (c.arg 0).toNat == t).map (·.handle)

/-- Ring r has a descriptor to fetch: ACTIVE, with work, and at most 16 ahead of its oldest uncompleted command (R249). -/
def State.fetchable (s : State) (r : Nat) : Bool :=
  let issue := s.rd (RB r) R.HIF_RNEXT_ISSUE
  s.rstate r == RS_ACTIVE && s.rd (RB r) R.HIF_RSTAT_SQHEAD != s.rd (RB r) R.HIF_RNEXT_SQTAIL
    && (match s.cmds.find? fun c => c.ring == r && !c.lost with
      | some c => decide ((issue + 65536 - c.issue) % 65536 ≤ 16)
      | none => true)

/-- The ring that the fetch arbiter serves next, in round-robin order. -/
def State.fetchRing (s : State) : Option Nat :=
  ((List.range 16).map fun i => (s.fetchNext + i) % 16).find? fun r => s.fetchable r

/-- A descriptor of ring r is fetched: the SQ head and the issue count advance, and it is refused, completed SAFE when it was
submitted or waited in SAFE (R258), ended where a CANCEL, or for a HOLD a RELEASE, has named it, or waits. -/
def State.fetch (s : State) (r : Nat) (d : List Word) : State :=
  let slot := s.rd (RB r) R.HIF_RSTAT_SQHEAD
  let issue := s.rd (RB r) R.HIF_RNEXT_ISSUE
  let c := cmdOf r slot issue d
  let s := { s with fetchNext := (r + 1) % 16 }
  let s := s.wr (RB r) R.HIF_RSTAT_SQHEAD ((slot + 1) % (s.ring r).depth)
  let s := s.wr (RB r) R.HIF_RNEXT_ISSUE (issue + 1)
  let st := s.submission c (getBits (d.getD 0 0) 16 16)
  let h := c.handle
  let cut := !(s.enders 3 h).isEmpty || (c.op == 5 && !(s.enders 6 h).isEmpty)
  let safe := s.mode == MODE_SAFE || (s.ring r).safeLeft != 0
  let s := s.modRing r fun x => { x with safeLeft := x.safeLeft - 1 }
  let s := s.gate (c.op != 5) fun s => forAll (s.enders 6 h) (fun t s => s.cmdEnd t ST_NOTFOUND) s
  let s := { s with cmds := s.cmds ++ [c] }
  let s := s.gate (decide (1 ≤ s.throttle)) (·.cmdFlag h CF_THROTTLED)
  if st != 0 then s.cmdEnd h st
  else if safe then s.cmdEnd h ST_SAFE
  else if cut then s.cmdEnd h ST_ABORTED
  else s

/-- DESCRIPTOR_FETCH (R249): the arbiter's ring fetches the sixteen words `d`. Nothing is fetched while requests are paused. -/
def execDescriptorFetch (d : List Word) (s : State) : Host.Outcome State Fault Refusal :=
  run s fun s =>
    if s.paused || s.fetchStopped then s
    else match s.fetchRing with
      | some r => s.fetch r d
      | none => s

/-! ## When a command starts (R29, R251, R256, R357) -/

/-- A small step slews on a group of the command, whose start waits for its end (R63). -/
def State.slewWaits (s : State) (c : Cmd) : Bool := (s.groupsOf c.sites).any fun g => s.slewOn g

/-- The commands of the same ring fetched before c and not yet posted. -/
def State.earlier (s : State) (c : Cmd) : List Cmd :=
  (s.cmds.takeWhile fun x => x.handle != c.handle).filter fun x => x.ring == c.ring && !x.lost

/-- The command has completed: it waits only for its completion to be written. -/
def State.finished (s : State) (c : Cmd) : Bool := (s.ring c.ring).waiting.contains c.handle

/-- The ring has an entry in the route queue of group g. -/
def State.ringQueued (s : State) (g r : Nat) : Bool := (s.grp g).queue.any fun e => ringOf e.handle == r

/-- The command may start as far as its ring goes: FENCE, and ring order on shared groups. -/
def State.ringLets (s : State) (c : Cmd) : Bool :=
  let gs := s.groupsOf c.sites
  c.phase == .waiting && s.ringUp c.ring
    && (!bitOf c.flags 0 || (s.earlier c).all fun x => s.finished x)
    && (s.earlier c).all (fun x => x.phase != .waiting || (s.groupsOf x.sites).all fun g => !gs.contains g)
    && gs.all fun g => !s.ringQueued g c.ring

/-- EXEC and HOP need ARMED or RUN, and no request that ends test execution pending (R27, R29). -/
def State.testMode (s : State) : Bool :=
  (s.mode == MODE_ARMED || s.mode == MODE_RUN) && !s.fetchStopped

/-- The engines that an EXEC starts on group g: those of its sites that are not down. -/
def State.execEngines (s : State) (c : Cmd) (g : Nat) : List Nat :=
  (s.siteEngines g (groupSites c.sites g)).filter fun e => !s.engDown e

/-- The engines that command c starts on group g can start (R239): the command's start boundary waits for IMGCRC. -/
def State.engsReady (s : State) (c : Cmd) (g : Nat) : Bool :=
  !c.engs || (s.execEngines c g).all fun e =>
    let x := s.eng (s.physEng e)
    x.on && !x.live && !x.crcBusy && x.req.isNone

/-- A small step slews (R63), the throttle holds the EXEC back, or an engine of it still runs, is to start, or has no current IMGCRC
(R239). -/
def State.execWaits (s : State) (c : Cmd) : Bool :=
  s.slewWaits c || decide (3 ≤ s.throttle)
    || (decide (s.throttle = 2) && (s.groupsOf c.sites).any fun g => s.actuates g (groupSites c.sites g))
    || (s.groupsOf c.sites).any fun g => !s.engsReady c g

/-! ## Routes, hops and what blocks them (R88, R89, R267) -/

/-- The ring that holds the route of group g, 16 for the register path; none without a route. -/
def State.routeRing (s : State) (g : Nat) : Option Nat :=
  (s.grp g).route.map fun r => if r.byReg then 16 else ringOf r.holder

/-- The hop instant H0 of a route that has been accepted still lies ahead: its milestone, or the second reference edge (R79). -/
def State.beforeStart (s : State) (r : Route) : Bool :=
  let ahead := (r.dueEpoch + 2 ^ 48 - s.epoch) % 2 ^ 48
  !r.begun && (if r.atMilestone then !r.due else decide (1 ≤ ahead) && decide (ahead ≤ 2))

/-- A route start of c joins the route of group g (R88). -/
def State.joins (s : State) (c : Cmd) (g : Nat) : Bool :=
  match (s.grp g).route with
  | none => false
  | some r => !r.byReg && s.beforeStart r && decide (r.start = getBits (c.arg 0) 0 12) && (r.atMilestone == bitOf c.flags 3)
      && (r.holder :: r.joined).all fun h => ringOf h != c.ring

/-- The µs left to a granted PHASE_HOLD: what `rem` says of its handle, at most its LENGTH. -/
def Hold.left (h : Hold) (rem : List (Word × Word)) : Nat :=
  match rem.find? fun p => p.1.toNat == h.handle with
  | some p => if p.2.toNat ≤ h.length then p.2.toNat else h.length
  | none => h.length

/-- What blocks command c on group g: the ring of each blocker with the µs to its lapse where that is known (R267). A GUARDED
HOLD changes a policy, which a PHASE_HOLD keeps (R265). -/
def State.blockersOn (s : State) (c : Cmd) (rem : List (Word × Word)) (g : Nat) : List (Nat × Option Nat) :=
  let route := match s.routeRing g with
    | some r => if r = c.ring then [] else [(r, none)]
    | none => []
  let phase := (s.holds.filter fun h => h.granted && !h.guarded && h.ring != c.ring && bitOf h.groups g).map fun h =>
    (h.ring, some (h.left rem))
  let guarded := getBits (c.arg 0) 0 1 == 1
  if c.op ≠ 5 then route ++ phase
  else if guarded then route ++ (if s.pingPong g then phase else [])
  else
    route ++ (match s.deadlineHead g with
      | some r => if r = c.ring then [] else [(r, none)]
      | none => [])

/-- What blocks command c on the groups where it has not started. -/
def State.blockers (s : State) (c : Cmd) (rem : List (Word × Word)) : List (Nat × Option Nat) :=
  let open_ (g : Nat) : Bool :=
    c.phase == .waiting || c.op == 5 || (s.grp g).queue.any fun e => e.handle == c.handle
  if c.op = 2 ∨ c.op = 5 ∨ (c.op = 1 ∧ c.rte = true) then
    ((s.groupsOf c.sites).filter open_).flatMap fun g => s.blockersOn c rem g
  else []

/-- The ring that DETAIL names: the holder whose guarantee lapses last; without a known instant, or at the same one, the
lowest ring. -/
def blockName (l : List (Nat × Option Nat)) : Nat :=
  let low (l : List (Nat × Option Nat)) : Nat := l.foldl (fun m x => if x.1 < m then x.1 else m) 31
  match l.filter fun x => x.2.isNone with
  | [] =>
    let last := l.foldl (fun m x => if m < x.2.getD 0 then x.2.getD 0 else m) 0
    low (l.filter fun x => x.2 == some last)
  | u => low u

/-- Every blocker's lapse is known, and the latest lies after the deadline, `left` µs from now. -/
def blockedAtOnce (l : List (Nat × Option Nat)) (left : Nat) : Bool :=
  l.all (fun x => x.2.isSome) && l.any fun x => decide (left < x.2.getD 0)

/-- The command completes BLOCKED. -/
def State.blocked (s : State) (h : Nat) (l : List (Nat × Option Nat)) : State :=
  ((s.cmdFlag h CF_BLOCKED).modCmd h fun c => { c with detail := blockName l }).cmdOver h ST_BLOCKED

/-- A command that has been tried and still waits behind another ring carries BLOCKED, and completes at once when its deadline
cannot be met. -/
def State.noteBlocked (s : State) (h left : Nat) (rem : List (Word × Word)) : State :=
  match s.cmd? h with
  | none => s
  | some c =>
    let l := s.blockers c rem
    if l.isEmpty ∨ c.phase = .done then s
    else if c.deadline ≠ 0 ∧ blockedAtOnce l (if left ≤ c.deadline then left else c.deadline) = true then s.blocked h l
    else s.cmdFlag h CF_BLOCKED

/-- The µs to the deadline of command c: what `rem` says of its handle, at most its DEADLINE. -/
def Cmd.left (c : Cmd) (rem : List (Word × Word)) : Nat :=
  match rem.find? fun p => p.1.toNat == c.handle with
  | some p => if p.2.toNat ≤ c.deadline then p.2.toNat else c.deadline
  | none => c.deadline

/-- A guarantee has been granted: the commands that wait are judged against it (R259, R267). -/
def State.noteWaiting (s : State) (rem : List (Word × Word)) : State :=
  forAll (s.cmds.filter fun c => c.phase == .queued) (fun c s => s.noteBlocked c.handle (c.left rem) rem) s

/-! ## EXEC and HOP (R252, R253) -/

/-- The engines of command c on group g are asked to start with the eight argument words, and its step joins the group's
waiting steps (R239, R253). -/
def State.startOn (s : State) (c : Cmd) (g : Nat) : State :=
  let h := c.handle
  let es := if c.engs then (s.execEngines c g).map fun e => s.physEng e else []
  let q : StartReq :=
    { entry := getBits (c.arg 1) 17 10, handle := some h,
      args := (List.range 7).map (fun k => c.arg (2 + k)) ++ [BitVec.ofNat 32 h] }
  let s := forAll es (fun p s => s.modEng p fun x => { x with req := some q }) s
  let s := forAll es (fun p s => s.engAccept p) s
  let s := s.gate c.stp fun s => s.modGrp g fun x =>
    { x with steps := x.steps ++ [{ handle := h, sites := groupSites c.sites g, line0 := getBits (c.arg 1) 0 17 }] }
  s.gate c.engs (·.engPart h g)

/-- The head of the queue starts: the command's engines and step on the group, then its route, which waiting starts of the same
index and instant join (R88); or a single hop whose hop instant is the second reference edge from now. -/
def State.queueServe (s : State) (g : Nat) : State :=
  match (s.grp g).queue with
  | [] => s
  | e :: rest =>
    if !s.queueFree g then s
    else match s.cmd? e.handle with
      | none => s.modGrp g fun x => { x with queue := rest }
      | some c =>
        if e.isRoute && !s.engsReady c g then s
        else
        let ready (x : QEntry) : Bool := match s.cmd? x.handle with
          | some c => s.engsReady c g
          | none => false
        let joins (x : QEntry) : Bool :=
          e.isRoute && x.isRoute && x.start == e.start && x.atMilestone == e.atMilestone && ready x
        let js := (rest.filter joins).map (·.handle)
        let s := s.modGrp g fun x => { x with queue := rest.filter fun x => !joins x }
        let s := forAll (e.handle :: js) (fun h s =>
          s.modCmd h fun c => { c with phase := if c.phase = .queued then .running else c.phase }) s
        if e.isRoute then
          let s := forAll (e.handle :: js) (fun h s => match s.cmd? h with
            | some c => s.startOn c g
            | none => s) s
          s.routeAccept g
            { holder := e.handle, joined := js, start := e.start, atMilestone := e.atMilestone, hoplim := e.hoplim } 2 c.ring
        else
          s.modGrp g fun x =>
            { x with hop := some { src := .cmd e.handle, index := e.start, staged := e.staged,
                                   dueEpoch := (s.epoch + 2) % 2 ^ 48 } }

/-- ROUTE_QUEUE_SERVE (R89). -/
def execRouteQueueServe (g : Fin 16) (s : State) : Host.Outcome State Fault Refusal := run s fun s => s.queueServe g

/-- An entry is put in the route queue of group g and served at once when nothing holds it. -/
def State.enqueue (s : State) (g : Nat) (e : QEntry) : State :=
  (s.modGrp g fun x => { x with queue := x.queue ++ [e] }).queueServe g

/-- The parts that hold up command c on its groups: bit 3g + p. -/
def partsOf (gs : List Nat) (ps : List Nat) : Nat :=
  gs.foldl (fun m g => ps.foldl (fun m p => setBit m (partBit g p) true) m) 0

/-- Command c starts with the given parts; with none it is over. -/
def State.cmdStart (s : State) (c : Cmd) (ps : List Nat) (queued : Bool) : State :=
  let left := partsOf (s.groupsOf c.sites) ps
  s.modCmd c.handle fun x => { x with groupsLeft := left, phase := if left = 0 then .done else if queued then .queued else .running }

/-- EXEC starts (R253): on each group its engines, its step and its route, which joins, or takes its place in the queue. -/
def State.exec1 (s : State) (c : Cmd) : State :=
  let h := c.handle
  let gs := s.groupsOf c.sites
  let ps := (if c.rte then [0] else []) ++ (if c.stp then [1] else []) ++ (if c.engs then [2] else [])
  let s := s.cmdStart c ps c.rte
  forAll gs (fun g s =>
    if !c.rte then s.startOn c g
    else if s.joins c g then
      let s := s.modRoute g fun r => { r with joined := r.joined ++ [h] }
      let s := s.modCmd h fun x => { x with phase := if x.phase = .queued then .running else x.phase }
      s.startOn c g
    else
      s.enqueue g { handle := h, isRoute := true, start := getBits (c.arg 0) 0 12, atMilestone := bitOf c.flags 3,
                    hoplim := getBits (c.arg 0) 12 16 }) s

/-- The command of handle h that waits with opcode `op`, as far as its ring lets it start. -/
def State.startable (s : State) (h op : Nat) : Option Cmd :=
  (s.cmd? h).filter fun c => c.op == op && s.ringLets c

/-- A command of a group that is down completes FAULT (R338). -/
def State.anyDown (s : State) (c : Cmd) : Bool := (s.groupsOf c.sites).any fun g => s.grpDown g

/-- CMD_NOP (R252): the command of handle h. -/
def execCmdNop (h : Word) (s : State) : Host.Outcome State Fault Refusal :=
  run s fun s => match s.startable h.toNat 0 with
    | some _ => s.cmdEnd h.toNat 0
    | none => s

/-- EXEC: the command of handle h; `left`: µs to its deadline; `rem`: µs left to the PHASE_HOLDs, and to the deadlines of the
commands that wait, by handle. -/
def execExec (h left : Word) (rem : List (Word × Word)) (s : State) : Host.Outcome State Fault Refusal :=
  run s fun s => match s.startable h.toNat 1 with
    | none => s
    | some c =>
      if !s.testMode || s.execWaits c then s
      else if s.anyDown c then s.cmdEnd h.toNat ST_FAULT
      else (s.exec1 c).noteBlocked h.toNat left.toNat rem

/-- HOP (R252): an entry in the queue of each group. -/
def execHop (h left : Word) (rem : List (Word × Word)) (s : State) : Host.Outcome State Fault Refusal :=
  run s fun s => match s.startable h.toNat 2 with
    | none => s
    | some c =>
      if !s.testMode || s.slewWaits c then s
      else if s.anyDown c then s.cmdEnd h.toNat ST_FAULT
      else
        let s := s.cmdStart c [0] true
        let e : QEntry := { handle := c.handle, start := getBits (c.arg 0) 0 12, staged := getBits (c.arg 0) 12 1 == 1 }
        (forAll (s.groupsOf c.sites) (fun g s => s.enqueue g e) s).noteBlocked h.toNat left.toNat rem

/-! ## HOLD, RELEASE, CANCEL (R255, R264 to R268) -/

/-- A PHASE_HOLD can be granted on group g. -/
def State.phaseFree (s : State) (x : Hold) (g : Nat) : Bool :=
  let y := s.grp g
  !s.routeOn g && y.hop.isNone && y.swing.isNone && !s.hopping g && !s.stepOn g
    && !s.slewOn g && !(y.queue.any fun e => x.ahead.contains e.handle) && (s.deadlineHead g).isNone

/-- The module writes POL := 0 on each group of a GUARDED guarantee that reads 1, once no route runs on them. -/
def State.guardAsk (s : State) (gs : List Nat) : State :=
  if gs.any fun g => s.routeOn g then s
  else forAll gs (fun g s => s.gate (s.is (GS g) R.GS_POLICY_POL) fun s => (s.wr (GS g) R.GS_POLICY_POL 0).policyWritten g) s

/-- The guarantee that HOLD h asks for is granted when its conditions hold on all its groups in this cycle. -/
def State.tryGrant (s : State) (h : Nat) (rem : List (Word × Word)) : State :=
  match s.holds.find? fun x => x.handle == h && !x.granted with
  | none => s
  | some x =>
    let gs := (List.range 16).filter fun g => bitOf x.groups g
    let s := s.gate x.guarded (·.guardAsk gs)
    let ok := if x.guarded then gs.all fun g => !s.routeOn g && !s.pingPong g else gs.all fun g => s.phaseFree x g
    if !ok then s
    else
      let put (y : Hold) : Hold := if y.handle = h then { y with granted := true } else y
      ({ s with holds := s.holds.map put }.cmdEnd h 0).noteWaiting rem

/-- HOLD: the guarantee is asked for, and granted at once when it can be. -/
def execHold (h left : Word) (rem : List (Word × Word)) (s : State) : Host.Outcome State Fault Refusal :=
  run s fun s => match s.startable h.toNat 5 with
    | none => s
    | some c =>
      let gs := s.groupsOf c.sites
      let guarded := getBits (c.arg 0) 0 1 == 1
      let x : Hold :=
        { handle := c.handle, ring := c.ring, groups := gs.foldl (fun m g => setBit m g true) 0, guarded := guarded,
          length := if guarded then 0 else (c.arg 1).toNat,
          ahead := gs.flatMap fun g => (s.grp g).queue.map (·.handle) }
      let s := { s with holds := s.holds ++ [x] }
      let s := s.modCmd c.handle fun c => { c with phase := .queued }
      (s.tryGrant c.handle rem).noteBlocked h.toNat left.toNat rem

/-- GUARANTEE_GRANT (R264): a HOLD that waits is granted. `rem`: µs left to the PHASE_HOLDs and to the deadlines of the commands
that wait, by handle. -/
def execGuaranteeGrant (h : Word) (s : State) (rem : List (Word × Word) := []) : Host.Outcome State Fault Refusal :=
  run s fun s => s.tryGrant h.toNat rem

/-- PHASE_HOLD_LAPSE (R264): LENGTH µs after the grant. -/
def execPhaseHoldLapse (h : Word) (s : State) : Host.Outcome State Fault Refusal :=
  run s fun s => s.lapse fun x => x.handle == h.toNat && x.granted && !x.guarded

/-- A descriptor of ring r that its doorbell has announced and that has not been fetched has handle t (R250). -/
def State.unfetched (s : State) (r t : Nat) : Bool :=
  let n := (s.ring r).depth
  let head := s.rd (RB r) R.HIF_RSTAT_SQHEAD
  let slot := t / 65536 % 4096
  let k := (slot + n - head) % n
  decide (ringOf t = r) && decide (slot < n) && decide (k < (s.rd (RB r) R.HIF_RNEXT_SQTAIL + n - head) % n)
    && decide (t % 65536 = (s.rd (RB r) R.HIF_RNEXT_ISSUE + k) % 65536)

/-- The command is over as a waiting or executing one ends (R255). -/
def State.cancelOf (s : State) (t : Nat) : State :=
  match s.cmd? t with
  | some x => if x.phase = .done then s else s.cmdAbort t
  | none => s

/-- A granted guarantee has handle t. -/
def State.heldBy (s : State) (t : Nat) : Bool := s.holds.any fun x => x.granted && x.handle == t

/-- CANCEL (R255, R268): a HOLD that can be granted in this cycle is granted first; a command of its own ring that is live ends,
and the CANCEL completes when its completion is posted. -/
def execCancel (h : Word) (s : State) : Host.Outcome State Fault Refusal :=
  run s fun s => match s.startable h.toNat 3 with
    | none => s
    | some c =>
      let t := (c.arg 0).toNat
      let mine := decide (ringOf t = c.ring)
      let s := s.gate mine (·.tryGrant t [])
      if mine && t != c.handle && !s.heldBy t && ((s.cmd? t).isSome || s.unfetched c.ring t) then
        (s.modCmd c.handle fun c => { c with phase := .queued }).cancelOf t
      else s.cmdEnd c.handle ST_NOTFOUND

/-- RELEASE (R255): a granted guarantee of its own ring ends at once; on any other live HOLD of its ring it acts as a CANCEL, and
completes when the HOLD's completion is posted. -/
def execRelease (h : Word) (s : State) : Host.Outcome State Fault Refusal :=
  run s fun s => match s.startable h.toNat 6 with
    | none => s
    | some c =>
      let t := (c.arg 0).toNat
      let live : Bool := match s.cmd? t with | some x => x.op == 5 | none => s.unfetched c.ring t
      if ringOf t ≠ c.ring then s.cmdEnd c.handle ST_NOTFOUND
      else if s.heldBy t then (s.lapse fun x => x.handle == t).cmdEnd c.handle 0
      else if live then (s.modCmd c.handle fun c => { c with phase := .queued }).cancelOf t
      else s.cmdEnd c.handle ST_NOTFOUND

/-- DEADLINE_EXPIRY (R252, R267, R268): DEADLINE µs after the fetch of command h. While it waits behind another ring it
completes BLOCKED; a HOP that completes later is LATE. `rem` as for EXEC; `tie`: the hop completes, or the last blocking
guarantee lapses, in this same cycle, and is taken as in time. -/
def execDeadlineExpiry (h : Word) (s : State) (rem : List (Word × Word) := []) (tie : Bool := false) : Host.Outcome State Fault Refusal :=
  run s fun s => match s.cmd? h.toNat with
    | none => s
    | some c =>
      if c.deadline = 0 ∨ c.phase = .done then s
      else
        let l := s.blockers c rem
        if l.isEmpty || tie then s.modCmd h.toNat fun c => { c with late := decide (c.op = 2) && !tie, expired := true }
        else s.blocked h.toNat l

/-! ## LOAD (R254) -/

/-- The words of an entry of target t of unit u. -/
def State.loadRead (s : State) (t u i : Nat) : List Word :=
  if t = 0 then (s.grp u).wpWords i
  else if t = 1 then [(s.grp u).cbWord i]
  else if t = 2 then s.ratWords u i
  else if t = 3 then (s.grp u).line i
  else if t = 4 then [Tab.get 0 (s.eng (s.physEng u)).prog i]
  else [(s.eng (s.physEng u)).dm i]

/-- One entry is checked and written as its mailbox does it: the refusal's RESULT, or none. An engine's memories are locked
while it runs (R217). -/
def State.loadWrite (s : State) (t u i : Nat) (w : List Word) : Option Nat × State :=
  let a := w.getD 0 0
  let b := w.getD 1 0
  let res (r : Nat) (s' : State) : Option Nat × State := if r = 0 then (none, s') else (some r, s)
  if t = 0 then let r := s.wrWpResult u w; res r (s.rtStore u r (·.setWp i (cleanWp w)))
  else if t = 1 then let r := s.wrCbResult u a; res r (s.rtStore u r (·.setCb i a))
  else if t = 2 then let r := s.wrRatResult u i a b; res r (s.rtStore u r (·.setRat i a b))
  else if t = 3 then let r := s.lineResult u w; res r (s.lineStore u i w)
  else
    let p := s.physEng u
    let x := s.eng p
    let old := if t = 4 then Tab.get 0 x.prog i else x.dm i
    if x.live ∧ old ≠ a then (some Config.loadDetail.toNat, s)
    else if t = 4 then (none, s.setEng p { x with prog := Tab.set 0 x.prog i a, crcBusy := true })
    else (none, s.setEng p (x.setDm i a))

/-- The entries from the host, in order, until the first refusal; `n` entries of `k` words are left in `ws`. -/
def State.loadAll (h t u k : Nat) : Nat → Nat → List Word → State → State
  | 0, _, _, s => s
  | n + 1, i, ws, s =>
    match s.loadWrite t u i (ws.take k) with
    | (none, s) => State.loadAll h t u k n (i + 1) (ws.drop k) s
    | (some r, s) => (s.modCmd h fun c => { c with aux := i, detail := r }).cmdStatus h ST_REFUSED

/-- LOAD: `ws` are the words read from host memory at RBUF. It waits until its unit is switched on (R9). -/
def execLoad (h : Word) (ws : List Word) (s : State) : Host.Outcome State Fault Refusal :=
  run s fun s => match s.startable h.toNat 4 with
    | none => s
    | some c =>
      let on := if c.target ≤ 3 then (s.grp c.unit).on else (s.eng (s.physEng c.unit)).on
      if !on || s.paused || s.slewWaits c then s
      else if c.toHost then
        let words := (List.range c.count).flatMap fun i => s.loadRead c.target c.unit (c.first + i)
        let s := s.send (.mem false c.rbuf words)
        (s.modCmd c.handle fun x => { x with rbytes := c.count * c.entryBytes }).cmdEnd c.handle 0
      else
        (State.loadAll c.handle c.target c.unit (c.entryBytes / 4) c.count c.first ws s).cmdEnd c.handle 0

/-! ## Completions (R257 to R260) -/

/-- STATUS as it is posted: the highest code that applies, EXC among them. -/
def Cmd.finalStatus (c : Cmd) : Nat := if 16 ≤ c.excCode ∧ c.status < ST_EXC then ST_EXC else c.status

/-- DETAIL as it is posted. -/
def Cmd.finalDetail (c : Cmd) : Nat :=
  let st := c.finalStatus
  if st = ST_EXC then c.excCode % 16 else if st = ST_BLOCKED ∨ st = ST_REFUSED then c.detail else 0

/-- FLAGS as they are posted. -/
def Cmd.finalFlags (c : Cmd) (phase : Bool) : Nat :=
  let f := c.cflags % 128
  let f := setBit f CF_FALLBACK (c.fallbacks != 0)
  f + 32768 * b2n phase

/-- The eight words of a completion (R257). -/
def Cmd.completion (c : Cmd) (phase : Bool) (sqhead : Nat) : List Word :=
  [ BitVec.ofNat 32 c.handle,
    BitVec.ofNat 32 (c.finalStatus % 256 + c.finalDetail % 256 * 256 + c.finalFlags phase * 65536),
    BitVec.ofNat 32 (satTo 0xFFFFFFFF (c.energyNj / 1000)), BitVec.ofNat 32 c.aux,
    BitVec.ofNat 32 c.rbuf, BitVec.ofNat 32 (c.rbuf / 2 ^ 32), BitVec.ofNat 32 c.rbytes,
    BitVec.ofNat 32 (satTo 255 c.replays + satTo 255 c.fallbacks * 256 + sqhead * 65536) ]

/-- The CQ of ring r has no free entry. -/
def State.cqFull (s : State) (r : Nat) : Bool :=
  let x := s.ring r
  decide ((s.rd (RB r) R.HIF_RSTAT_CQTAIL + 1) % x.depth = x.cqHead % x.depth)

/-- The oldest completion that waits on ring r is written: the CQ tail advances, PHASE alternates on a wrap, CANCELs and
RELEASEs of the command complete, and the ring's vector may fire. -/
def State.post (s : State) (r : Nat) (c : Cmd) (rest : List Nat) : State :=
  let x := s.ring r
  let tail := s.rd (RB r) R.HIF_RSTAT_CQTAIL
  let h := c.handle
  let s := s.send (.mem false (x.cqBase + 32 * tail) (c.completion x.phase (s.rd (RB r) R.HIF_RSTAT_SQHEAD)))
  let s := s.wr (RB r) R.HIF_RSTAT_CQTAIL ((tail + 1) % x.depth)
  let s := s.setRing r { x with waiting := rest, phase := if tail + 1 = x.depth then !x.phase else x.phase }
  let s := { s with cmds := s.cmds.filter fun y => y.handle != h }
  let s := forAll (s.enders 3 h ++ s.enders 6 h) (fun t s => s.cmdEnd t 0) s
  (s.signal r (bitOf c.flags 2)).ringStopped r

/-- COMPLETION_POST (R257, R269): nothing is posted while requests are paused, the CQ is full, or the ring is not ACTIVE or
STOPPING. -/
def execCompletionPost (r : Fin 16) (s : State) : Host.Outcome State Fault Refusal :=
  run s fun s =>
    if s.paused || !s.ringUp r || s.cqFull r then s
    else match (s.ring r).waiting with
      | [] => s
      | h :: rest => match s.cmd? h with
        | some c => s.post r c rest
        | none => s.modRing r fun x => { x with waiting := rest }

/-- DMA_ERROR_RESPONSE (R247, R258): for none, a descriptor fetch or a completion or event write of ring r; otherwise an access
of command h to its result buffer, or of a LOAD, which ends. -/
def execDmaErrorResponse (r : Fin 17) (h : Option Word) (s : State) : Host.Outcome State Fault Refusal :=
  run s fun s => match h with
    | none => s.ringError r
    | some h => match s.cmd? h.toNat with
      | some c => if c.op = 4 then s.cmdEnd h.toNat ST_DMAERR else s.cmdStatus h.toNat ST_DMAERR
      | none => s

end Sys2Proof.Machine
end

