-- ==== Sys2Proof/Machine/Calib.lean ====
section
/-! DEFINITION. Machine/Calib.lean: the commands of chapter 14: module-wide and rolling calibration, the calibration mailbox,
the calibration store and the trims in force. What is measured is an operand: new codes, residuals, CALV and CALT. Items are
numbered 0 for the precondition of R317, 1 to 11 as in R311, 12 for OD and 13 to 15 for L1 to L3. -/

namespace Sys2Proof.Machine

/-! ## Items (R311, R312) -/

/-- The unit of the outputs of group g; sets, leaves and SYS leaves are numbered as for CAL.CTRL. -/
def odUnit (g : Nat) : Nat := 562 + g

/-- The trim fields of an item of unit u, with the base of each; `o` is the output of item OD. -/
def trimParts (u item o : Nat) : List (Nat × Fld) :=
  let b := CH (unitSet u)
  let l := CAL + 8 * (u - 528)
  let one (f : Fld) : List (Nat × Fld) := [(b, f)]
  let two (k : Nat) (f g : Fld) : List (Nat × Fld) := [(b + 4 * k, f), (b + 4 * k, g)]
  match item with
  | 1 => one R.CH_TR_DRVF_OFS
  | 2 => one R.CH_TR_DRVF_GAIN
  | 3 => one R.CH_TR_DRVA_OFS
  | 4 => one R.CH_TR_DRVA_GAIN
  | 5 => one R.CH_TR_CMP_H
  | 6 => one R.CH_TR_CMP_L
  | 7 => two 0 R.CH_TR_PMUFV_OFS R.CH_TR_PMUFV_GAIN
  | 8 => (List.range 5).flatMap fun r => two r R.CH_TR_PMUMI_OFS R.CH_TR_PMUMI_GAIN
  | 9 => (List.range 2).flatMap fun r => two r R.CH_TR_ADC_OFS R.CH_TR_ADC_GAIN
  | 10 => [(b, R.CH_TR_TIME0_ON), (b, R.CH_TR_TIME0_DATA), (b, R.CH_TR_TIME1_OFF), (b, R.CH_TR_TIME1_STRB)]
  | 11 =>
    if u % 33 = 32 then
      (List.range 32).flatMap (fun k => two k R.CH_SPPATH_DRV R.CH_SPPATH_STRB) ++ one R.CH_TR_APER
    else [(b, R.CH_TR_PATH_DRV), (b, R.CH_TR_PATH_STRB), (b, R.CH_TR_APER)]
  | 12 => [(OUT (u - 562) + 4 * o, R.OUT_ODTRIM)]
  | 13 => [(l, R.CAL_LTRIM0_CPM)]
  | 14 => [(l, R.CAL_LTRIM1)]
  | 15 => [(l, R.CAL_LTRIM0_DBL)]
  | _ => []

/-- The codes of an item are unsigned. -/
def itemUnsigned (item : Nat) : Bool := item == 10 || item == 12 || item == 14

/-- The window of an item's codes. -/
def itemWindow (item : Nat) : Int × Int :=
  if item ≤ 4 then (-1984, 1983) else if item ≤ 6 then (-480, 479) else if item ≤ 9 then (-8000, 7999)
  else if item = 11 then (-30000, 30000) else if item = 10 ∨ item = 12 then (32, 991) else if item = 14 then (64, 4031)
  else (-480, 479)

/-- The change limit of an item in codes; none where R311 gives it in a unit whose step R311 does not state. -/
def changeLimit (item : Nat) : Option Nat :=
  [none, some 400, some 250, some 400, some 250, some 100, some 100, some 200, some 500, none, none, some 500, none, none,
    some 50, some 40].getD item none

/-- The change limit of part j of an item: item 9 has 40 codes for an offset and 200 for a gain. -/
def partLimit (item j : Nat) : Option Nat := if item = 9 then some (if j % 2 = 0 then 40 else 200) else changeLimit item

/-- The code of a field's bits. -/
def codeOf (item width v : Nat) : Int := if itemUnsigned item then (v : Int) else toSigned width v

/-- The larger residual of a part, in millionths of the budget. -/
def CalPart.residual (p : CalPart) : Nat :=
  let a := (toSigned 32 p.2.1.toNat).natAbs
  let b := (toSigned 32 p.2.2.toNat).natAbs
  if a < b then b else a

/-- CQ (R312): 100 times the residual over the budget, rounded up, saturating at 254. -/
def CalPart.cq (p : CalPart) : Nat := satTo 254 ((100 * p.residual + 999999) / 1000000)

/-- The items that a unit has, in order, among those that CAL.ITEMS selects. -/
def unitItems (items u : Nat) : List Nat :=
  if u < 528 then (List.range 12).filter fun i => i != 0 && bitOf items (i - 1)
  else if u < 562 then [13, 14, 15].filter fun i => bitOf items (i - 1)
  else if bitOf items 11 then [12] else []

/-- The place of an item, or of output o of item OD, among a unit's CQs. -/
def cqIndex (item o : Nat) : Nat := if item ≤ 11 then item - 1 else if item = 12 then o else item - 13

/-- CQ of an entry; 255 is not measured. -/
def CalUnit.cqAt (x : CalUnit) (i : Nat) : Nat := x.cq.getD i 255

/-- How many CQs a unit has. -/
def cqCount (u : Nat) : Nat := if u < 528 then 11 else if u < 562 then 3 else 36

/-- Sets one CQ. -/
def CalUnit.setCq (u : Nat) (x : CalUnit) (i v : Nat) : CalUnit :=
  { x with cq := (List.range (cqCount u)).map fun j => if j = i then v else x.cqAt j }

/-- The CQ summary of a set or leaf: the largest CQ of its items (R312). -/
def CalUnit.summary (u : Nat) (x : CalUnit) : Nat :=
  (List.range (cqCount u)).foldl (fun m i => if m < x.cqAt i then x.cqAt i else m) 0

/-- CAL.STAT.CQMOD: the largest summary over every set and leaf that holds accepted values. -/
def State.cqMod (s : State) : State :=
  let l := s.cal.units.filter fun e => e.2.accepted && decide (e.1 < 562)
  s.wr CAL R.CAL_STAT_CQMOD (l.foldl (fun m e => if m < e.2.summary e.1 then e.2.summary e.1 else m) 0)

/-! ## Reference checks (R313) -/

/-- CAL.VDECL is accepted and the measured CALV (µV) lies within ±0.5 % of it. -/
def State.calvOk (s : State) (calv : Nat) : Bool :=
  let d := s.rd CAL R.CAL_VDECL
  decide (1000000 ≤ d) && decide (d ≤ 10500000) && decide (((calv : Int) - d).natAbs * 200 ≤ d)

/-- f_REF / TDIV is accepted and the measured CALT lies within ±1,000 ppm of it. -/
def State.caltOk (s : State) (ppm : Int) : Bool :=
  let t := if s.rd CAL R.CAL_TCFG = 0 then 1 else s.rd CAL R.CAL_TCFG
  decide (1000 * t ≤ s.refHz) && decide (s.refHz ≤ 100000000 * t) && decide (ppm.natAbs ≤ 1000)

/-! ## Accepting an item (R315) -/

/-- The word of a trim register with the run's values that its unit has not yet taken. -/
def State.freshWord (s : State) (a : Nat) : Word := Tab.get (s.word a) s.cal.fresh a

/-- The first check that an item's measurement fails, or 0. `moved`: a code moved by more than the change limit, for the items
whose limit is not given in codes. -/
def State.itemCause (s : State) (u item o : Nat) (coast moved : Bool) (parts : List CalPart) : Nat :=
  let fs := (trimParts u item o).zip parts
  let code (p : CalPart) : Int := toSigned 16 p.1.toNat
  let w := itemWindow item
  let out := fs.any fun e => decide (code e.2 < w.1) || decide (w.2 < code e.2)
  let noisy := fs.any fun e => decide (250000 < (toSigned 32 e.2.2.1.toNat - toSigned 32 e.2.2.2.toNat).natAbs)
  let far := (fs.zipIdx).any fun e => match partLimit item e.2 with
    | some n =>
      let f := e.1.1.2
      let old := Tab.get (resetWord s.variant (e.1.1.1 + f.off)) s.trims (e.1.1.1 + f.off)
      decide (n < (code e.1.2 - codeOf item f.width (getBits old f.lsb f.width)).natAbs)
    | none => moved
  let change := !s.is CAL R.CAL_CFG_NOCHG && (s.calUnit u).accepted && far
  let lost := coast && decide (10 ≤ item)
  firstOf [(decide (fs.length < (trimParts u item o).length) || out, 1), (noisy, 2),
    (parts.any fun p => decide (100 < p.cq), 3), (change, 4), (lost, 5)]

/-- The unit that a rejection names: the outputs of a group report through leaf A of the group. -/
def reportUnit (u : Nat) : Nat := if u < 562 then u else 528 + 2 * (u - 562)

/-- A rejection or a failed precondition is reported: its counter and EV(12g + 8); a SYS leaf has no group event (R315, R317). -/
def State.calReject (s : State) (u status cause : Nat) : State :=
  let s := if status = 1 then s.inc CAL R.CAL_PRECONDS else s.inc CAL R.CAL_REJECTS
  let g := unitGroup u
  s.gate (decide (g < 16)) (·.graise g 8 (reportUnit u + status * 2 ^ 11 + cause * 2 ^ 15))

/-- Results of a unit in work: those it had, until its first item. -/
def State.workUnit (s : State) (u : Nat) : CalUnit :=
  Tab.get { s.calUnit u with rej := 0, cause := 0, status := 0 } s.cal.work u

/-- An item of unit u is measured: the new values wait for the end of the unit, or it is rejected and keeps its old ones. -/
def State.takeItem (s : State) (u item o : Nat) (coast moved : Bool) (parts : List CalPart) : State :=
  let x := s.workUnit u
  let cause := s.itemCause u item o coast moved parts
  let keep (x : CalUnit) (s : State) : State := s.modCal fun c => { c with work := Tab.set {} c.work u x }
  if cause ≠ 0 then
    let x := { x with status := 2, rej := setBit x.rej (item - 1) true, cause := if x.rej = 0 then cause else x.cause }
    (keep x s).calReject u 2 cause
  else
    let s := forAll ((trimParts u item o).zip parts) (fun e s =>
      let a := e.1.1 + e.1.2.off
      let w := putBits (s.freshWord a) e.1.2.lsb e.1.2.width (ofSigned 16 (toSigned 16 e.2.1.toNat))
      s.modCal fun c => { c with fresh := Tab.set (s.word a) c.fresh a w }) s
    let cq := parts.foldl (fun m p => if m < p.cq then p.cq else m) 0
    keep { CalUnit.setCq u x (cqIndex item o) cq with accepted := true } s

/-- The trim registers of a unit: first address and bytes. -/
def unitTrims (u : Nat) : Nat × Nat :=
  if u < 528 then (CH (unitSet u) + 0x200, 0x100) else if u < 562 then (CAL + 0x400 + 8 * (u - 528), 8)
  else (OUT (u - 562) + 0x600, 0x90)

/-- A trim register takes a word, in the register and in the calibration store. -/
def State.putTrim (s : State) (a : Nat) (w : Word) : State :=
  let s := s.setWord a w
  { s with store := Tab.set (resetWord s.variant a) s.store a w }

/-- Unit u has finished: its accepted values go into its trims and the calibration store, and its results stand with the
group's temperature. Sets take them into force, and leaves, which drive nothing then (R318, R319). -/
def State.calFinish (s : State) (u : Nat) : State :=
  let g := unitGroup u
  let (lo, n) := unitTrims u
  let x := { s.workUnit u with temp := ofSigned 8 (s.groupTempC g) }
  let mine (e : Nat × Word) : Bool := decide (lo ≤ e.1) && decide (e.1 < lo + n)
  let ws := s.cal.fresh.filter mine
  let s := forAll ws (fun e s => s.putTrim e.1 e.2) s
  let moved := !ws.isEmpty
  let s := s.modCal fun c =>
    { c with fresh := c.fresh.filter fun e => !mine e, work := c.work.clearRange u 1, gcal := Tab.set 0 c.gcal g u,
             todo := c.todo.filter (· != u), changed := c.changed || moved,
             changedG := if moved && decide (528 ≤ u) then setBit c.changedG g true else c.changedG }
  let s := s.setCalUnit u x
  (s.gate (decide (u < 562)) (·.trimsOn lo n)).cqMod

/-! ## Module-wide calibration (R321 to R324) -/

/-- Unit u cannot be measured: down, retired, or its group is down. -/
def State.unitGone (s : State) (u : Nat) : Bool :=
  let g := unitGroup u
  if u < 528 then
    let k := u % 33
    if k = 32 then s.is (SPM g) R.FLT_SPMAP_SPRET
    else s.chDown (unitSet u) || (s.is (SPM g) R.FLT_SPMAP_SERVES && s.rd (SPM g) R.FLT_SPMAP_CH == k)
  else if u < 562 then s.leafRetired (u - 528)
  else s.grpDown g

/-- The units that a run of GROUPS and ITEMS measures, in the order of R322: every set has its precondition measured, whatever the
items; units that are down, retired or off are left out, and a leaf whose partner cannot take its place. -/
def State.runUnits (s : State) (items groups : Nat) : List Nat :=
  let pair (a b : Nat) : List Nat :=
    if items / 2 ^ 12 % 8 ≠ 0 ∧ (s.leaf a).on ∧ (s.leaf b).on then [528 + a, 528 + b] else []
  let sys := pair s.sysIdle s.sysAct
  let grp (g : Nat) : List Nat :=
    pair (s.idleLeaf g) (s.actLeaf g) ++ (if bitOf items 11 then [odUnit g] else [])
      ++ ((List.range 33).map (33 * g + ·)).filter fun u => !s.unitGone u
  sys ++ ((List.range s.variant.groups).filter fun g => bitOf groups g).flatMap grp

/-- What R321 asks for beside the references. -/
def State.calReady (s : State) : Bool :=
  let gs := (List.range s.variant.groups).filter fun g => bitOf (s.rd CAL R.CAL_CFG_GROUPS) g
  s.ref.qualified && !s.is CAL R.CAL_STAT_ROLLACT && s.cal.storing.isNone && s.flt.store.isNone && s.prot.store.isNone
    && !s.prot.storeNext && s.rd CAL R.CAL_ITEMS_SETS + s.rd CAL R.CAL_ITEMS_OD + s.rd CAL R.CAL_ITEMS_LEAF != 0 && !gs.isEmpty
    && gs.all fun g => s.lockedServing g

/-- The run starts: CALIBRATE, its groups' units powered, each leaf pair as under GUARDED. -/
def State.calBegin (s : State) : State :=
  let items := s.rd CAL R.CAL_ITEMS_SETS + 2048 * s.rd CAL R.CAL_ITEMS_OD + 4096 * s.rd CAL R.CAL_ITEMS_LEAF
  let groups := s.rd CAL R.CAL_CFG_GROUPS
  let s := s.repower fun s => (s.setMode MODE_CALIBRATE).modCal fun c =>
    { c with run := true, items := items, groups := groups, reached := [], work := [], fresh := [], changed := false,
             changedG := 0,
             runWords := [s.word (CAL + R.CAL_VDECL.off), BitVec.ofNat 32 (s.rd CAL R.CAL_TCFG),
               s.word (CAL + R.CAL_TSKEW.off), s.word SYS, BitVec.ofNat 32 items,
               BitVec.ofNat 32 (groups + s.rd CAL R.CAL_CFG_PLATE * 65536)] }
  let s := s.modCal fun c => { c with todo := s.runUnits items groups }
  forAll ((List.range s.variant.groups).filter fun g => bitOf groups g) (fun g s =>
    let s := s.wr (GS g) R.GS_SWSTAT_POLIF 0
    (s.policyWritten g).joinIfIdle g) s

/-- The unit that is under calibration in a group (16 for SYS): the first of its units that has not finished. -/
def State.calCurrent (s : State) (g : Nat) : Option Nat := s.cal.todo.find? fun u => unitGroup u == g && !s.unitGone u

/-- A set of group g still waits for its precondition. -/
def State.precondLeft (s : State) (g : Nat) : Bool :=
  s.cal.todo.any fun u => decide (u < 528) && unitGroup u == g && !s.unitGone u && Tab.get 0 s.cal.reached u == 0

/-- The item, or the output, that unit u measures next. -/
def State.nextItem (s : State) (u : Nat) : Option (Nat × Nat) :=
  let at_ := Tab.get 0 s.cal.reached u
  if u < 528 ∧ at_ = 0 then some (0, 0)
  else if 562 ≤ u then ((List.range 36).find? fun o => decide (at_ ≤ o) && s.outExists o).map fun o => (12, o)
  else ((unitItems s.cal.items u).find? fun i => decide (at_ ≤ i)).map fun i => (i, 0)

/-- The measurement is the one that the run waits for: SYS before the groups, a group's preconditions before its units, and
a unit's items in order; a leaf waits for the swing before it. -/
def State.calDue (s : State) (u item o : Nat) : Bool :=
  let g := unitGroup u
  s.cal.run && s.cal.todo.contains u && s.nextItem u == some (item, o)
    && (g == 16 || (s.calCurrent 16).isNone)
    && (item == 0 || (s.calCurrent g == some u && (g == 16 || (!s.precondLeft g && (s.grp g).swing.isNone))))

/-- A leaf has finished as the idle one: the tree that it may now drive swings to it, and the other leaf follows (R322). -/
def State.calSwing (s : State) (u : Nat) : State :=
  let n := u - 528
  let g := unitGroup u
  if u < 528 ∨ 562 ≤ u ∨ s.calCurrent g = none ∨ s.lst n ≠ L_LOCKED then s
  else if g = 16 then (if n = s.sysIdle ∧ s.cal.todo.contains (528 + s.sysAct) then s.clkSwing (n - 32) else s)
  else if n = s.idleLeaf g ∧ s.cal.todo.contains (528 + s.actLeaf g) then s.treeSwing g .forced else s

/-- CAL_ITEM_MEASURED (R315, R317, R322): a set of which no item is selected keeps its values and its status. Item `item` of unit u (an output o of unit 562 + g for item OD). `pass`: the
precondition holds; `coast`: COAST, or EPSYS for a SYS leaf, read 1 at some time of the measurement. -/
def State.calItem (s : State) (u item o : Nat) (pass coast moved : Bool) (parts : List CalPart) : State :=
  if !s.calDue u item o then s
  else
    let s := s.modCal fun c => { c with reached := Tab.set 0 c.reached u ((if item = 12 then o else item) + 1) }
    if item = 0 ∧ pass = false then
      let s := (s.setCalUnit u { s.calUnit u with status := 1, cause := 0, rej := 0 }).calReject u 1 0
      s.modCal fun c => { c with todo := c.todo.filter (· != u) }
    else
      let s := if item = 0 then s else s.takeItem u item o coast moved parts
      if (s.nextItem u).isSome then s
      else if item = 0 then s.modCal fun c => { c with todo := c.todo.filter (· != u) }
      else (s.calFinish u).calSwing u

def execCalItemMeasured (u : Fin 578) (item : Fin 16) (o : Fin 36) (pass coast moved : Bool) (parts : List CalPart)
    (s : State) : Host.Outcome State Fault Refusal :=
  run s fun s => s.calItem u item o pass coast moved parts

/-! ## The calibration store (R328 to R332) -/

/-- The newest valid slot: B when true, with its contents (R331). -/
def Die.calNewest (d : Die) : Option (Bool × CalSlot) :=
  let gen (x : CalSlot) : Nat := (x.words.getD 0 0).toNat
  match d.calA, d.calB with
  | some a, some b => if gen a < gen b then some (true, b) else some (false, a)
  | some a, none => some (false, a)
  | none, some b => some (true, b)
  | none, none => none

/-- The calibration record of a store made now (R332). -/
def State.calRecord (s : State) : List Word :=
  let old := s.reco.die.calNewest
  let w (k : Nat) : Word := match old with | some x => x.2.words.getD k 0 | none => 0
  let r := s.reco
  let n (v : Nat) : Word := BitVec.ofNat 32 v
  let own := s.cal.ranBoot
  let v (k j : Nat) : Word := if own then s.cal.runWords.getD j 0 else w k
  [ w 0 + 1, v 1 0, v 2 1, v 3 2, v 4 3,
    n (r.count % 2 ^ 24 + r.opsec / 2 ^ 32 % 256 * 2 ^ 24), n r.opsec, n r.hostEpoch, n (r.hostEpoch / 2 ^ 32),
    n (s.rd PROT R.PROT_STATE_PSTATE + 4 * b2n s.cal.hostEdit),
    (if own then n (s.rd CAL R.CAL_STAT_LASTRUN + (r.opsec - s.cal.runSec) * 256) else w 10),
    n (s.rd CAL R.CAL_STAT_CQMOD), v 12 4, v 13 5, 0, 0 ]

/-- A store is accepted: the calibration store is copied, and the slot that does not hold the newest valid generation is to be
erased and written. -/
def State.calStore (s : State) : State :=
  let old := s.reco.die.calNewest
  let b := match old with | some (b, _) => !b | none => false
  let c : CalSlot :=
    { words := s.calRecord, trims := s.store, units := s.cal.units, factory := match old with | some x => x.2.factory | none => [] }
  let s := s.modCal fun x => { x with storing := some b, copy := c }
  (s.wr CAL R.CAL_STAT_STOREBUSY 1).eraseStart (.calSlot b)

/-- CAL_STORE_END (R329): after its erase the slot is programmed, marked and read back; `ok` false is a mismatch. -/
def execCalStoreEnd (ok : Bool) (s : State) : Host.Outcome State Fault Refusal :=
  run s fun s => match s.cal.storing with
    | none => s
    | some b =>
      if s.reco.erase = some (.calSlot b) ∨ s.reco.eraseQ.contains (.calSlot b) then s
      else
        let c := s.cal.copy
        let s := s.modCal fun x => { x with storing := none, copy := {} }
        let s := s.modReco fun r =>
          { r with die := if !ok then r.die.calCut b
                          else if b then { r.die with calB := some c } else { r.die with calA := some c } }
        let s := s.gate ok (·.wr CAL R.CAL_SLOT_ACT (b2n b))
        (s.calStored (if ok then 1 else 3)).downGo

/-- The exit from CALIBRATE for ARMED (R323): restarts of kind 5, LASTRUN, RUNS, EV216, each group's POL, and AUTOSTORE. -/
def State.calExit (s : State) (last : Nat) : State :=
  let gs := (List.range s.variant.groups).filter fun g => bitOf s.cal.groups g
  let again := s.cal.changedG
  let s := s.repower fun s => (s.calOver last).setMode MODE_ARMED
  let s := forAll (gs.filter fun g => bitOf again g && s.anyServing g) (fun g s => s.restart g 5 false (s.vcoPerRef g)) s
  let s := forAll gs (fun g s =>
    let whole := !s.leafRetired (2 * g) && !s.leafRetired (2 * g + 1)
    let s := s.wr (GS g) R.GS_SWSTAT_POLIF (if whole then s.rd (GS g) R.GS_POLICY_POL else 0)
    s.policyWritten g) s
  s.gate (s.is CAL R.CAL_CFG_AUTOSTORE && s.cal.changed && !s.sealed && s.cal.storing.isNone) (·.calStore)

/-- CALIBRATION_RUN_END (R323). -/
def execCalibrationRunEnd (s : State) : Host.Outcome State Fault Refusal :=
  run s fun s => s.gate (s.cal.run && s.mode == MODE_CALIBRATE && s.cal.todo.all fun u => s.unitGone u) (·.calExit 1)

/-! ## The mailbox (R285, R329) -/

/-- A CAL.CTRL operation is taken. -/
def State.calCtrl (s : State) (src : Src) (op index : Nat) (f : State → State) : State :=
  s.goReq src CAL R.CAL_CTRL_GO [(R.CAL_CTRL_OP, op), (R.CAL_CTRL_INDEX, index)] fun s => f (s.wr CAL R.CAL_CTRL_VALID 0)

/-- Q0 to Q3 of READ for unit u. A rejected OD shows in both leaves of its group. -/
def State.calWords (s : State) (u : Nat) : List Word :=
  let x := s.calUnit u
  let rej := x.rej + (if 528 ≤ u ∧ u < 560 ∧ (s.calUnit (odUnit ((u - 528) / 2))).rej ≠ 0 then 2048 else 0)
  let st := if !x.accepted && x.status == 0 then 5 else x.status
  let n := cqCount u
  let cq (i : Nat) : Nat := if i < n then x.cqAt i else 0
  [ BitVec.ofNat 32 (st + x.cause * 16 + x.summary u * 256 + rej * 65536), byte4 (cq 0) (cq 1) (cq 2) (cq 3),
    byte4 (cq 4) (cq 5) (cq 6) (cq 7), byte4 (cq 8) (cq 9) (cq 10) x.temp ]

/-- CAL_READ: an INDEX above 561 gives ILLEGAL. -/
def execCalRead (src : Src) (index : BitVec 10) (s : State) : Host.Outcome State Fault Refusal :=
  run s fun s => s.calCtrl src 0 index.toNat fun s =>
    if 561 < index.toNat then s.hold CAL R.CAL_CTRL_GO 0 1 [] else s.hold CAL R.CAL_CTRL_GO 0 0 (s.calWords index.toNat)

/-- CAL_RECORD: four words of the active slot's record; an INDEX above 3 gives ILLEGAL. -/
def execCalRecord (src : Src) (index : BitVec 10) (s : State) : Host.Outcome State Fault Refusal :=
  run s fun s => s.calCtrl src 1 index.toNat fun s =>
    let slot := if s.is CAL R.CAL_SLOT_ACT then s.reco.die.calB else s.reco.die.calA
    let w (k : Nat) : Word := match slot with | some x => x.words.getD k 0 | none => 0
    let i := index.toNat
    if 3 < i then s.hold CAL R.CAL_CTRL_GO 1 1 []
    else s.hold CAL R.CAL_CTRL_GO 1 0 [w (4 * i), w (4 * i + 1), w (4 * i + 2), w (4 * i + 3)]

/-- CAL_STORE (R329, R443): accepted, or refused with MODE, BUSY or SEALED. -/
def execCalStore (src : Src) (index : BitVec 10) (s : State) : Host.Outcome State Fault Refusal :=
  run s fun s => s.calCtrl src 2 index.toNat fun s =>
    let res := firstOf [(s.mode == MODE_BOOT || s.mode == MODE_SAFE, 4), (s.cal.storing.isSome || s.cal.run, 2), (s.sealed, 3)]
    (s.gate (res == 0) (·.calStore)).hold CAL R.CAL_CTRL_GO 2 res []

/-- CAL_CHECKREF (R313): `calv` in µV, `ppm` signed. -/
def execCalCheckref (src : Src) (index : BitVec 10) (calv ppm : Word) (s : State) : Host.Outcome State Fault Refusal :=
  run s fun s => s.calCtrl src 3 index.toNat fun s =>
    let v := s.calvOk calv.toNat
    s.hold CAL R.CAL_CTRL_GO 3 0 [calv, ppm, BitVec.ofNat 32 (b2n v + 2 * b2n (s.caltOk (toSigned 32 ppm.toNat)))] (b2n v)

/-- CAL_RESERVED_OP: OP 4 to 7. -/
def execCalReservedOp (src : Src) (index : BitVec 10) (op : Fin 4) (s : State) : Host.Outcome State Fault Refusal :=
  run s fun s => s.calCtrl src (4 + op) index.toNat fun s => s.hold CAL R.CAL_CTRL_GO (4 + op) 1 []

/-- CAL_CTRL_COMPLETE (R285). CHECKREF leaves its outcome in REFOK. -/
def execCalCtrlComplete (s : State) : Host.Outcome State Fault Refusal :=
  run s fun s =>
    let x := s.box (CAL + R.CAL_CTRL_GO.off)
    s.gate x.busy fun s =>
      let s := s.gate (x.op == 3) (·.wr CAL R.CAL_STAT_REFOK x.aux)
      s.postBox CAL R.CAL_CTRL_RESULT R.CAL_CTRL_GO R.CAL_CTRL_VALID R.CAL_Q0 x

/-! ## Rolling calibration (R325 to R327) -/

/-- Channel k of group g may be calibrated: a powered set of an enabled site, mode not OFF, not retired or faulted. -/
def State.rollable (s : State) (g k : Nat) : Bool :=
  let x := s.grp g
  let c := 32 * g + k
  (match x.siteOf k with | some i => x.siteEn i | none => false) && bitOf (s.setsOn g) k && s.infF c R.CH_CMODE_MODE != 0
    && (s.chan c).cause == 0 && !(s.chan c).iso && (s.chan c).swing.isNone

/-- The next channel in ascending order after the last one, going round. -/
def State.rollNext (s : State) (g : Nat) : Option Nat :=
  let l := (s.roll g).last
  match (List.range 32).find? fun k => decide (l < k ∨ l = 32) && s.rollable g k with
  | some k => some k
  | none => (List.range 32).find? fun k => s.rollable g k

/-- ROLLING_CAL_START: PERIOD has passed; `calv` is the CALV measured in µV. Suspended while the spare serves. -/
def execRollingCalStart (g : Fin 16) (calv : Word) (s : State) : Host.Outcome State Fault Refusal :=
  run s fun s =>
    let en := bitOf (s.rd CAL R.CAL_ROLL_EN) g && (s.mode == MODE_ARMED || s.mode == MODE_RUN)
    if !(en && (s.roll g).step == 0 && s.spareFree g) then s
    else match s.rollNext g with
      | none => s
      | some k =>
        if !s.calvOk calv.toNat then (s.wr CAL R.CAL_STAT_REFOK 0).raise 218 (1 + g * 16 + 256)
        else
          let s := s.wr CAL R.CAL_STAT_REFOK 1
          (s.setRoll g { step := 1, ch := k, last := k }).toSpare g k

/-- The items are measured in order; under throttle T2 items 3 and 4 are left out and the set reports NOTRUN. -/
def State.rollItems (s : State) (u : Nat) (coast : Bool) (items : List RollItem) : State :=
  let sel := (unitItems (s.rd CAL R.CAL_ITEMS_SETS) u).filter (· ≤ 10)
  let t2 := decide (2 ≤ s.throttle)
  let s := forAll sel (fun i s =>
    if t2 && (i == 3 || i == 4) then s
    else match items.find? fun e => e.1.val == i with
      | some e => s.takeItem u i 0 coast e.2.1 e.2.2
      | none => s) s
  if t2 && (sel.contains 3 || sel.contains 4) && (s.workUnit u).rej == 0 then
    s.modCal fun c => { c with work := Tab.set {} c.work u { s.workUnit u with status := 4 } }
  else s

/-- ROLLING_CAL_ITEMS_DONE: the set leaves the calibration bus with its accepted trims in force and waits to take its pin
back. A set that fails its precondition reports PRECOND, and its isolation switch is in doubt (R327, R334). -/
def execRollingCalItemsDone (g : Fin 16) (pass coast : Bool) (items : List RollItem) (ms : Fin 1000) (s : State) :
    Host.Outcome State Fault Refusal :=
  run s fun s =>
    let r := s.roll g
    let u := 33 * g.val + r.ch
    let c := 32 * g.val + r.ch
    if r.step ≠ 2 then s
    else if pass = false then
      let s := (s.setCalUnit u { s.calUnit u with status := 1, cause := 0, rej := 0 }).calReject u 1 0
      s.setFault c FC_ISOL (s.opMs ms)
    else
      let s := (s.rollItems u coast items).calFinish u
      let s := s.modChan c fun x => { x with cal := false, swing := some false }
      s.setRoll g { r with step := 3 }

/-! ## Trims in force (R318 to R320) -/

/-- Unit u is under calibration: its trims cannot be written (R320). -/
def State.underCal (s : State) (u : Nat) : Bool :=
  (s.cal.run && s.calCurrent (unitGroup u) == some u)
    || (decide (u < 528) && (s.roll (u / 33)).step != 0 && (s.roll (u / 33)).ch == u % 33)

/-- A written trim of `[lo, lo + n)` is not yet in force. -/
def State.trimPend (s : State) (lo n : Nat) : Bool :=
  (s.regs ++ s.trims).any fun e => decide (lo ≤ e.1) && decide (e.1 < lo + n) && match rowOf e.1 with
    | some r => decide (r.slot ≠ 0) &&
        decide ((s.word e.1 ^^^ Tab.get (resetWord s.variant e.1) s.trims e.1) &&& BitVec.ofNat 32 r.slot ≠ 0)
    | none => false

/-- The unit whose trims the register at `a` holds, with the items in it. -/
def trimUnit (a : Nat) : Option (Nat × List Nat) :=
  match blkAt a with
  | some (.ch c) =>
    let o := reduceOff (.ch c) a
    if 0x280 ≤ o then some (setUnit c, [11])
    else if 0x210 ≤ o ∧ o < 0x224 then some (setUnit c, [8])
    else some (setUnit c, [[1, 2], [3, 4], [5, 6], [7], [], [], [], [], [], [9], [9], [10], [10], [11], [11]].getD ((o - 0x200) / 4) [])
  | some .cal =>
    let o := reduceOff .cal a - 0x400
    some (528 + o / 8, if o % 8 = 0 then [13, 15] else [14])
  | some (.out g) => some (odUnit g, [12])
  | _ => none

/-- Leaf n drives an output or, in SYS, the clock tree. -/
def State.leafDrives (s : State) (n : Nat) : Bool :=
  if 32 ≤ n then s.power.clkRoot == n - 32 else s.actLeaf (n / 2) == n && s.lst n != L_OFF

/-- The set of channel c takes its trims now: one that serves a site in a step gives suspect edges for 1 µs (R318). -/
def State.chanTrims (s : State) (c : Nat) : State :=
  let g := if c < 512 then c / 32 else c - 512
  let k := if c < 512 then some (c % 32) else s.spareServes g
  let s := match k with | some k => s.gate (s.siteStep c) (·.stepSuspect g (2 ^ k)) | none => s
  s.trimsOn (CH c + 0x200) 0x100

/-- The host wrote the trim register at `a`: the calibration store follows, the unit reads HOST with the items' CQs not
measured, and the value acts as R318 and R319 say. -/
def State.trimWritten (s : State) (a : Nat) : State :=
  match trimUnit a with
  | none => s
  | some (u, items) =>
    let a := canonAddr a
    let s := s.putTrim a (s.word a)
    let o := if 562 ≤ u then (a - (OUT (u - 562) + 0x600)) / 4 else 0
    let x := items.foldl (fun x i => CalUnit.setCq u x (cqIndex i o) 255) (s.calUnit u)
    let s := (s.setCalUnit u { x with status := 6 }).modCal fun c => { c with hostEdit := true }
    let s := s.cqMod
    if u < 528 then
      let c := unitSet u
      if s.is CAL R.CAL_CFG_APPLY && s.siteStep c then s else s.chanTrims c
    else if u < 562 then s.gate (!s.leafDrives (u - 528)) (·.leafTrims (u - 528))
    else s

/-- TRIM_APPLY (R318): the set's trims that wait under BOUNDARY act once no step executes on its site. -/
def execTrimApply (c : Fin 528) (s : State) : Host.Outcome State Fault Refusal :=
  run s fun s => s.gate (s.trimPend (CH c + 0x200) 0x100 && !s.siteStep c) (·.chanTrims c)

end Sys2Proof.Machine
end

