-- ==== Sys2Proof/Machine/Chain.lean ====
section
/-! DEFINITION. Machine/Chain.lean: the commands of chapter 07: the Milestone chain's receivers, frames, enumeration,
measurement, schedule, rejoin and messages. Measured times are operands, in femtoseconds. -/

namespace Sys2Proof.Machine

/-- MSC.STAT.STATE codes (R155). -/
def C_DOWN : Nat := 0
def C_TRAIN : Nat := 1
def C_ENUM : Nat := 2
def C_MEASURE : Nat := 3
def C_ALIGNED : Nat := 4
def C_HEAD : Nat := 5
def C_SEGHEAD : Nat := 6
def C_SEGMENT : Nat := 7

def State.chSt (s : State) : Nat := s.rd MSC R.MSC_STAT_STATE
def State.setChSt (s : State) (n : Nat) : State := s.wr MSC R.MSC_STAT_STATE n

/-- The module's position is known. -/
def State.hasPos (s : State) : Bool := decide (C_MEASURE ≤ s.chSt)

/-! ## Receivers (R152, R155, R167, R170, R171) -/

/-- The module becomes the head of a segment: SEGCNT counts, its segment starts at its own position. -/
def State.toSeghead (s : State) : State :=
  let s := s.setChSt C_SEGHEAD
  let s := s.inc MSC R.MSC_SEGCNT
  let s := s.wr MSC R.MSC_CHAIN_SEGHD (s.rd MSC R.MSC_STAT_POS)
  s.modChain fun c => { c with rejoin := 0, measuring := false, measured := false, byTimeout := false }

/-- The downstream receiver changed: the head enumerates; a module with a position passes the enumeration on, or reports
itself the last (R156, R167). -/
def State.dnChanged (s : State) : State :=
  if s.chSt = C_HEAD then s.enumDown 1
  else if s.hasPos then s.enumDown (s.rd MSC R.MSC_STAT_POS + 1)
  else s

/-- The upstream receiver is up: a module in DOWN trains; a head by timeout becomes a segment head (R171). A module with HEAD
= 1 ignores the port. -/
def State.upUp (s : State) : State :=
  let s := (s.wr MSC R.MSC_STAT_UPLINK 1).modChain fun c => { c with upSeen := true }
  if s.chain.cfgHead || !s.power.clk then s
  else if s.chSt = C_DOWN then s.setChSt C_TRAIN
  else if s.chSt = C_HEAD ∧ s.chain.byTimeout = true then s.toSeghead
  else s

/-- The upstream receiver is down (R155, R167, R170). An entry to DOWN takes REFSRC and HEAD as written, and a module whose HEAD
is then 1 is the head (R154, R158). -/
def State.upDown (s : State) : State :=
  let s := s.wr MSC R.MSC_STAT_UPLINK 0
  if s.chain.cfgHead || !s.power.clk then s
  else
    let s := s.gate (s.chSt != C_DOWN && s.chSt != C_HEAD) (·.inc MSC R.MSC_LINKDN)
    if s.chSt = C_TRAIN ∨ s.chSt = C_ENUM ∨ s.chSt = C_MEASURE then
      let s := ((s.setChSt C_DOWN).wr MSC R.MSC_STAT_REFMIS 0).wr MSC R.MSC_STAT_OVERLONG 0
      let s := (s.modChain fun c => { c with measuring := false, measured := false }).chainLatch
      s.gate s.chain.cfgHead (·.becomeHead false)
    else if s.chSt = C_ALIGNED ∨ s.chSt = C_SEGMENT then s.toSeghead
    else if s.chSt = C_SEGHEAD then
      (s.wr MSC R.MSC_STAT_SLEWING 0).modChain fun c => { c with rejoin := 0, measuring := false, measured := false }
    else s

/-- CHAIN_RX_UP of the upstream (`dn` false) or downstream receiver. -/
def execChainRxUp (dn : Bool) (s : State) : Host.Outcome State Fault Refusal :=
  run s fun s => s.gate (s.variant.mc && s.power.aon) fun s =>
    if dn then s.gate (!s.is MSC R.MSC_STAT_DNLINK) fun s => (s.wr MSC R.MSC_STAT_DNLINK 1).dnChanged
    else s.gate (!s.is MSC R.MSC_STAT_UPLINK) (·.upUp)

/-- CHAIN_RX_DOWN. -/
def execChainRxDown (dn : Bool) (s : State) : Host.Outcome State Fault Refusal :=
  run s fun s => s.gate (s.variant.mc && s.power.aon) fun s =>
    if dn then s.gate (s.is MSC R.MSC_STAT_DNLINK) fun s => (s.wr MSC R.MSC_STAT_DNLINK 0).dnChanged
    else s.gate (s.is MSC R.MSC_STAT_UPLINK) (·.upDown)

/-- HEAD_TIMEOUT (R154): 100 ms after the CLK domain came on the upstream receiver has not come up. -/
def execHeadTimeout (s : State) : Host.Outcome State Fault Refusal :=
  run s fun s => s.gate (s.variant.mc && s.power.clk && s.chSt == C_DOWN && !s.chain.upSeen) (·.becomeHead true)

/-! ## Frames (R153, R163) -/

/-- The oldest message shows in MSG_RX and MSG_RD (chapter 07). -/
def State.rxShow (s : State) : State :=
  let s := s.wr MSC R.MSC_MSG_RX_COUNT s.chain.rx.length
  let (src, ws) := s.chain.rx.headD (0, [])
  let s := s.wr MSC R.MSC_MSG_RX_SRC src
  s.putQ MSC R.MSC_MSG_RD0 [ws.getD 0 0, ws.getD 1 0, ws.getD 2 0, ws.getD 3 0]

/-- A message can go out of the port of a direction: its link is up and its transmitter runs. -/
def State.portOpen (s : State) (up : Bool) : Bool :=
  (if up then s.is MSC R.MSC_STAT_UPLINK && s.chSt != C_HEAD else s.is MSC R.MSC_STAT_DNLINK) && s.txOn up

/-- A message: queued when it is for this module, dropped when 16 wait, and passed on when it is not for it alone. -/
def State.message (s : State) (up : Bool) (cs : List (BitVec 8)) : State :=
  let h := frameField cs 48 4
  let src := h % 4096
  let dest := h / 4096 % 4096
  let all := bitOf h 24
  let mine := s.hasPos && decide (dest = s.rd MSC R.MSC_STAT_POS)
  let ws : List Word := [BitVec.ofNat 32 (frameField cs 52 4), BitVec.ofNat 32 (frameField cs 56 4),
    BitVec.ofNat 32 (frameField cs 60 4), BitVec.ofNat 32 (frameField cs 64 2)]
  let s := s.gate (all || mine) fun s =>
    if 16 ≤ s.chain.rx.length then s.inc MSC R.MSC_MSGDROP
    else ((s.modChain fun c => { c with rx := c.rx ++ [(src, ws)] }).rxShow).raise 202 src
  s.gate ((all || !mine) && s.chSt != C_ENUM && s.portOpen (!up)) fun s =>
    s.sendFrame (!up) { posf := s.rd MSC R.MSC_STAT_POS, msg := some (h :: ws.map (·.toNat)) }

/-- The milestone that an announcement received now speaks of, in the module's own schedule: the one of this very cycle, where it
announces that (R166), else the next. -/
def State.announceable (s : State) (ep : Nat) : Option (Nat × Nat) :=
  let c := s.chain
  if c.sched ∧ 0 < c.next ∧ ep = s.epoch ∧ (c.base + (c.next - 1) * c.interval) % 2 ^ 48 = s.epoch then some (c.next - 1, ep)
  else s.nextMs.map fun m => (m.1, m.2.1)

/-- The interval from the milestone at epoch e on. -/
def State.intervalFrom (s : State) (e : Nat) : Nat := match s.chain.newSched with
  | some (b, i, _) => if b = e then i else s.chain.interval
  | none => s.chain.interval

/-- An announcement (R163): passed on, kept, and adopted from the next milestone where the module's own schedule disagrees. One
of a milestone already passed comes late and changes nothing. -/
def State.announced (s : State) (num ep int : Nat) : State :=
  let c := s.chain
  let late := c.sched && s.running && decide (2 ^ 47 ≤ (ep + 2 ^ 48 - s.epoch) % 2 ^ 48)
  let s := s.sendFrame false { posf := s.rd MSC R.MSC_STAT_POS, ann := some (num, ep, int) }
  if late then s
  else
    let s := s.modChain fun c => { c with ann := some (num, ep, int) }
    let adopt (s : State) : State := s.modChain fun c => { c with newSched := some (ep, int, num) }
    let agrees := match s.announceable ep with
      | some (m, e) => decide (m % 2 ^ 32 = num) && decide (e = ep) && decide (s.intervalFrom e = int)
      | none => false
    if !(s.chSt == C_ALIGNED || s.chSt == C_SEGMENT) then s
    else if !c.sched then adopt s
    else if agrees then s
    else ((adopt s).inc MSC R.MSC_ANNERR).raise 203 3

/-! ## Enumeration (R155, R156) -/

/-- An average of 65,536 exchanges starts (R160). -/
def State.startMeasure (s : State) : State :=
  s.modChain fun c => { c with measuring := true, exN := 0, exTh := 0, exRt := 0 }

/-- A position is taken: EV201 when it is new; from TRAIN and ENUM the hop is measured, and a segment head, whose segment starts
at the new position, measures it again. -/
def State.takePos (s : State) (p : Nat) : State :=
  let old := s.rd MSC R.MSC_STAT_POS
  let s := s.wr MSC R.MSC_STAT_POS p
  let s := (s.wr MSC R.MSC_STAT_REFMIS 0).wr MSC R.MSC_STAT_OVERLONG 0
  let s := s.gate (s.chSt == C_SEGHEAD) (·.wr MSC R.MSC_CHAIN_SEGHD p)
  let s := s.gate (s.chSt == C_SEGHEAD && !s.chain.measuring && !s.chain.measured) (·.startMeasure)
  let s := s.gate (s.chSt == C_TRAIN || s.chSt == C_ENUM) fun s =>
    ((s.setChSt C_MEASURE).startMeasure).modChain fun c => { c with measured := false }
  let s := (s.inc MSC R.MSC_ENUMCNT).gate (old != p) (·.raise 201 (s.word (MSC + R.MSC_CHAIN_LEN.off)).toNat)
  s.enumDown (p + 1)

/-- ENUMERATION_FRAME: position p and the head's REF_HZ, from upstream; `lat`: the latency accumulated there. -/
def State.enumFrame (s : State) (p hz lat : Nat) : State :=
  if !(s.variant.mc && s.power.clk && s.is MSC R.MSC_STAT_UPLINK) || s.chain.cfgHead || s.power.clkRoot == 2 || s.chSt == C_DOWN
      || s.chSt == C_HEAD then s
  else if p ≤ 4095 ∧ hz = s.refHz then (s.modChain fun c => { c with accLat := lat }).takePos p
  else
    let s := s.gate (s.chSt == C_TRAIN) (·.setChSt C_ENUM)
    let s := s.gate (s.chSt == C_ENUM) fun s =>
      let s := s.flag MSC R.MSC_STAT_OVERLONG (decide (4095 < p))
      let s := s.flag MSC R.MSC_STAT_REFMIS (decide (hz ≠ s.refHz))
      (s.gate (decide (hz ≠ s.refHz)) (·.raise 203 1)).gate (decide (4095 < p)) (·.raise 203 2)
    s.replyLen 0

def execEnumerationFrame (p : BitVec 13) (refhz : Word) (s : State) (lat : BitVec 48 := 0) : Host.Outcome State Fault Refusal :=
  run s fun s => s.enumFrame p.toNat refhz.toNat lat.toNat

/-- LEN_REPLY: n modules below; `lat`: the chain latency in fs that reaches the head (R164). -/
def State.lenReply (s : State) (n lat : Nat) : State :=
  if !(s.variant.mc && s.power.clk && s.is MSC R.MSC_STAT_DNLINK) then s
  else if s.chSt = C_HEAD then
    ((s.modChain fun c => { c with enumBusy := false }).setLen (n + 1) true).latIs lat
  else if s.hasPos then
    (((s.modChain fun c => { c with enumBusy := false }).setLen (n + 1) false).latIs lat).replyLen (n + 1)
  else s

def execLenReply (n : BitVec 13) (lat : BitVec 48) (s : State) : Host.Outcome State Fault Refusal :=
  run s fun s => s.lenReply n.toNat lat.toNat

/-! ## A frame (R153, R155, R160, R163, R168) -/

/-- The exchange that a frame from upstream completes (R160): t1 from its MCOUNT and MFRAC, t2 the receive time, t3 that of the
module's own frame which it echoes as ESEQ, t4 its ETIME; 2·θ̂ and R_t join the sums, in units of T_REF / 2^32. -/
def State.exchange (s : State) (cs : List (BitVec 8)) (frac : Nat) : State :=
  let time (count frac : Nat) : Nat := count * 2 ^ 32 + frac
  let diff (a b : Nat) : Int := toSigned 80 ((a + 2 ^ 80 - b) % 2 ^ 80)
  match s.chain.sentUp.find? fun e => e.1 == frameField cs 14 2 with
  | none => s
  | some (_, c3, f3) =>
    let d := diff (time s.epoch frac) (time (frameField cs 4 6) (frameField cs 10 4))
    let u := diff (time (frameField cs 16 6) (frameField cs 22 4)) (time c3 f3)
    s.gate (decide (s.chain.exN < 65536)) (·.modChain fun c =>
      { c with exN := c.exN + 1, exTh := c.exTh + (d - u), exRt := c.exRt + (d + u) })

/-- SEGMENT of a frame from upstream (R155, R168); `seghd`: the position of the segment head, for which the layout has no field
(assumption 99). -/
def State.segmentMark (s : State) (set : Bool) (seghd : Nat) : State :=
  if set ∧ s.chSt = C_ALIGNED then (s.setChSt C_SEGMENT).wr MSC R.MSC_CHAIN_SEGHD seghd
  else if !set ∧ s.chSt = C_SEGMENT then (s.setChSt C_ALIGNED).wr MSC R.MSC_CHAIN_SEGHD 0
  else s

/-- CHAIN_FRAME from the upstream (`up`) or downstream neighbour: its characters 1 to 127; its timing mark came in at fraction
`frac` of the present reference period. `lat`: the latency passed on beside it (R164). -/
def State.chainFrame (s : State) (up : Bool) (cs : List (BitVec 8)) (frac seghd lat : Nat) : State :=
  if !frameOk cs then s.inc MSC R.MSC_CRCERR
  else
    let t := frameField cs 1 1
    let posf := frameField cs 26 2
    let at' := (frameField cs 2 2, s.epoch, frac)
    let s := s.modChain fun c => if up then { c with rxUp := at', accLat := lat } else { c with rxDn := at' }
    let s := s.gate (bitOf t 4) (·.message up cs)
    if !up then if bitOf posf 13 then s.lenReply (frameField cs 28 2 % 8192) lat else s.latIs lat
    else
      let s := s.exchange cs frac
      let s := s.gate (bitOf t 3 && decide (s.chSt ≠ C_HEAD)) fun s =>
        s.announced (frameField cs 34 4) (frameField cs 38 6) (frameField cs 44 4)
      let s := s.gate (bitOf posf 12) (·.enumFrame (posf % 4096) (frameField cs 30 4) lat)
      s.segmentMark (bitOf t 1) seghd

def execChainFrame (up : Bool) (chars : List (BitVec 8)) (seghd : BitVec 12) (s : State) (frac : Word := 0) (lat : BitVec 48 := 0) :
    Host.Outcome State Fault Refusal :=
  run s fun s => s.gate (s.variant.mc && s.power.clk && s.is MSC (if up then R.MSC_STAT_UPLINK else R.MSC_STAT_DNLINK)
    && !(up && s.chain.cfgHead)) fun s => s.chainFrame up chars frac.toNat seghd.toNat lat.toNat

/-! ## Measurement (R160, R161, R171) -/

/-- The schedule is taken from the last announcement. -/
def State.takeAnn (s : State) : State := match s.chain.ann with
  | some (num, ep, int) => s.modChain fun c =>
      { c with sched := true, base := (ep + 2 ^ 48 - num * int % 2 ^ 48) % 2 ^ 48, interval := int, next := num, newSched := none }
  | none => s

/-- The averages of θ̂ and R_t in fs: of the exchanges that the frames gave, where all 65,536 of them came as commands; the
measured averages `th` and `rt` where they did not (assumption 99). -/
def State.averages (s : State) (th rt : Int) : Int × Int :=
  let c := s.chain
  let d : Int := 65536 * 2 ^ 32 * s.ref.inForce
  if c.exN = 65536 ∧ s.ref.inForce ≠ 0 then ((c.exTh * 10 ^ 15) / (2 * d), (c.exRt * 10 ^ 15) / d) else (th, rt)

/-- MEASURE_COMPLETE: the averaged raw offset θ̂ and round trip, the count that the corrected upstream time gives, and σ where
REFIN is selected. The module is ALIGNED with its epoch corrected, or a segment head waits for its rejoin, after the change
of reference of R171, which counts as a declared loss. After ALIGNED the average runs on: each further 65,536 exchanges, and
those of a REMEASURE, renew the measured values (R160). -/
def State.measured (s : State) (count : Nat) (th rt skew : Int) (means : List (BitVec 24)) (quiet : Nat) : State :=
  if !(s.chain.measuring || s.chSt == C_ALIGNED || s.chSt == C_SEGMENT) then s
  else
    let a := toSigned 32 (s.rd MSC R.MSC_ASYM)
    let own := !s.chain.linkRef
    let (th, rt) := s.averages th rt
    let s := s.modChain fun c =>
      { c with measuring := false, measured := true, hopOfs := (2 * th - a) / 2, hopDly := (rt + a) / 2,
               skew := if own then skew else 0, exN := 0, exTh := 0, exRt := 0 }
    if s.chSt = C_MEASURE then
      let s := { s with epoch := count, running := true }
      (((s.setChSt C_ALIGNED).wr MSC R.MSC_CHAIN_SEGHD 0).takeAnn).groupsQualify
    else if s.chSt = C_SEGHEAD then
      let s := s.modChain fun c => { c with rejoin := if c.rejoin = 0 then 1 else c.rejoin }
      if own ∧ s.chain.refsrc ≠ 1 then
        let s := s.modChain fun c => { c with linkRef := true, skew := 0 }
        s.gate s.ref.qualified (·.declareLoss 3 0 means quiet)
      else s
    else s

def execMeasureComplete (count th rt skew : BitVec 48) (means : List (BitVec 24)) (quiet : BitVec 34) (s : State) :
    Host.Outcome State Fault Refusal :=
  run s fun s => s.gate (s.variant.mc && s.power.clk) fun s =>
    s.measured count.toNat (toSigned 48 th.toNat) rt.toNat (toSigned 48 skew.toNat) means quiet.toNat

/-! ## MSC.CTRL (R156, R160, R164, R165) -/

/-- MSC.CTRL is answered at once with RESULT r. -/
def State.mscCtrl (s : State) (src : Src) (op : Nat) (res : State → Nat) (f : State → State) : State :=
  s.goReq src MSC R.MSC_CTRL_GO [(R.MSC_CTRL_OP, op)] fun s =>
    let r := res s
    let s := (s.wr MSC R.MSC_CTRL_RESULT r).wr MSC R.MSC_CTRL_GO 0
    s.gate (r == 0) f

/-- The module is the head; a VL512-FS always is. -/
def State.isHead (s : State) : Bool := s.chSt == C_HEAD || !s.variant.mc

def execMscEnum (src : Src) (s : State) : Host.Outcome State Fault Refusal :=
  run s fun s => s.mscCtrl src 0 (fun s => firstOf [(s.chain.enumBusy || s.chain.measuring, 5), (!s.isHead, 2)])
    (·.enumDown 1)

/-- MSC_REMEASURE: NOLINK where no hop has been measured over an upstream link that is up. -/
def execMscRemeasure (src : Src) (s : State) : Host.Outcome State Fault Refusal :=
  run s fun s => s.mscCtrl src 1
    (fun s => firstOf [(s.chain.enumBusy || s.chain.measuring, 5),
      (!(s.is MSC R.MSC_STAT_UPLINK && decide (C_ALIGNED ≤ s.chSt) && !s.isHead && s.chain.measured), 6)])
    (·.startMeasure)

/-- RESULT of SCHED: ILLEGAL, NOTHEAD, LATE, SHORT, NOEPOCH. -/
def State.schedResult (s : State) : Nat :=
  let i := s.rd MSC R.MSC_MS_INT
  let lead := ((s.chain.chainLat + 2000000000) * s.refHz + 10 ^ 15 - 1) / 10 ^ 15
  let d := (s.chain.newBase + 2 ^ 48 - s.epoch) % 2 ^ 48
  firstOf [(i == 0, 1), (!s.isHead, 2), (s.running && (decide (d < lead) || decide (2 ^ 47 ≤ d)), 3), (!s.intervalOk i, 4),
    (!s.running, 7)]

/-- MSC_SCHED: the new base is milestone 0 of the new schedule. -/
def execMscSched (src : Src) (s : State) : Host.Outcome State Fault Refusal :=
  run s fun s => s.mscCtrl src 2 (·.schedResult) fun s =>
    s.modChain fun c => { c with newSched := some (c.newBase, s.rd MSC R.MSC_MS_INT, 0), shortNow := false }

/-- MSC_RESERVED_OP: OP 3 to 7. -/
def execMscReservedOp (src : Src) (op : Fin 5) (s : State) : Host.Outcome State Fault Refusal :=
  run s fun s => s.mscCtrl src (3 + op) (fun _ => 1) id

/-! ## The wide-value mailbox -/

/-- The two words that SEL names. -/
def State.mbWords (s : State) (sel : Nat) : List Word :=
  let c := s.chain
  if sel = 0 then wide48 c.base
  else if sel = 1 then wide48 (match s.nextMs with | some (_, e, _) => e | none => 0)
  else if sel = 2 then signed48 c.hopDly
  else if sel = 3 then signed48 c.hopOfs
  else if sel = 4 then signed48 c.chainLat
  else if sel = 5 then signed48 c.skew
  else wide48 c.newBase

/-- An operation of MB_CTRL is made and answered (R118, R285). -/
def State.mb (s : State) (src : Src) (sel : Nat) (w : Bool) (res : Nat) (f : State → State) : State :=
  s.goReq src MSC R.MSC_MB_CTRL_GO [(R.MSC_MB_CTRL_SEL, sel), (R.MSC_MB_CTRL_WR, b2n w)] fun s =>
    let s := s.gate (res == 0) f
    ((s.wr MSC R.MSC_MB_CTRL_RESULT res).wr MSC R.MSC_MB_CTRL_GO 0).wr MSC R.MSC_MB_CTRL_VALID 1

def execMbRead (src : Src) (sel : BitVec 3) (s : State) : Host.Outcome State Fault Refusal :=
  run s fun s => s.mb src sel.toNat false (if sel.toNat = 7 then 1 else 0) fun s =>
    s.putQ MSC R.MSC_MB_Q0 (s.mbWords sel.toNat)

/-- MB_WRITE_NEWBASE: a write to another SEL is ILLEGAL. -/
def execMbWriteNewbase (src : Src) (sel : BitVec 3) (s : State) : Host.Outcome State Fault Refusal :=
  run s fun s => s.mb src sel.toNat true (if sel.toNat = 6 then 0 else 1) fun s =>
    s.modChain fun c => { c with newBase := s.rd MSC R.MSC_MB_D0 + s.rd MSC R.MSC_MB_D1 % 2 ^ 16 * 2 ^ 32 }

/-! ## Rejoin (R169) -/

/-- No leaf of the module is in HOLDOVER or RELOCK. -/
def State.noneAway (s : State) : Bool := (List.range 34).all fun n => s.lst n != L_HOLDOVER && s.lst n != L_RELOCK

/-- REJOIN_SLEW_START: `delta` is Δ; `late`: 100 ms have passed since the measurement. With REFIN selected the step waits for the
next milestone. -/
def execRejoinSlewStart (delta : BitVec 48) (late : Bool) (s : State) : Host.Outcome State Fault Refusal :=
  run s fun s => s.gate (s.chSt == C_SEGHEAD && s.chain.rejoin == 1 && (late || s.noneAway)) fun s =>
    let link := s.chain.linkRef
    let s := s.modChain fun c => { c with rejoin := if link then 2 else 3, delta := toSigned 48 delta.toNat }
    s.gate link (·.wr MSC R.MSC_STAT_SLEWING 1)

/-- REJOIN_SLEW_END: the link reference has slewed by −Δ. -/
def execRejoinSlewEnd (s : State) : Host.Outcome State Fault Refusal :=
  run s fun s => s.gate (s.chSt == C_SEGHEAD && s.chain.rejoin == 2) (·.rejoined)

/-! ## Messages -/

/-- The ports a message to `dest`, or to all, goes out of: up, down. -/
def State.msgPorts (s : State) (dest : Nat) (all : Bool) : Bool × Bool :=
  let p := s.rd MSC R.MSC_STAT_POS
  ((all || decide (dest < p)) && s.portOpen true, (all || decide (p < dest)) && s.portOpen false)

/-- MESSAGE_SEND: `soon`: less than 16.384 µs since the previous message of the port. -/
def execMessageSend (src : Src) (dest : BitVec 12) (all soon : Bool) (s : State) : Host.Outcome State Fault Refusal :=
  run s fun s => s.goReq src MSC R.MSC_MSG_TX_GO [(R.MSC_MSG_TX_DEST, dest.toNat), (R.MSC_MSG_TX_ALL, b2n all)] fun s =>
    let (up, dn) := s.msgPorts dest.toNat all
    let self := !all && s.hasPos && decide (dest.toNat = s.rd MSC R.MSC_STAT_POS)
    let res := firstOf [(!(up || dn || self), 1), (!s.hasPos, 2), (soon, 3)]
    let s := (s.wr MSC R.MSC_MSG_TX_RESULT res).wr MSC R.MSC_MSG_TX_GO 0
    let h := s.rd MSC R.MSC_STAT_POS + dest.toNat * 4096 + b2n all * 2 ^ 24
    let d : FrameBody := { posf := s.rd MSC R.MSC_STAT_POS, msg := some [h, s.rd MSC R.MSC_MSG_TD0, s.rd MSC R.MSC_MSG_TD1,
      s.rd MSC R.MSC_MSG_TD2, s.rd MSC R.MSC_MSG_TD3] }
    s.gate (res == 0) fun s => (s.gate up (·.sendFrame true d)).gate dn (·.sendFrame false d)

/-- MESSAGE_POP. -/
def execMessagePop (src : Src) (s : State) : Host.Outcome State Fault Refusal :=
  run s fun s => s.goReq src MSC R.MSC_MSG_RX_POP [] fun s =>
    ((s.modChain fun c => { c with rx := c.rx.drop 1 }).rxShow).wr MSC R.MSC_MSG_RX_POP 0

end Sys2Proof.Machine
end

