-- ==== Sys2Proof/Machine/Faults.lean ====
section
/-! DEFINITION. Machine/Faults.lean: the commands of chapter 15: fault occurrences, retries and self-tests of sets and engines,
the copy to a spare engine and back, the stores of the configuration image, step replay and un-retiring. Whether a check
passes is an operand; `ms` is the operating millisecond within the second. -/

namespace Sys2Proof.Machine

/-! ## Sets (R334 to R338) -/

/-- A detection on set c: an occurrence, unless the set is off, retired, or already being retried. -/
def State.setDetected (s : State) (c cause ms : Nat) : State :=
  let g := if c < 512 then c / 32 else c - 512
  let retired := s.is (SPM g) R.FLT_SPMAP_SERVES && s.rd (SPM g) R.FLT_SPMAP_CH == c % 32 && decide (c < 512)
  if s.setOn c && !retired && (s.chan c).cause == 0 then s.setFault c cause (s.opMs ms) else s

def execTimingServoLoss (c : Fin 528) (ms : Fin 1000) (s : State) : Host.Outcome State Fault Refusal :=
  run s fun s => s.setDetected c FC_TIMING ms
def execSupplyOvercurrent (c : Fin 528) (ms : Fin 1000) (s : State) : Host.Outcome State Fault Refusal :=
  run s fun s => s.setDetected c FC_SUPPLY ms

/-- A set's occurrence was transient (R337): it takes its pin back at the first quiet point, or at once where no spare had it. -/
def State.setBack (s : State) (c : Nat) : State :=
  let s := s.transient (setUnit c) (s.chan c).cause
  if c < 512 ∧ s.is (CH c) R.CH_CSTAT_SPARE = true then s.modChan c fun x => { x with swing := some false }
  else s.modChan c fun x => { x with cause := 0, tries := 0, iso := false }

/-- SET_RETRY: the isolated set repeats its failing check; the third failure is permanent. -/
def execSetRetry (c : Fin 528) (pass : Bool) (s : State) : Host.Outcome State Fault Refusal :=
  run s fun s =>
    let x := s.chan c
    if x.cause == 0 || !x.iso || x.swing.isSome then s
    else if pass then s.setBack c
    else
      let s := s.modChan c fun x => { x with tries := x.tries + 1 }
      s.gate (decide (3 ≤ x.tries + 1)) (·.retireSet c x.cause)

/-- SET_SELFTEST_DONE: the self-test at switch-on; a failure is permanent. -/
def execSetSelftestDone (c : Fin 528) (pass : Bool) (ms : Fin 1000) (s : State) : Host.Outcome State Fault Refusal :=
  run s fun s => s.gate (s.setOn c && (s.chan c).testing) fun s =>
    let s := s.modChan c fun x => { x with testing := false }
    s.gate (!pass) fun s => (s.occurred (setUnit c) FC_SELFTEST (s.opMs ms)).retireSet c FC_SELFTEST

/-! ## Engines (R335 to R338) -/

/-- The lowest-numbered down engine of bank b is retired to a spare that has become free through un-retiring (R340). -/
def State.spareForEngine (s : State) (b : Nat) : State :=
  let down := (List.range 128).find? fun i => s.engDown (128 * b + i)
  match down, s.freeSpare b with
  | some i, some q =>
    let e := 128 * b + i
    let a := FLT + 4 * (e / 32)
    let m := FLT + 4 * (q - 512)
    let s := s.wr a R.FLT_EDOWN (setBit (s.rd a R.FLT_EDOWN) (e % 32) false)
    let s := (s.wr m R.FLT_ESMAP_ENG e).wr m R.FLT_ESMAP_SERVES 1
    let s := (s.wr (ENG q) R.ENG_SERVES_ENG e).wr (ENG q) R.ENG_SERVES_VALID 1
    ((s.repower id).retireReport (engUnit e) 0 2).storeMaps
  | _, _ => s

/-- The memories and streams of engine `src` go to engine q, which waits in IDLE: `prog` a program word copied wrong, `bad` the
data words copied as 0. -/
def State.engMove (s : State) (q src : Nat) (prog : Option (Nat × Word)) (bad : List Nat) : State :=
  let y := s.eng src
  let x := s.eng q
  let p := match prog with | some (i, w) => Tab.set 0 y.prog i w | none => y.prog
  let d := bad.foldl (fun t i => Tab.set 0 t i 0) y.data
  let s := s.setEng q
    { x with st := E_IDLE, pc := 0, waitOn := 0, prog := p, data := d, fifo := y.fifo, cfifo := y.cfifo, cwait := y.cwait,
             inbox := y.inbox, crcBusy := true, copyFrom := none, badCopy := !bad.isEmpty, req := y.req }
  s.modEng src fun y => { y with fifo := [], cfifo := [], cwait := [], inbox := [], req := none }

/-- The engine whose memories a spare has just taken is not retired: it is to take them back once its retry passes (R337). -/
def State.comesBack (s : State) (p : Nat) : Bool :=
  if p < 512 then (s.engSpare p).isNone && !s.engDown p else !s.is (FLT + 4 * (p - 512)) R.FLT_ESMAP_RETIRED

/-- ENGINE_COPY_DONE: spare s of the module has the failed engine's memories and takes over (R336). -/
def execEngineCopyDone (sp : Fin 16) (prog : Option (Fin 1024 × Word)) (bad : List (Fin 2048)) (s : State) :
    Host.Outcome State Fault Refusal :=
  run s fun s =>
    let q := 512 + sp.val
    match (s.eng q).copyFrom with
    | none => s
    | some src =>
      let s := s.engMove q src (prog.map fun e => (e.1.val, e.2)) (bad.map (·.val))
      let s := s.inc FLT R.FLT_PARERR bad.length
      let s := s.gate (decide (512 ≤ src)) (·.wr (ENG src) R.ENG_SERVES_VALID 0)
      let s := s.gate (s.comesBack src) (·.modEng src fun x => { x with returning := true })
      (s.wr (ENG q) R.ENG_SERVES_VALID 1).repower id

/-- An engine's PARITY was transient: it will take the memories back from the spare that serves it (R337). -/
def State.engBack (s : State) (p : Nat) : State :=
  (s.transient (engUnit p) FC_PARITY).modEng p fun x => { x with failing := false, tries := 0 }

/-- ENGINE_SELFTEST_DONE: at switch-on a failure is permanent; after PARITY a pass is transient and the third failure
permanent. -/
def execEngineSelftestDone (p : Fin 528) (pass : Bool) (ms : Fin 1000) (s : State) : Host.Outcome State Fault Refusal :=
  run s fun s =>
    let x := s.eng p
    if !(x.on && x.testing) then s
    else if pass then
      let s := s.modEng p fun x => { x with testing := false }
      s.gate x.failing (·.engBack p)
    else if x.failing && decide (x.tries + 1 < 3) then s.modEng p fun x => { x with tries := x.tries + 1 }
    else
      let s := s.modEng p fun x => { x with testing := false }
      if x.failing then s.retireEng p FC_PARITY
      else (s.occurred (engUnit p) FC_SELFTEST (s.opMs ms)).retireEng p FC_SELFTEST

/-- A command executes on the site of engine e. -/
def State.siteBusy (s : State) (e : Nat) : Bool :=
  match (s.grp (e / 32)).siteOf (e % 32) with
  | some i => s.cmds.any fun c => c.phase == .running && bitOf (groupSites c.sites (e / 32)) i
  | none => false

/-- ENGINE_RETURN (R337): engine p, or a spare that served an engine, takes the memories back from the spare that took them, which
is then free. -/
def execEngineReturn (p : Fin 528) (s : State) : Host.Outcome State Fault Refusal :=
  run s fun s =>
    let e := s.logEng p
    let q := s.physEng e
    if !(s.eng p).returning || (s.eng p).failing || s.siteBusy e then s
    else
      let s := s.modEng p fun x => { x with returning := false }
      if q = p.val then s
      else
        let s := (s.engMove p q none []).wr (ENG q) R.ENG_SERVES_VALID 0
        let s := s.gate (decide (512 ≤ p.val)) (·.wr (ENG p) R.ENG_SERVES_VALID 1)
        let s := s.modEng q fun x => { x with st := E_IDLE, waitOn := 0 }
        s.gate (s.flt.freed.contains (16 + e / 128)) fun s =>
          (s.modFlt fun f => { f with freed := f.freed.filter (· != 16 + e / 128) }).spareForEngine (e / 128)

/-! ## Stores of the configuration image (R340, R388) -/

/-- The generation that the next store writes. -/
def Die.nextGen (d : Die) : Nat :=
  let gen (x : Option (Nat × Tab Word)) : Nat := match x with | some e => e.1 | none => 0
  (if gen d.slotA < gen d.slotB then gen d.slotB else gen d.slotA) + 1

/-- The store of a commit starts (R388). -/
def State.commitStore (s : State) : State :=
  if s.flt.store.isSome ∨ s.prot.store.isSome then s.modProt fun p => { p with storeNext := true }
  else
    let b := s.reco.die.storeB
    (s.modProt fun p => { p with store := some b, storeNext := false }).eraseStart (.cfgSlot b)

/-- The next store that waits starts. -/
def State.nextStore (s : State) : State :=
  if s.prot.storeNext then s.commitStore
  else if s.flt.storeAgain then (s.modFlt fun f => { f with storeAgain := false }).storeMaps
  else s

/-- CONFIG_STORE_END: `ok` with its valid mark, otherwise a failure. -/
def execConfigStoreEnd (ok : Bool) (s : State) : Host.Outcome State Fault Refusal :=
  run s fun s =>
    match (if s.flt.store.isSome then s.flt.store else s.prot.store) with
    | none => s
    | some b =>
      if s.reco.erase = some (.cfgSlot b) ∨ s.reco.eraseQ.contains (.cfgSlot b) then s
      else
        let own := s.flt.store.isSome
        let img := some (s.reco.die.nextGen, s.imageWithMaps)
        let s := s.gate ok fun s => s.modReco fun r =>
          { r with die := if b then { r.die with slotB := img } else { r.die with slotA := img } }
        let s := if own then s.modFlt fun f => { f with store := none } else s.modProt fun p => { p with store := none }
        let s := if ok then s
          else if own then (s.inc FLT R.FLT_STOREFAIL).raise 206 0 else s.commitFail
        (s.nextStore).downGo

/-! ## Step replay (R341, R342) -/

/-- The records that command h wrote since byte `mark` are discarded. -/
def State.rewind (s : State) (h mark : Nat) : State :=
  let gone (m : Emit) : Bool := m.host && m.handle == h && decide (mark ≤ m.off)
  let ps := (s.engines.filter fun e => match e.2.emitter with | some m => gone m | none => false).map (·.1)
  let s := forAll ps (fun p s => s.modEng p fun x => { x with emitter := none }) s
  { s.modCmd h fun c => { c with rbytes := mark } with modRecs := s.modRecs.filter fun r => !(r.1 == h && decide (mark ≤ r.2.1)) }

/-- The engines of a replayed step's sites are emptied, and started again with the same words. -/
def State.replayEngines (s : State) (g : Nat) (t : TStep) (c : Cmd) : State :=
  let h := t.handle
  let es := (s.siteEngines g t.sites).map fun e => s.physEng e
  let s := forAll es (fun p s => s.modEng p fun x =>
    { x with fifo := [], cfifo := [], cwait := [], inbox := [], emitter := none }) s
  if !c.engs then s
  else
    let q : StartReq :=
      { entry := getBits (c.arg 1) 17 10, handle := some h,
        args := (List.range 7).map (fun k => c.arg (2 + k)) ++ [BitVec.ofNat 32 h] }
    let s := s.modCmd h fun c =>
      { c with groupsLeft := setBit c.groupsLeft (partBit g 2) true,
               excEng := if c.excEng / 32 = g then 1024 else c.excEng,
               excCode := if c.excEng / 32 = g then 0 else c.excCode }
    let s := forAll es (fun p s => s.modEng p fun x => { x with req := some q, st := E_IDLE, waitOn := 0 }) s
    forAll es (fun p s => s.engAccept p) s

/-- One step is rewound and counted. -/
def State.replayOne (s : State) (g : Nat) (t : TStep) : State :=
  match s.cmd? t.handle with
  | none => s
  | some c =>
    let s := s.rewind t.handle t.bufMark
    let s := s.modGrp g fun x => { x with cmp := x.cmp.filter fun r => !bitOf t.sites r.site }
    let s := s.replayEngines g t c
    let s := (s.modCmd t.handle fun c => { c with replays := c.replays + 1 }).cmdFlag t.handle CF_REPLAYED
    (s.inc FLT R.FLT_REPLAYCNT).recCount 5

/-- REPLAY_START (R342): the affected steps of a stream start again from their line once the checks of R192 pass. -/
def execReplayStart (g : Fin 16) (s : State) : Host.Outcome State Fault Refusal :=
  run s fun s =>
    let x := s.grp g
    match x.replay with
    | [] => s
    | t :: _ =>
      let ts := x.replay.filter fun u => u.line0 == t.line0
      if s.stepOn g || !x.on || ts.any fun u => !s.stepReady g u then s
      else
        let s := forAll ts (fun u s => s.replayOne g u) s
        let s := s.modGrp g fun x => { x with replay := x.replay.filter fun u => u.line0 != t.line0 }
        s.streamStart g (ts.map fun u => { u with replays := u.replays + 1 }) t.line0

/-! ## Un-retiring (R346) -/

/-- Unit u is retired or down. -/
def State.unitRetired (s : State) (u : Nat) : Bool :=
  if u < 528 then
    let g := u / 33
    let k := u % 33
    if k = 32 then s.is (SPM g) R.FLT_SPMAP_SPRET
    else (s.is (SPM g) R.FLT_SPMAP_SERVES && s.rd (SPM g) R.FLT_SPMAP_CH == k) || s.chDown (32 * g + k)
  else if u < 562 then s.leafRetired (u - 528)
  else if u < 1074 then (s.engSpare (u - 562)).isSome || s.engDown (u - 562)
  else s.is (FLT + 4 * (u - 1074)) R.FLT_ESMAP_RETIRED

/-- FLT.UNRES. -/
def State.unres (s : State) (r : Nat) : State := s.wr FLT R.FLT_UNRES r

/-- The commit of kind UNRETIRE for unit u: NOTRET, BUSY while another runs, or it waits for its unit to be free. -/
def State.unretire (s : State) (u : Nat) : State :=
  if !s.unitRetired u then s.unres 2
  else if s.flt.unret.isSome then s.unres 4
  else s.modFlt fun f => { f with unret := some u, unretTest := false }

/-- No command executes on the unit's group, or on its bank for an engine. -/
def State.unitFree (s : State) (u : Nat) : Bool :=
  if u < 528 then !s.cmdOn (u / 33)
  else if u < 560 then !s.cmdOn ((u - 528) / 2)
  else if u < 562 then true
  else
    let b := if u < 1074 then (u - 562) / 128 else (u - 1074) / 4
    (List.range 4).all fun i => !s.cmdOn (4 * b + i)

/-- UNRETIRE_START: the self-test starts; a leaf's is a lock from OFF with a band search. -/
def execUnretireStart (s : State) : Host.Outcome State Fault Refusal :=
  run s fun s => match s.flt.unret with
    | none => s
    | some u =>
      if s.flt.unretTest || !s.unitFree u then s
      else
        let s := s.modFlt fun f => { f with unretTest := true }
        if u < 528 ∨ 562 ≤ u then s
        else
          let n := u - 528
          let on := if n < 32 then (s.grp (n / 2)).on else s.power.clk
          let other := if n < 32 then (if n % 2 = 0 then n + 1 else n - 1) else 65 - n
          s.gate on fun s => (s.modLeaf n fun l => { l with on := true }).lockFromOff n
            (if n < 32 then (s.leaf other).ratio else sysRatio s.refHz) none

/-- The maps clear for unit u, and the unit returns. -/
def State.unretired (s : State) (u : Nat) : State :=
  if u < 528 then
    let g := u / 33
    let k := u % 33
    let c := unitSet u
    if k = 32 then ((s.repower fun s => s.wr (SPM g) R.FLT_SPMAP_SPRET 0).modChan c fun x => { x with cause := 0 }).spareForDown g
    else
      let a := FLT + 4 * g
      let served := s.is (SPM g) R.FLT_SPMAP_SERVES && s.rd (SPM g) R.FLT_SPMAP_CH == k
      let s := s.repower fun s =>
        let s := s.wr a R.FLT_CHDOWN (setBit (s.rd a R.FLT_CHDOWN) k false)
        s.gate served fun s =>
          (s.wr (SPM g) R.FLT_SPMAP_SERVES 0).modChan (512 + g) fun x => { x with serves := some k }
      let s := s.modChan c fun x => { x with cause := 0, tries := 0, iso := served, swing := if served then some false else none }
      s.gate served fun s => s.modFlt fun f => { f with freed := f.freed ++ [g] }
  else if u < 560 then
    let n := u - 528
    let g := n / 2
    let s := s.wr FLT R.FLT_LEAFRET (setBit (s.rd FLT R.FLT_LEAFRET) n false)
    let s := s.gate ((s.grp g).on) fun s => s.modLeaf n fun l => { l with on := true }
    s.joinIfIdle g
  else if u < 562 then
    let s := s.wr FLT R.FLT_SYSRET (setBit (s.rd FLT R.FLT_SYSRET) (u - 560) false)
    (s.gate s.power.clk fun s => s.modLeaf (u - 528) fun l => { l with on := true }).flag SYS R.SYS_SYSSTAT_STRAND false
  else if u < 1074 then
    let e := u - 562
    let a := FLT + 4 * (e / 32)
    let spare := s.engSpare e
    let s := s.wr a R.FLT_EDOWN (setBit (s.rd a R.FLT_EDOWN) (e % 32) false)
    let s := match spare with
      | some i => (s.wr (FLT + 4 * i) R.FLT_ESMAP_SERVES 0).modFlt fun f => { f with freed := f.freed ++ [16 + e / 128] }
      | none => s
    (s.repower id).modEng e fun x => { x with returning := spare.isSome && x.on }
  else
    let i := u - 1074
    ((s.wr (FLT + 4 * i) R.FLT_ESMAP_RETIRED 0).repower id).spareForEngine (i / 4)

/-- UNRETIRE_DONE: the self-test has ended; a leaf passes when it is LOCKED. UNRES and EV232 report the outcome. -/
def execUnretireDone (pass : Bool) (s : State) : Host.Outcome State Fault Refusal :=
  run s fun s => match s.flt.unret with
    | none => s
    | some u =>
      if !s.flt.unretTest then s
      else
        let leaf := decide (528 ≤ u) && decide (u < 562)
        let n := u - 528
        let ok := pass && (!leaf || !(s.leaf n).on || s.lst n == L_LOCKED)
        let s := s.modFlt fun f => { f with unret := none, unretTest := false }
        let s := if ok then
            let s := s.modFlt fun f => { f with hist := f.hist.clearRange u 1 }
            (s.unretired u).storeMaps
          else s.gate (leaf && (s.leaf n).on) fun s => (s.leafOff n).setLeaf n {}
        let s := s.unres (if ok then 1 else 3)
        let s := s.fltLast u (if ok then 0 else FC_SELFTEST) (if ok then 4 else 5) 0
        s.raise 232 (s.word (FLT + R.FLT_LAST_UNIT.off)).toNat

end Sys2Proof.Machine
end

