-- ==== Sys2Proof/Machine/Modes.lean ====
section
/-! DEFINITION. Machine/Modes.lean: mode requests and their outcomes (R24 to R29, R40, R41). -/

namespace Sys2Proof.Machine

/-! ## Requests (R24, R25, R27) -/

/-- The transition table has a row for a request of TARGET `t` in mode `m` (R27). -/
def modeRow (m t : Nat) : Bool :=
  if m = MODE_STANDBY then t == 0 || t == 3 || t == 7
  else if m = MODE_CONFIGURE then t == 0 || t == 2 || t == 4 || t == 7
  else if m = MODE_ARMED then t == 0 || t == 2 || t == 3 || t == 6 || t == 7
  else if m = MODE_RUN then t == 0 || t == 2 || t == 3 || t == 4 || t == 7
  else if m = MODE_CALIBRATE then t == 4 || t == 7
  else if m = MODE_SAFE then t == 0 || t == 2
  else false

/-- A request is taken from GLB.MODE_REQ; one other than 0 clears PDRDY (R41). TARGET equal to CUR returns OK and a request
without a row ILLEGAL; the others are made by `f`. -/
def State.modeReq (s : State) (src : Src) (t : Nat) (f : State → State) : State :=
  s.goReq src GLB R.GLB_MODE_REQ_GO [(R.GLB_MODE_REQ_TARGET, t)] fun s =>
    let s := s.modPower fun p => { p with reqPending := true, reqTarget := t, reqKeyway := src == .keyway }
    let s := s.gate (t != 0) (·.wr GLB R.GLB_MODE_PDRDY 0)
    if t ≠ 0 ∧ t ≠ 1 ∧ t ≠ 5 ∧ t = s.mode then s.modeResult 0
    else if !modeRow s.mode t then s.modeResult 1
    else f s

/-- A request made in RUN: descriptor fetch stops, and every executing descriptor ends at its next test-step boundary. -/
def State.leaveRun (s : State) : State := (s.abortAll fun _ => true).runOver

/-! ## TARGET 0 (R40) -/

/-- MODE_REQ_OFF: the orderly power-down. -/
def execModeReqOff (src : Src) (s : State) : Host.Outcome State Fault Refusal :=
  run s fun s => s.modeReq src 0 fun s =>
    if s.mode = MODE_RUN then s.leaveRun
    else if s.mode = MODE_CONFIGURE ∨ s.mode = MODE_ARMED then s.modeGo 0
    else (s.modPower fun p => { p with downStep := 2 }).downGo

/-! ## TARGET 2 (R26, R27) -/

/-- MODE_REQ_STANDBY. -/
def execModeReqStandby (src : Src) (s : State) : Host.Outcome State Fault Refusal :=
  run s fun s => s.modeReq src 2 fun s =>
    if s.mode = MODE_SAFE then
      if src = .keyway then s.modeResult 4 else if s.causePersists then s.modeResult 3 else s.leaveSafe
    else if s.mode = MODE_RUN then s.leaveRun
    else s.modeGo 2

/-- SAFE_EXIT_SYS_TIMEOUT: no SYS leaf locked within 20 ms of the exit attempt; the CLK domain goes off again. -/
def execSafeExitSysTimeout (s : State) : Host.Outcome State Fault Refusal :=
  run s fun s => s.gate s.power.sysExit fun s => s.clkOff.modeResult 3

/-! ## TARGET 3 (R28) -/

/-- MODE_REQ_CONFIGURE: from STANDBY the units of owned groups are switched on, when CLKSRC reads 1 and the module is configured;
from ARMED the pins are high-impedance and the leaves stay locked. -/
def execModeReqConfigure (src : Src) (s : State) : Host.Outcome State Fault Refusal :=
  run s fun s => s.modeReq src 3 fun s =>
    if s.mode = MODE_RUN then s.leaveRun
    else if s.mode = MODE_ARMED then s.modeGo 3
    else if s.power.clkRoot == 2 || (s.is GLB R.GLB_MODE_IMGDEF && !s.power.cfgWritten) || s.extest then s.modeResult 2
    else (s.repower (·.setMode MODE_CONFIGURE)).modeResult 0

/-! ## TARGET 4 (R27, R28, R98) -/

/-- The leaves that ARMED requires: both of every group that holds an owned site, under PING-PONG the active one (R28). -/
def State.requiredLeaves (s : State) : List Nat :=
  ((List.range s.variant.groups).filter s.groupOwned).flatMap fun g =>
    if s.pingPong g then [s.actLeaf g] else [2 * g, 2 * g + 1]

/-- Every required leaf is LOCKED. -/
def State.armReady (s : State) : Bool := s.requiredLeaves.all fun n => s.lst n == L_LOCKED

/-- The module is ARMED: the pins take their idle levels. -/
def State.arm (s : State) : State := (s.setMode MODE_ARMED).modeResult 0

/-- MODE_REQ_ARMED: from CONFIGURE, with SYS not lost, each required leaf that is OFF locks at its staged ratio (R97, R98), and
the request waits for all of them; from CALIBRATE the run ends early (R324). -/
def execModeReqArmed (src : Src) (s : State) : Host.Outcome State Fault Refusal :=
  run s fun s => s.modeReq src 4 fun s =>
    if s.mode = MODE_RUN then s.leaveRun
    else if s.mode = MODE_CALIBRATE then (s.calCut.calExit 2).modeResult 0
    else if !(s.sysServes 32 || s.sysServes 33) then s.modeResult 2
    else
      let s := forAll s.requiredLeaves (fun n s => match (s.leaf n).staged with
        | some r => s.lockFromOff n r none
        | none => s) s
      if s.armReady then s.arm else s.modPower fun p => { p with armWait := true }

/-- MODE_ARMED_LOCKED: the last required leaf has reached LOCKED. -/
def execModeArmedLocked (s : State) : Host.Outcome State Fault Refusal :=
  run s fun s => s.gate (s.power.armWait && s.mode == MODE_CONFIGURE && s.armReady) (·.arm)

/-- MODE_ARMED_TIMEOUT: 20 ms from GO; a lock that arrived in the same cycle is taken (R28). -/
def execModeArmedTimeout (s : State) : Host.Outcome State Fault Refusal :=
  run s fun s => s.gate (s.power.armWait && s.mode == MODE_CONFIGURE) fun s => if s.armReady then s.arm else s.modeResult 5

/-! ## TARGET 6 (R28, R321) -/

/-- A descriptor executes or could start, or a PHASE_HOLD or DEADLINE guarantee is in force. -/
def State.trafficLeft (s : State) : Bool :=
  s.cmds.any (fun c => c.op != 5 && c.phase != .done) || s.holds.any fun h => h.granted && !h.guarded

/-- MODE_REQ_CALIBRATE. `calv` in µV and `ppm` are the references as measured at GO (R313). -/
def execModeReqCalibrate (src : Src) (calv ppm : Word) (s : State) : Host.Outcome State Fault Refusal :=
  run s fun s => s.modeReq src 6 fun s =>
    let v := s.calvOk calv.toNat
    let t := !bitOf (s.rd CAL R.CAL_ITEMS_SETS) 10 || s.caltOk (toSigned 32 ppm.toNat)
    let s := s.wr CAL R.CAL_STAT_REFOK (b2n v)
    if !v || !t then
      ((s.wr CAL R.CAL_STAT_LASTRUN 3).raise 218 (b2n (!v) + 2 * b2n (!t))).modeResult 2
    else if s.trafficLeft || !s.calReady then s.modeResult 2
    else s.calBegin.modeResult 0

/-! ## TARGET 7, 1 and 5 -/

/-- MODE_REQ_SAFE: entry to SAFE with cause REQUEST; the entry answers the request (R27). -/
def execModeReqSafe (src : Src) (s : State) : Host.Outcome State Fault Refusal :=
  run s fun s => s.modeReq src 7 fun s => s.enterSafe SC_REQUEST

/-- MODE_REQ_ILLEGAL_TARGET: TARGET 1, or 5 when `five`, is ILLEGAL in every mode. -/
def execModeReqIllegalTarget (src : Src) (five : Bool) (s : State) : Host.Outcome State Fault Refusal :=
  run s fun s => s.modeReq src (if five then 5 else 1) fun s => s

end Sys2Proof.Machine
end

