-- ==== Sys2Proof/Machine/Protect.lean ====
section
/-! DEFINITION. Machine/Protect.lean: protection states, the two-key commit and the lease (R382 to R391), and the operating
second (R363). `ms` is the operating millisecond within the second. -/

namespace Sys2Proof.Machine

/-! ## Protection state (R383, R395) -/

/-- The PROT.STATE word. -/
def State.protWord (s : State) : Nat := (s.word (PROT + R.PROT_STATE_PSTATE.off)).toNat

/-- A change `f` of PROT.STATE: a debug level of D2 falls to D1 at entry to SEALED, and to DBGMAX, in the same cycle; EV234 and
EV235 follow. -/
def State.protChange (s : State) (f : State → State) : State :=
  let p := s.rd PROT R.PROT_STATE_PSTATE
  let d := s.rd PROT R.PROT_STATE_DBGLVL
  let s := f s
  let top := satTo 2 (s.rd PROT R.PROT_STATE_DBGMAX)
  let lvl := satTo (if s.sealed then satTo 1 top else top) d
  let s := s.wr PROT R.PROT_STATE_DBGLVL lvl
  let s := s.gate (s.rd PROT R.PROT_STATE_PSTATE != p) fun s => s.raise 234 s.protWord
  s.gate (lvl != d) fun s => s.raise 235 s.protWord

/-! ## Challenges (R386 to R389) -/

/-- The check of a change of KIND `k` with argument `a` and unit `u` (R389). -/
def State.kindPasses (s : State) (k a u : Nat) : Bool :=
  let p := s.rd PROT R.PROT_STATE_PSTATE
  if k = 1 then p == 0
  else if k = 2 then s.sealed && decide (1 ≤ a) && decide (a ≤ 240)
  else if k = 3 then p == 2
  else if k = 4 then decide (u ≤ 1089)
  else k == 5 || k == 6

/-- The challenge ends with RESULT `res` (R388): LIVE, AOK, BOK, CHAL, KEYA and KEYB clear, and EV233 is raised. -/
def State.chalEnd (s : State) (res : Nat) : State :=
  let prev := s.rd PROT R.PROT_CHAL
  let s := s.wr PROT R.PROT_CTRL_RESULT res
  let s := forAll [R.PROT_CTRL_LIVE, R.PROT_CTRL_AOK, R.PROT_CTRL_BOK, R.PROT_CHAL, R.PROT_KEYA, R.PROT_KEYB]
    (fun f s => s.wr PROT f 0) s
  let s := s.modProt fun p => { p with prevChal := prev }
  s.raise 233 (s.prot.kind + 16 * res)

/-- A MISMATCH or EXPIRED at operating millisecond `t`: counted, and from the fourth in a row ARM is locked out for 60 s. -/
def State.chalFail (s : State) (res t : Nat) : State :=
  let s := (s.chalEnd res).inc PROT R.PROT_FAILCNT
  s.modProt fun p => { p with failRun := p.failRun + 1, lockUntil := if 3 ≤ p.failRun then t + 60000 else p.lockUntil }

/-- A live challenge ends at VIN loss or a critical trip with nothing applied. -/
def State.chalDrop (s : State) : State := s.gate (s.is PROT R.PROT_CTRL_LIVE) (·.chalEnd 0)

/-- A new challenge: the value of the noise source, never 0 and never the previous one. -/
def State.newChal (s : State) : Nat :=
  let v := (Config.noise s.freeCtr).toNat
  let old := s.prot.prevChal
  if v ≠ 0 ∧ v ≠ old then v else if (old + 1) % 2 ^ 32 = 0 then 1 else old + 1

/-- ARM (R386, R389, R443): refused, or the change is copied and a challenge published. -/
def execArm (src : Src) (ms : Fin 1000) (s : State) : Host.Outcome State Fault Refusal :=
  run s fun s => s.goReq src PROT R.PROT_CTRL_ARM [] fun s =>
    let k := s.rd PROT R.PROT_STAGE_KIND
    let a := s.rd PROT R.PROT_STAGE_ARG
    let u := s.rd FLT R.FLT_UNRET
    let live := s.is PROT R.PROT_CTRL_LIVE
    let res := firstOf [(!s.kindPasses k a u, 5), (s.mode == MODE_BOOT, 9), (live, 8), (decide (s.opMs ms < s.prot.lockUntil), 7)]
    let s := s.wr PROT R.PROT_CTRL_ARM 0
    if res ≠ 0 then (s.wr PROT R.PROT_CTRL_RESULT res).gate (res == 7) (·.inc PROT R.PROT_FAILCNT)
    else
      let d := s.word (PROT + R.PROT_DVAL.off)
      let c := s.newChal
      let s := s.tick.modProt fun p => { p with kind := k, arg := a, dval := d, unit := u }
      (((s.wr PROT R.PROT_CHAL c).wr PROT R.PROT_CTRL_LIVE 1).wr PROT R.PROT_CTRL_RESULT 1).raise 237 k

/-- ABORT: the live challenge ends with ABORTED. -/
def execAbort (src : Src) (s : State) : Host.Outcome State Fault Refusal :=
  run s fun s => s.goReq src PROT R.PROT_CTRL_ABORT [] fun s =>
    (s.wr PROT R.PROT_CTRL_ABORT 0).gate (s.is PROT R.PROT_CTRL_LIVE) (·.chalEnd 6)

/-- A field of the configuration image takes a committed value. -/
def State.imagePut (s : State) (a : Nat) (f : Fld) (v : Nat) : State :=
  let d := resetWord s.variant (a + f.off)
  let w := putBits (Tab.get d s.image (a + f.off)) f.lsb f.width v
  { s with image := Tab.set d s.image (a + f.off) w }

/-- The copied change is applied (R388, R389). -/
def State.applyChange (s : State) : State :=
  let p := s.prot
  if p.kind = 1 then
    ((s.protChange (·.wr PROT R.PROT_STATE_PSTATE 1)).imagePut PROT R.PROT_STATE_PSTATE 1).commitStore
  else if p.kind = 2 then
    (s.protChange fun s => (s.wr PROT R.PROT_STATE_PSTATE 2).wr PROT R.PROT_STATE_LEASE p.arg).modProt fun p =>
      { p with leaseSec := 0 }
  else if p.kind = 3 then s.protChange fun s => (s.wr PROT R.PROT_STATE_PSTATE 1).wr PROT R.PROT_STATE_LEASE 0
  else if p.kind = 4 then s.unretire p.unit
  else if p.kind = 5 then
    let n := PROT + 4 * (p.arg % 16)
    ((s.wr n R.PROT_DIG p.dval.toNat).imagePut n R.PROT_DIG p.dval.toNat).commitStore
  else
    ((s.protChange (·.wr PROT R.PROT_STATE_DBGMAX p.arg)).imagePut PROT R.PROT_STATE_DBGMAX p.arg).commitStore

/-- Both correct keys are held: the change is checked again and applied, or the challenge ends with ILLEGAL. -/
def State.bothKeys (s : State) : State :=
  if !(s.is PROT R.PROT_CTRL_AOK && s.is PROT R.PROT_CTRL_BOK) then s
  else if !s.kindPasses s.prot.kind s.prot.arg s.prot.unit then s.chalEnd 5
  else
    let s := s.applyChange
    let s := (s.chalEnd 2).inc PROT R.PROT_COMMITS
    s.modProt fun p => { p with failRun := 0, lockUntil := 0 }

/-- A write of a key register (R387): `f` the register, `ok` its flag, `own` the interface that may write it. -/
def State.keyWrite (s : State) (src own : Src) (f ok : Fld) (v : Word) (t : Nat) : State :=
  if !s.access src then s
  else if src ≠ own ∨ s.is PROT R.PROT_CTRL_LIVE = false ∨ s.is PROT ok = true then s.refuse (PROT + f.off) RC_BOLT src
  else
    let s := (s.wr PROT f v.toNat).cfgWrite (PROT + f.off) src
    if v.toNat = s.rd PROT R.PROT_CHAL then (s.wr PROT ok 1).bothKeys else s.chalFail 3 t

/-- KEYA_WRITE: key A, over PCI Express. -/
def execKeyaWrite (src : Src) (v : Word) (ms : Fin 1000) (s : State) : Host.Outcome State Fault Refusal :=
  run s fun s => s.keyWrite src .pcie R.PROT_KEYA R.PROT_CTRL_AOK v (s.opMs ms)

/-- KEYB_WRITE: key B, over the Keyway. -/
def execKeybWrite (src : Src) (v : Word) (ms : Fin 1000) (s : State) : Host.Outcome State Fault Refusal :=
  run s fun s => s.keyWrite src .keyway R.PROT_KEYB R.PROT_CTRL_BOK v (s.opMs ms)

/-- KEY_WINDOW_EXPIRY: one correct key is held for 250 ms without the other. -/
def execKeyWindowExpiry (ms : Fin 1000) (s : State) : Host.Outcome State Fault Refusal :=
  run s fun s => s.gate (s.is PROT R.PROT_CTRL_LIVE && (s.is PROT R.PROT_CTRL_AOK || s.is PROT R.PROT_CTRL_BOK))
    (·.chalFail 4 (s.opMs ms))

/-- ARM_WINDOW_EXPIRY: no correct key within 10 s of ARM. -/
def execArmWindowExpiry (ms : Fin 1000) (s : State) : Host.Outcome State Fault Refusal :=
  run s fun s => s.gate (s.is PROT R.PROT_CTRL_LIVE && !s.is PROT R.PROT_CTRL_AOK && !s.is PROT R.PROT_CTRL_BOK)
    (·.chalFail 4 (s.opMs ms))

/-! ## Operating seconds and the lease (R363, R384) -/

/-- An operating minute of SERVICE has passed: LEASE counts down, and EV236 is raised at 5. -/
def State.leaseMinute (s : State) : State :=
  let s := s.modProt fun p => { p with leaseSec := 0 }
  let n := s.rd PROT R.PROT_STATE_LEASE
  let s := s.wr PROT R.PROT_STATE_LEASE (n - 1)
  s.gate (n == 6) fun s => s.raise 236 s.protWord

/-- OPERATING_SECOND: device time advances from the end of B1 until OFF, and a SERVICE lease by its second. -/
def execOperatingSecond (s : State) : Host.Outcome State Fault Refusal :=
  run s fun s => s.gate s.power.aon fun s =>
    let s := s.modReco fun r => { r with opsec := r.opsec + 1 }
    s.gate (s.rd PROT R.PROT_STATE_PSTATE == 2 && s.is PROT R.PROT_STATE_LEASE) fun s =>
      if 59 ≤ s.prot.leaseSec then s.leaseMinute else s.modProt fun p => { p with leaseSec := p.leaseSec + 1 }

/-- LEASE_EXPIRY: LEASE has reached 0 in SERVICE. -/
def execLeaseExpiry (s : State) : Host.Outcome State Fault Refusal :=
  run s fun s => s.gate (s.rd PROT R.PROT_STATE_PSTATE == 2 && !s.is PROT R.PROT_STATE_LEASE)
    (·.protChange (·.wr PROT R.PROT_STATE_PSTATE 1))

end Sys2Proof.Machine
end

