-- ==== Sys2Proof/Machine/Thermal.lean ====
section
/-! DEFINITION. Machine/Thermal.lean: the housekeeping evaluation (R283, R284, R347 to R361). Temperatures are in units of
0.125 °C. -/

namespace Sys2Proof.Machine

/-! ## Scrub of the tumblers (R281 to R284) -/

/-- What a split takes: the bitwise majority, the OR of the copies, their lowest, 0, or the protective state. -/
inductive SplitRule where
  | majority | union | lowest | zero | protect
  deriving DecidableEq, Repr

/-- The tumbler fields of the register at block offset `o` of a block. -/
def tumblers (b : Blk) (o : Nat) : List (Fld × SplitRule) :=
  match b with
  | .glb => if o = 8 then [(R.GLB_MODE_CUR, .majority)] else []
  | .gs _ =>
    if o = R.GS_BANDCFG_CEN_A.off then [(R.GS_BANDCFG_CEN_A, .zero), (R.GS_BANDCFG_CEN_B, .zero)]
    else if o = R.GS_POLICY_POL.off then [(R.GS_POLICY_POL, .zero)] else []
  | .flt =>
    if 0x10 ≤ o ∧ o < 0x50 then
      [(⟨o, 0, 5⟩, .union), (⟨o, 5, 1⟩, .union), (⟨o, 6, 1⟩, .union)]
    else if 0x50 ≤ o ∧ o < 0x94 then [(⟨o, 0, 32⟩, .union)]
    else if o = 0x94 then [(⟨o, 0, 2⟩, .union)]
    else if 0xA0 ≤ o ∧ o < 0xE0 then [(⟨o, 0, 10⟩, .union), (⟨o, 10, 1⟩, .union), (⟨o, 11, 1⟩, .union)]
    else if 0xE0 ≤ o ∧ o < 0x120 then [(⟨o, 0, 32⟩, .union)]
    else []
  | .hk =>
    if o = 0x100 then
      [(R.HK_TCFG_WARN, .lowest), (R.HK_TCFG_THROTTLE, .lowest), (R.HK_TCFG_SHUTDOWN, .lowest), (R.HK_TCFG_HYST, .lowest)]
    else if o = 0x104 then [(R.HK_TFLOOR, .majority)] else []
  | .prot => if o = 0 then [(R.PROT_STATE_PSTATE, .protect), (R.PROT_STATE_DBGMAX, .majority)] else []
  | .recd => if o = R.REC_FAILCNT.off then [(R.REC_FAILCNT, .majority)] else []
  | _ => []

/-- The value that a split of three copies takes (R284). A copy that holds protection state 3 acts as SEALED (R382) and counts as
holding it (assumption 30). -/
def SplitRule.value (r : SplitRule) (a b c : Nat) : Nat :=
  match r with
  | .majority => (a &&& b) ||| (a &&& c) ||| (b &&& c)
  | .union => a ||| b ||| c
  | .lowest => if a ≤ b ∧ a ≤ c then a else if b ≤ c then b else c
  | .zero => 0
  | .protect =>
    if a % 2 = 1 ∨ b % 2 = 1 ∨ c % 2 = 1 then 1 else if a = 2 ∨ b = 2 ∨ c = 2 then 2 else (a &&& b) ||| (a &&& c) ||| (b &&& c)

/-- One tumbler field whose copies the scrub finds unequal: each copy rewritten is counted; EV228, or EV229 for a split. -/
def State.scrubField (s : State) (base a : Nat) (f : Fld) (r : SplitRule) (x y z : Word) : State :=
  let g (w : Word) : Nat := getBits w f.lsb f.width
  let split := g x != g y && g x != g z && g y != g z
  let v := if split then r.value (g x) (g y) (g z) else SplitRule.majority.value (g x) (g y) (g z)
  let n := ([x, y, z].filter fun w => g w != v).length
  if n = 0 then s
  else
    let s := (s.wr base f v).inc GLB R.GLB_TMBDIS n
    if split then (s.inc GLB R.GLB_TMBSPLIT).raise 229 a else s.raise 228 a

/-- The scrub of one register whose three copies are given. -/
def State.scrub (s : State) (u : BitVec 24 × Word × Word × Word) : State :=
  let a := u.1.toNat / 4 * 4
  let o := a % 0x1000
  match blkAt a with
  | none => s
  | some b =>
    if !s.present a then s
    else
      let s := forAll (tumblers b o) (fun p s => s.scrubField (a - o) a p.1 p.2 u.2.1 u.2.2.1 u.2.2.2) s
      match b with
      | .gs g => s.gate (decide (o = R.GS_POLICY_POL.off)) (·.policyWritten g)
      | _ => s

/-- The scrub of a round (R283): units follow the maps, and PROT.STATE its events. -/
def State.scrubAll (s : State) (l : List (BitVec 24 × Word × Word × Word)) : State :=
  if l.isEmpty then s else s.repower fun s => s.protChange fun s => forAll l (fun u s => s.scrub u) s

/-! ## Sensors (R347 to R351) -/

/-- Sensor n is present (R347). -/
def State.hasSensor (s : State) (n : Nat) : Bool :=
  !(s.variant == .vl256f && (decide (8 ≤ n ∧ n < 16) || n == 18 || n == 19))

/-- The neighbours of sensor n; TS20 and TS21 also have the trip sensor of a power die. -/
def neighbours (n : Nat) : List Nat :=
  if n < 16 then
    (if n % 4 = 0 then [n + 1] else if n % 4 = 3 then [n - 1] else [n - 1, n + 1]) ++ [16 + n / 4]
  else if n < 20 then (List.range 4).map (4 * (n - 16) + ·)
  else if n = 20 then [21] else if n = 21 then [20] else if n = 22 then [16, 17] else [18, 19]

/-- Insertion into an ascending list. -/
def insertInt (x : Int) : List Int → List Int
  | [] => [x]
  | y :: ys => if x ≤ y then x :: y :: ys else y :: insertInt x ys

/-- Twice the median of a list; the median of an even number of values is the mean of the middle two. -/
def median2 (l : List Int) : Int :=
  let t := l.foldl (fun acc x => insertInt x acc) []
  t.getD ((t.length - 1) / 2) 0 + t.getD (t.length / 2) 0

/-- The largest of a list, or `d` when it is empty. -/
def maxInt (d : Int) (l : List Int) : Int := match l with
  | [] => d
  | x :: xs => xs.foldl (fun m y => if m < y then y else m) x

/-- The reading of sensor n. -/
def Round.read (r : Round) (n : Nat) : Int := toSigned 12 (r.reads.getD n 0).toNat

/-- Readings of the valid neighbours of sensor n. -/
def Round.near (r : Round) (valid : Nat → Bool) (n : Nat) : List Int :=
  ((neighbours n).filter valid).map r.read
    ++ (if n = 20 then [toSigned 12 r.tripA.toNat] else if n = 21 then [toSigned 12 r.tripB.toNat] else [])

/-- The reading of sensor n keeps RANGE and JUMP: 0, or the cause. -/
def State.ownCause (s : State) (r : Round) (n : Nat) : Nat :=
  let v := r.read n
  if v < -480 ∨ 1360 < v then 1
  else match (Tab.get {} s.therm.sens n).prev with
    | some p => if 160 < (v - p).natAbs then 2 else 0
    | none => 0

/-- Sensor n is present and not failed. -/
def State.sensorOk (s : State) (n : Nat) : Bool := s.hasSensor n && !s.is (HK + 4 * n) R.HK_SENS_FAIL

/-- The cause on which valid sensor n fails in this evaluation, or 0 (R349). A neighbour that fails RANGE or JUMP in the same
evaluation is not valid. -/
def State.failCause (s : State) (r : Round) (n : Nat) : Nat :=
  if s.ownCause r n ≠ 0 then s.ownCause r n
  else
    let l := r.near (fun k => s.sensorOk k && s.ownCause r k == 0) n
    if 2 ≤ l.length ∧ 400 < (2 * r.read n - median2 l).natAbs then 3 else 0

/-- Changes what is kept of sensor n. -/
def State.modSensor (s : State) (n : Nat) (f : Sensor → Sensor) : State :=
  s.modTherm fun t => { t with sens := Tab.set {} t.sens n (f (Tab.get {} t.sens n)) }

/-- Sensor n fails: counted, and locked out at its third failure since BOOT. -/
def State.sensorFails (s : State) (n cause : Nat) : State :=
  let b := HK + 4 * n
  let s := (s.wr b R.HK_SENS_FAIL 1).wr b R.HK_SENS_CAUSE cause
  let s := s.modSensor n fun x => { x with good := 0, fails := x.fails + 1, below := [0, 0, 0, 0, 0] }
  let s := s.gate (decide (3 ≤ (Tab.get {} s.therm.sens n).fails)) (·.wr b R.HK_SENS_LOCKOUT 1)
  s.inc HK R.HK_SFAILCNT

/-- A failed sensor n has a good evaluation (R351), or its run of them ends; at 64 it is valid again. -/
def State.sensorMends (s : State) (r : Round) (own : Nat) (valid : Nat → Bool) (n : Nat) : State :=
  let b := HK + 4 * n
  let l := r.near valid n
  if own = 0 ∧ 2 ≤ l.length ∧ (2 * r.read n - median2 l).natAbs ≤ 80 then
    let k := (Tab.get {} s.therm.sens n).good + 1
    let s := s.modSensor n fun x => { x with good := k }
    if 64 ≤ k ∧ s.is b R.HK_SENS_LOCKOUT = false then
      (((s.wr b R.HK_SENS_FAIL 0).wr b R.HK_SENS_CAUSE 0).wr b R.HK_SENS_SUBV 0).modSensor n fun x =>
        { x with good := 0, subst := 0, below := [0, 0, 0, 0, 0] }
    else s
  else s.modSensor n fun x => { x with good := 0 }

/-- Sensors are judged: failures on the readings of this round, then returns; READ and SFAIL follow. -/
def State.judge (s : State) (r : Round) : State :=
  let s0 := s
  let ns := (List.range 24).filter s.hasSensor
  let s := forAll (ns.filter s0.sensorOk) (fun n s =>
    let c := s0.failCause r n
    s.gate (c != 0) (·.sensorFails n c)) s
  let s1 := s
  let s := forAll (ns.filter fun n => !s0.sensorOk n) (fun n s => s.sensorMends r (s0.ownCause r n) s1.sensorOk n) s
  let s := forAll ns (fun n s =>
    (s.wr (HK + 4 * n) R.HK_SENS_READ (r.reads.getD n 0).toNat).modSensor n fun x => { x with prev := some (r.read n) }) s
  let failed := ns.filter fun n => !s.sensorOk n
  let s := s.wr HK R.HK_SFAIL (failed.foldl (fun m n => m + 2 ^ n) 0)
  s.wr HK R.HK_TSTAT_NFAIL failed.length

/-! ## Temperatures (R350, R353) -/

/-- T_REP, each substitute and T_CTL: the state with them, and T_CTL. -/
def State.temps (s : State) (r : Round) : State × Int :=
  let ns := (List.range 24).filter s.hasSensor
  let ok := ns.filter s.sensorOk
  let bad := ns.filter fun n => !s.sensorOk n
  let trep := maxInt (toSigned 12 (Config.noTemp s.freeCtr).toNat) (ok.map r.read)
  let s := s.gate ok.isEmpty (·.tick)
  let sub (n : Nat) : Int := maxInt trep (r.near s.sensorOk n) + 80
  let s := forAll bad (fun n s =>
    (s.wr (HK + 4 * n) R.HK_SENS_SUBV (ofSigned 8 (-(-(sub n) / 8)))).modSensor n fun x => { x with subst := sub n }) s
  let tctl := maxInt trep (bad.map sub)
  let real := decide (trep = tctl)
  let hot := if real then (ok.find? fun n => r.read n == tctl).getD 0 else (bad.find? fun n => sub n == tctl).getD 0
  let up (t : Int) : Nat := ofSigned 8 (-(-t / 8))
  let s := (s.wr HK R.HK_TEMP_TREP (up trep)).wr HK R.HK_TEMP_TCTL (up tctl)
  ((s.wr HK R.HK_TEMP_HOT hot).wr HK R.HK_TEMP_SUBST (b2n (!real)), tctl)

/-! ## Levels (R354 to R358) -/

/-- A field of the thresholds in force, in units of 0.125 °C. -/
def State.thr (s : State) (f : Fld) : Int := 8 * (getBits s.therm.inf f.lsb f.width : Nat)

/-- Thresholds are legal (R354). -/
def thrLegal (w : Word) : Bool :=
  let g (f : Fld) : Nat := getBits w f.lsb f.width
  decide (60 ≤ g R.HK_TCFG_WARN) && decide (g R.HK_TCFG_WARN < g R.HK_TCFG_THROTTLE)
    && decide (g R.HK_TCFG_THROTTLE + 8 ≤ g R.HK_TCFG_SHUTDOWN) && decide (g R.HK_TCFG_SHUTDOWN ≤ 125)
    && decide (2 ≤ g R.HK_TCFG_HYST) && decide (g R.HK_TCFG_HYST ≤ 15)

/-- The written thresholds come into force, or ILLEG reads 1. -/
def State.takeThresholds (s : State) : State :=
  let w := s.word (HK + R.HK_TCFG_WARN.off)
  if thrLegal w then (s.modTherm fun t => { t with inf := w }).wr HK R.HK_TSTAT_ILLEG 0 else s.wr HK R.HK_TSTAT_ILLEG 1

/-- Entry points of T1, T2, T3, WARN and SHUTDOWN. -/
def State.entries (s : State) : List Int :=
  let t := s.thr R.HK_TCFG_THROTTLE
  [t, t + 32, t + 56, s.thr R.HK_TCFG_WARN, s.thr R.HK_TCFG_SHUTDOWN]

/-- Each substitute counts the evaluations in which it stayed below each release point (R356). -/
def State.countBelow (s : State) : State :=
  let rel := s.entries.map fun e => e - s.thr R.HK_TCFG_HYST
  let ns := (List.range 24).filter fun n => s.hasSensor n && !s.sensorOk n
  forAll ns (fun n s => s.modSensor n fun x =>
    { x with below := rel.zipIdx.map fun p => if x.subst < p.1 then satTo 8 (x.below.getD p.2 0 + 1) else 0 }) s

/-- Every substitute has stayed below release point k for at least 8 evaluations. -/
def State.subsBelow (s : State) (k : Nat) : Bool :=
  ((List.range 24).filter fun n => s.hasSensor n && !s.sensorOk n).all fun n =>
    decide (8 ≤ (Tab.get {} s.therm.sens n).below.getD k 0)

/-- T_CTL lies below release point k. -/
def State.released (s : State) (t : Int) (k : Nat) : Bool := decide (t < s.entries.getD k 0 - s.thr R.HK_TCFG_HYST)

/-- The throttle level of this evaluation (R355, R356). -/
def State.levelStep (s : State) (t : Int) : State :=
  let e := s.entries
  let floor := satTo 2 (s.rd HK R.HK_TFLOOR)
  let entered := if e.getD 2 0 ≤ t then 3 else if e.getD 1 0 ≤ t then 2 else if e.getD 0 0 ≤ t then 1 else 0
  let up := if entered < floor then floor else entered
  let old := s.throttle
  let cool := decide (up < old) && s.released t (old - 1)
  let new := if old < up then up else if cool && s.subsBelow (old - 1) then old - 1 else old
  let s := s.wr HK R.HK_TSTAT_HELD (b2n (cool && !s.subsBelow (old - 1)))
  let s := s.wr HK R.HK_TSTAT_LEVEL new
  let s := s.gate (decide (old < new)) (·.inc HK R.HK_THRCNT)
  let s := s.gate (old != new) fun s => s.raise 221 (new + 256 * s.rd HK R.HK_TEMP_HOT)
  s.gate (new != 0) fun s =>
    forAll ((s.cmds.filter fun c => c.phase != .done).map (·.handle)) (fun h s => s.cmdFlag h CF_THROTTLED) s

/-- WARN and SHUTDOWN (R358). -/
def State.warnStep (s : State) (t : Int) : State :=
  let e := s.entries
  let s := if e.getD 3 0 ≤ t then s.wr HK R.HK_TSTAT_WARN 1
    else s.gate (s.released t 3 && s.subsBelow 3) (·.wr HK R.HK_TSTAT_WARN 0)
  let shut := decide (e.getD 4 0 ≤ t)
  let s := s.wr HK R.HK_TSTAT_SHUT (b2n shut)
  if shut then
    (s.gate (!s.therm.shutHolds) (·.inc HK R.HK_SHUTCNT)).modTherm fun x => { x with shutHolds := true }
  else s.gate (s.released t 4 && s.subsBelow 4) (·.modTherm fun x => { x with shutHolds := false })

/-! ## The record of temperatures (R368) -/

/-- The temperature bin of a value. -/
def tempBin (t : Int) : Nat := ([0, 40, 70, 90, 105, 115, 125].filter fun (b : Int) => decide (8 * b ≤ t)).length

/-- The sensor group of sensor n. -/
def sensorGroup (n : Nat) : Nat := if n < 16 then 0 else if n < 20 then 1 else if n < 22 then 2 else 3

/-- The round enters the recorder's histograms and extremes. -/
def State.recTemps (s : State) (r : Round) : State :=
  let ns := (List.range 24).filter s.hasSensor
  let shown (n : Nat) : Int := if s.sensorOk n then r.read n else (Tab.get {} s.therm.sens n).subst
  let s := forAll (List.range 4) (fun g s =>
    match (ns.filter fun n => sensorGroup n == g).map shown with
    | [] => s
    | x :: xs => s.modReco fun q =>
      { q with period := { q.period with
          thist := bumpTab q.period.thist (8 * g + tempBin (maxInt 0 (x :: xs))) r.dur.toNat (2 ^ 64) } }) s
  forAll (ns.filter s.sensorOk) (fun n s => s.modReco fun q =>
    let p := q.period
    let v := r.read n
    let hi := !p.seen || decide (p.tmax < v)
    let lo := !p.seen || decide (v < p.tmin)
    { q with period := { p with seen := true, tmax := if hi then v else p.tmax, tmaxs := if hi then n else p.tmaxs,
                                tmin := if lo then v else p.tmin, tmins := if lo then n else p.tmins } }) s

/-! ## The evaluation -/

/-- SAFE for SHUTDOWN, or for three failed sensors (R352, R358, R361). -/
def State.thermalSafe (s : State) : State :=
  let s := s.gate (s.is HK R.HK_TSTAT_SHUT) (·.safeCause SC_SHUTDOWN)
  s.gate (decide (3 ≤ s.rd HK R.HK_TSTAT_NFAIL)) (·.safeCause SC_SENSORS)

/-- HK_EVALUATION. `copies`: the registers whose tumbler copies the scrub finds unequal; `levels`: the sets whose level DACs read
back wrong (R334). -/
def execHkEvaluation (r : Round) (copies : List (BitVec 24 × Word × Word × Word)) (levels : List (Fin 528)) (ms : Fin 1000)
    (s : State) : Host.Outcome State Fault Refusal :=
  run s fun s => s.gate (s.power.aon && (s.mode != MODE_BOOT || decide (4 ≤ s.power.bootPhase))) fun s =>
    let s := s.scrubAll copies
    let s := forAll levels (fun c s => s.setDetected c FC_LEVEL ms) s
    let s := s.takeThresholds.judge r
    let (s, t) := s.temps r
    let s := ((s.countBelow.levelStep t).warnStep t).recTemps r
    s.thermalSafe.modTherm fun x => { x with safeRound := false }

end Sys2Proof.Machine
end

