-- ==== Sys2Proof/Machine/View.lean ====
section
/-! DEFINITION. Machine/View.lean: what a read of BAR0 returns (R270, R289, R291, R292): the stored word with the live bits
that follow from the module's own state. No read changes anything. -/

namespace Sys2Proof.Machine

/-- `w` with field `f` holding `v`. -/
def putFld (w : Word) (f : Fld) (v : Nat) : Word := putBits w f.lsb f.width v

/-- `w` with the one-bit field `f` showing `b`. -/
def putFlag (w : Word) (f : Fld) (b : Bool) : Word := putFld w f (b2n b)

/-! ## Absent registers (R4, R415) -/

/-- The register at reduced offset `o` of block `b` is one that the variant removes, though its block is there. -/
def State.absentReg (s : State) (b : Blk) (o : Nat) : Bool :=
  let upper (lo : Nat) : Bool := decide (lo + 0x20 ≤ o) && decide (o < lo + 0x40)
  match s.variant, b with
  | .vl512d, .out _ => (decide (0x220 ≤ o) && decide (o < 0x230)) || (decide (0x440 ≤ o) && decide (o < 0x458))
  | .vl256f, .hif => upper 0x380
  | .vl256f, .flt => upper 0x10 || upper 0x50 || upper 0xA0 || upper 0xE0
  | .vl256f, .hk => upper 0x140 || o == 0x188 || o == 0x18C
  | _, _ => false

/-! ## Groups -/

/-- GS*g*: HOLDSTAT, SWSTAT, PSTAT and LSTAT of both leaves. -/
def State.viewGs (s : State) (g o : Nat) (w : Word) : Word :=
  let x := s.grp g
  if o = 0x44 then
    let w := putFlag w R.GS_HOLDSTAT_COAST (s.coasting g)
    let w := putFlag w R.GS_HOLDSTAT_PAUSED (s.pausedGrp g)
    putFlag w R.GS_HOLDSTAT_OFSNZ (decide (x.epofs ≠ 0))
  else if o = 0x64 then
    let w := putFlag w R.GS_SWSTAT_GUARD (s.guardIn g)
    let w := putFlag w R.GS_SWSTAT_EXPOSED (s.exposed g)
    putFlag w R.GS_SWSTAT_UNANCH (s.unanch g)
  else if o = 0x304 then
    let heat := (x.replay ++ x.steps).any fun t => decide (3 ≤ s.throttle) || s.t2Waits g t.sites
    let now : List Nat := (List.range 4).map fun i => s.rd (GS g + 4 * i) R.GS_SITE_MAP
    let cfg : List Nat := (List.range 4).map fun i => (s.word (GS g + 4 * i + 0x330)).toNat
    let w := putFlag w R.GS_PSTAT_TWAIT heat
    putFlag w R.GS_PSTAT_SITEPEND (x.on && !(now == x.siteMap && cfg == x.siteCfg))
  else if o = 0x110 then putFlag w R.LP_LSTAT_CFGPEND (s.cfgPend (2 * g))
  else if o = 0x210 then putFlag w R.LP_LSTAT_CFGPEND (s.cfgPend (2 * g + 1))
  else w

/-- OUT*g*: OSTAT of each output, and PW_STAT. An output that is off reads its reset value (R289). -/
def State.viewOut (s : State) (g o : Nat) (w : Word) : Word :=
  if o < 0x240 ∧ o % 16 = 12 then
    let k := o / 16
    let x := s.outSet g k
    if !x.on then 0
    else
      let d := s.outDue g k
      let pend := decide (k ≠ 34) && !(decide (d.odiv = x.odiv) && decide (d.ps = x.ps) && decide (d.frac = x.frac)
        && decide (d.coarse = x.coarse) && decide (d.fine = x.fine))
      let w := putFlag w R.OP_OSTAT_PEND pend
      let w := putFlag w R.OP_OSTAT_ON true
      let w := putFlag w R.OP_OSTAT_LIVE (s.outLive g k)
      let w := putFlag w R.OP_OSTAT_PARKED (s.treeLow g || decide (s.mode = MODE_SAFE))
      putFlag w R.OP_OSTAT_ILLEG (!(s.outDue g k).legal)
  else if o = 0x448 then
    let x := s.grp g
    let pend := x.on && !(decide (s.rd (OUT g) R.OUT_PW_CFG_SRC = x.pwSrc) && (s.is (OUT g) R.OUT_PW_CFG_EN == x.pwEn)
      && decide (s.rd (OUT g) R.OUT_PW_OFS = x.pwOfs))
    let w := putFlag w R.OUT_PW_STAT_PEND pend
    let w := putFlag w R.OUT_PW_STAT_RUN (s.wordsRun g)
    let w := putFlag w R.OUT_PW_STAT_ILLEG (x.on && !s.pwLegal g)
    let w := putFlag w R.OUT_PW_STAT_UNSET (x.pwEn && s.unset g)
    putFlag w R.OUT_PW_STAT_CONT (x.pwEn && s.contNow g)
  else w

/-! ## Channels and engines -/

/-- Status of unit u as CALINFO and CAL.CTRL READ report it: NOCAL until a unit has accepted values (R316). -/
def State.calStatus (s : State) (u : Nat) : Nat :=
  let x := s.calUnit u
  if !x.accepted && x.status == 0 then 5 else x.status

/-- CH*c* and SP*g*: CSTAT and CALINFO. -/
def State.viewCh (s : State) (c o : Nat) (w : Word) : Word :=
  let g := if c < 512 then c / 32 else c - 512
  if o = 4 then
    let cal := (s.chan c).cal || s.calCurrent g == some (setUnit c)
    let m := if !s.setOn c then 0 else if cal then 5 else s.infF c R.CH_CMODE_MODE
    let site := decide (c < 512) && match (s.grp g).siteOf (c % 32) with
      | some i => (s.grp g).siteEn i
      | none => false
    let w := putFld w R.CH_CSTAT_MODEIF m
    let w := if m = 4 then w else putFlag w R.CH_CSTAT_PCLAMP false
    putFlag w R.CH_CSTAT_INSITE site
  else if o = 0x23C then
    let u := setUnit c
    let x := s.calUnit u
    let w := putFld w R.CH_CALINFO_STATUS (s.calStatus u)
    let w := putFld w R.CH_CALINFO_CQ (x.summary u)
    let w := putFld w R.CH_CALINFO_TEMP x.temp
    let w := putFlag w R.CH_CALINFO_NOCAL (!x.accepted)
    putFlag w R.CH_CALINFO_TRPEND (s.trimPend (CH c + 0x200) 0x100)
  else w

/-- ENG*e* and ES*s* (R216, R217, R240): the window of a logical engine reaches the spare that serves it. -/
def State.viewEng (s : State) (e o : Nat) : Word :=
  let p := s.physEng e
  let x := s.eng p
  let w := s.word (ENG p + o)
  if o = 0x30 then (if e < 512 then 0 else w)
  else if o = 4 then
    let w := putFld 0 R.ENG_ESTAT_STATE x.st
    let w := putFlag w R.ENG_ESTAT_CRCBUSY x.crcBusy
    let w := putFld w R.ENG_ESTAT_WAITON x.waitOn
    let w := putFlag w R.ENG_ESTAT_SPARE (decide (p ≠ e))
    putFld w R.ENG_ESTAT_PC x.pc
  else if o = 0xC then BitVec.ofNat 32 x.imgcrc
  else if o = 0x20 then
    let w := putFld 0 R.ENG_LEVELS_SFIFO (x.fifo.filter fun i => !i.mark).length
    let w := putFld w R.ENG_LEVELS_INBOX x.inboxWords
    putFld w R.ENG_LEVELS_CFIFO x.cfifo.length
  else if o < 0x40 then w
  else if 0x1000 ≤ o ∧ o < 0x2000 then Tab.get 0 x.prog ((o - 0x1000) / 4)
  else if 0x2000 ≤ o then x.dm ((o - 0x2000) / 4)
  else 0

/-! ## Module blocks -/

/-- HIF: RSTAT.CQFULL of each ring, and HSTAT of each group. -/
def State.viewHif (s : State) (o : Nat) (w : Word) : Word :=
  if 0x100 ≤ o ∧ o < 0x210 ∧ o % 16 = 0 then
    let r := (o - 0x100) / 16
    putFlag w R.HIF_RSTAT_CQFULL (!(s.ring r).waiting.isEmpty && s.cqFull r)
  else if 0x380 ≤ o ∧ o < 0x3C0 then
    let g := (o - 0x380) / 4
    let mine := s.holds.filter fun h => h.granted && bitOf h.groups g
    mine.foldl (fun w h =>
      putFlag w ⟨0, (if h.guarded then 16 else 0) + h.ring % 16, 1⟩ true) (0 : Word)
  else w

/-- Bank b has a free spare engine. -/
def State.spareEngLeft (s : State) (b : Nat) : Bool :=
  (List.range 4).any fun i =>
    let a := FLT + 4 * (4 * b + i)
    !s.is a R.FLT_ESMAP_RETIRED && !s.is a R.FLT_ESMAP_SERVES && s.spareIdle (512 + 4 * b + i)
      && (s.eng (512 + 4 * b + i)).copyFrom.isNone

/-- FLT.STAT. -/
def State.viewFlt (s : State) (o : Nat) (w : Word) : Word :=
  if o ≠ 4 then w
  else
    let gs := List.range s.variant.groups
    let used (g : Nat) : Bool :=
      s.is (SPM g) R.FLT_SPMAP_SERVES || s.is (SPM g) R.FLT_SPMAP_SPRET || (s.chan (512 + g)).serves.isSome
    let w := putFlag w R.FLT_STAT_GRPDOWN (gs.any s.grpDown)
    let w := putFlag w R.FLT_STAT_SPUSED (gs.any used)
    let w := putFlag w R.FLT_STAT_ESEXH ((List.range (s.variant.groups / 4)).any fun b => !s.spareEngLeft b)
    let w := putFlag w R.FLT_STAT_CHDOWN (gs.any fun g => s.is (FLT + 4 * g) R.FLT_CHDOWN)
    let w := putFlag w R.FLT_STAT_EDOWN (gs.any fun g => s.is (FLT + 4 * g) R.FLT_EDOWN)
    let w := putFlag w R.FLT_STAT_SYSONE (decide (s.rd FLT R.FLT_SYSRET ≠ 0))
    putFlag w R.FLT_STAT_STORE s.flt.store.isSome

/-- CAL.STAT.PHASE: the reference check until the run's first measurement (assumption 66), then what the least advanced group of
the run is doing. -/
def State.calPhase (s : State) : Nat :=
  let gs := (List.range s.variant.groups).filter fun g => bitOf s.cal.groups g
  let phase (g : Nat) : Nat :=
    if s.precondLeft g then 2
    else match s.calCurrent g with
      | some u => if u < 528 then 5 else if u < 562 then 3 else 4
      | none => 5
  if !s.cal.run then 0
  else if s.cal.reached.isEmpty then 1
  else if (s.calCurrent 16).isSome then 3
  else gs.foldl (fun m g => if phase g < m then phase g else m) 5

/-- The temperature of group g has left the one at its last calibration by more than CAL.CFG.TWARN. -/
def State.tdrift (s : State) (g : Nat) : Bool :=
  let u := Tab.get (33 * g) s.cal.gcal g
  let x := s.calUnit u
  let d := s.rd CAL R.CAL_CFG_TWARN
  x.accepted && decide (8 * (if d = 0 then 10 else d) < (s.groupTemp g - 8 * toSigned 8 x.temp).natAbs)

/-- CAL: STAT, GSTAT and SLOT. -/
def State.viewCal (s : State) (o : Nat) (w : Word) : Word :=
  let gs := List.range s.variant.groups
  if o = 0x1C then
    let us := (List.range 562).filter fun u => unitGroup u == 16 || s.hasGroup (unitGroup u)
    let lp := (List.range 34).any (fun n => (s.leaf n).on && s.trimPend (CAL + 0x400 + 8 * n) 8)
      || gs.any fun g => (s.grp g).on && s.trimPend (OUT g + 0x600) 0x90
    let w := putFld w R.CAL_STAT_PHASE s.calPhase
    let w := putFlag w R.CAL_STAT_NOCAL (us.any fun u => !(s.calUnit u).accepted)
    putFlag w R.CAL_STAT_LPEND lp
  else if o = 0x20 then
    gs.foldl (fun w g =>
      let w := putFlag w ⟨0, g, 1⟩ (s.tdrift g)
      putFlag w ⟨0, 16 + g, 1⟩ (s.is (SPM g) R.FLT_SPMAP_SERVES)) (0 : Word)
  else if o = 0x24 then BitVec.ofNat 32 s.calSlotWord
  else w

/-- Some active level event is routed to EVENT_n (R408). -/
def State.pinLevel (s : State) : Bool :=
  s.active.any fun x => bitOf (s.word (EVT + R.EVT_PMASK_0.off + 4 * (x.1 / 32))).toNat (x.1 % 32)

/-- The board controller has not acknowledged every pin-routed event. -/
def State.pinUnseen (s : State) : Bool := s.word (EVT + R.EVT_PCOUNT.off) != s.word (EVT + R.EVT_PSEEN.off)

/-- EVENT_n is asserted (R408). -/
def State.eventPin (s : State) : Bool := s.pinLevel || s.pinUnseen || decide (s.mode = MODE_SAFE)

/-- EVT: ACT and PSTAT. -/
def State.viewEvt (s : State) (o : Nat) (w : Word) : Word :=
  if 0x40 ≤ o ∧ o < 0x60 then
    (s.active.filter fun x => decide (x.1 / 32 = (o - 0x40) / 4)).foldl (fun w x => putFlag w ⟨0, x.1 % 32, 1⟩ true) (0 : Word)
  else if o = 0x68 then
    let w := putFlag 0 R.EVT_PSTAT_PIN s.eventPin
    let w := putFlag w R.EVT_PSTAT_LEVEL s.pinLevel
    let w := putFlag w R.EVT_PSTAT_UNSEEN s.pinUnseen
    putFlag w R.EVT_PSTAT_SAFE (decide (s.mode = MODE_SAFE))
  else w

/-- KWY.STAT with its live bits. -/
def State.kwStat (s : State) : Word :=
  let w := s.word (KWY + R.KWY_STAT_LAST.off)
  let w := putFlag w R.KWY_STAT_PEND (!s.kw.bufs.isEmpty)
  putFlag w R.KWY_STAT_FULL (decide (2 ≤ s.kw.bufs.length))

/-- MSC on a VL512-FS reports a chain of one (R155). -/
def State.viewMsc (s : State) (o : Nat) (w : Word) : Word :=
  if s.variant.mc then w
  else if o = 8 then putFld w R.MSC_STAT_STATE 5
  else if o = 0xC then putFld w R.MSC_CHAIN_LEN 1
  else w

/-- A read of BAR0 address `a` (R270, R291, R292). -/
def State.readReg (s : State) (a : Nat) : Word :=
  let a := a / 4 * 4
  match blkAt a with
  | none => 0
  | some b =>
    let o := reduceOff b a
    let w := s.word (b.base + o)
    if !s.present a || s.absentReg b o then 0
    else match b with
      | .gs g => s.viewGs g o w
      | .out g => s.viewOut g o w
      | .ch c => s.viewCh c o w
      | .eng e => s.viewEng e o
      | .hif => s.viewHif o w
      | .kwy => if o = 4 then s.kwStat else w
      | .recd => if o = 0x20 then putFlag w R.REC_STAT_TIMEVAL (s.power.aon && !s.reco.timeUnk) else w
      | .cal => s.viewCal o w
      | .msc => s.viewMsc o w
      | .sys => if o = 0x110 then putFlag w R.LP_LSTAT_CFGPEND (s.cfgPend 32)
        else if o = 0x210 then putFlag w R.LP_LSTAT_CFGPEND (s.cfgPend 33) else w
      | .evt => s.viewEvt o w
      | .flt => s.viewFlt o w
      | _ => w

end Sys2Proof.Machine
end

