-- ==== Sys2Proof/Machine/Bus.lean ====
section
/-! DEFINITION. Machine/Bus.lean: a software write on the register bus (R272 to R279, R288 to R292): by the access code of each
field, or by the command of the row that the register has of its own, with the operands that the write carries. -/

namespace Sys2Proof.Machine

/-! ## Bolted fields (R278, R320, R385) -/

/-- The bolt of the register at `o` of block `b` is closed: trims and CAL.CFG.NOCHG and HK.TFLOOR in SEALED, a trim of a unit under
calibration, and the sealed digests always. -/
def State.boltClosed (s : State) (b : Blk) (o : Nat) : Bool :=
  match b with
  | .prot => true
  | .hk => s.sealed
  | .cal => s.sealed || (decide (0x400 ≤ o) && s.underCal (528 + (o - 0x400) / 8))
  | .out g => s.sealed || s.underCal (odUnit g)
  | .ch c => s.sealed || s.underCal (setUnit c)
  | _ => false

/-! ## Registers without a request (R272) -/

/-- The group of a block, if it has one, is switched on. -/
def State.groupUp (s : State) (b : Blk) : Bool :=
  match b with
  | .gs g | .out g | .rt g => (s.grp g).on
  | _ => true

/-- What follows a write of plain fields at offset `o` of block `b`: a channel's settings wait (R175), a policy waits (R146), a trim acts
(R318), and an enumeration no longer waits for a closed port (R156). -/
def State.afterWrite (s : State) (b : Blk) (o : Nat) : State :=
  match b with
  | .ch c =>
    if 0x200 ≤ o then s.trimWritten (CH c + o)
    else s.gate (o == 0 || (decide (8 ≤ o) && decide (o < 0x20)) || decide (0x100 ≤ o)) (·.wr (CH c) R.CH_CSTAT_PEND 1)
  | .cal => s.gate (decide (0x400 ≤ o)) (·.trimWritten (CAL + o))
  | .out g => s.gate (decide (0x600 ≤ o)) (·.trimWritten (OUT g + o))
  | .gs g => s.gate (o == 0x60) (·.policyWritten g)
  | .msc => s.gate (o == 0 && s.chain.enumBusy && !s.dnOpen) (·.dnChanged)
  | _ => s

/-- A write of the register with access row `r` at offset `o` of block `b`, made at address `a`, in which no request is set: RW, SH
and CNT bits take the written value, a bolted field where its bolt is open; a bolted or protective field that the write would
change is refused alone, and an SHP field whose hardware update falls in the same cycle (`met`) is refused whatever the write
carries (R276 to R278). Where the write takes no field, as where it carries the held value of a closed field, nothing follows. -/
def State.fieldWrite (s : State) (src : Src) (b : Blk) (o a : Nat) (r : RegRow) (v : Word) (met : Bool) : State :=
  let at_ := b.base + o
  let old := s.word at_
  let differ (m : Nat) : Bool := decide ((old ^^^ v) &&& BitVec.ofNat 32 m ≠ 0)
  let closed := s.boltClosed b o
  let bolt := if closed then 0 else r.bolt
  let m := BitVec.ofNat 32 (r.rw ||| r.sh ||| r.cn ||| bolt)
  let s := s.setWord at_ ((old &&& ~~~ m) ||| (v &&& m))
  let s := s.gate (differ r.shp || (met && decide (r.shp ≠ 0))) (·.refuse a RC_SHP src)
  let s := s.gate (closed && differ r.bolt) (·.refuse a RC_BOLT src)
  if r.rw ||| r.sh ||| bolt ||| (r.cn &&& r.tmb) = 0 then s
  else ((s.cfgWrite at_ src).gate (decide (r.img &&& (r.rw ||| r.sh ||| bolt) ≠ 0)) (·.configured)).afterWrite b o

/-- The block that holds the registers written through block `b`: for an engine served by a spare, the spare's (R240). -/
def State.servingBlk (s : State) : Blk → Blk
  | .eng e => .eng (if e < 512 then s.physEng e else e)
  | b => b

/-! ## Requests set by a write (R275) -/

/-- The request at offset `o` of block `b` whose word `v` sets a GO field: the command of its row. For a register with two GO
fields, `second` names the second. -/
def busGo (src : Src) (b : Blk) (o : Nat) (v : Word) (second : Bool) (m : Meas) (s : State) :
    Host.Outcome State Fault Refusal :=
  let f (lsb n : Nat) : Nat := getBits v lsb n
  let bit (lsb : Nat) : Bool := getBits v lsb 1 == 1
  match b with
  | .glb => match f 0 3 with
    | 0 => execModeReqOff src s
    | 2 => execModeReqStandby src s
    | 3 => execModeReqConfigure src s
    | 4 => execModeReqArmed src s
    | 6 => execModeReqCalibrate src m.w0 m.w1 s
    | 7 => execModeReqSafe src s
    | t => execModeReqIllegalTarget src (t == 5) s
  | .prot => if second then execAbort src s else execArm src m.ms s
  | .hif =>
    let r := BitVec.ofNat 5 (f 0 5)
    match f 5 3 with
    | 0 => execRsetRead src r s
    | 1 => execRsetConfigure src r s
    | 2 => execRsetEnable src r s
    | 3 => execRsetStop src r s
    | 4 => execRsetDisable src r s
    | n => execRsetReservedOp src (Fin.ofNat 3 (n - 5)) r s
  | .recd => match f 0 3 with
    | 0 => execRecRead src s
    | 1 => execRecLive src s
    | 2 => execRecTime src s
    | 3 => execRecSetepoch src s
    | 4 => execRecWrite src m.flag s
    | n => execRecReservedOp src (Fin.ofNat 3 (n - 5)) s
  | .cal =>
    let i := BitVec.ofNat 10 (f 10 10)
    match f 0 3 with
    | 0 => execCalRead src i s
    | 1 => execCalRecord src i s
    | 2 => execCalStore src i s
    | 3 => execCalCheckref src i m.w0 m.w1 s
    | n => execCalReservedOp src i (Fin.ofNat 4 (n - 4)) s
  | .msc =>
    if o = 0x4 then
      match f 0 3 with
      | 0 => execMscEnum src s
      | 1 => execMscRemeasure src s
      | 2 => execMscSched src s
      | n => execMscReservedOp src (Fin.ofNat 5 (n - 3)) s
    else if o = 0x20 then
      if bit 3 then execMbWriteNewbase src (BitVec.ofNat 3 (f 0 3)) s else execMbRead src (BitVec.ofNat 3 (f 0 3)) s
    else if o = 0x60 then execMessageSend src (BitVec.ofNat 12 (f 0 12)) (bit 12) m.flag s
    else execMessagePop src s
  | .sys =>
    if o = 0x20 then execEpochSnapshot src s
    else
      let n := Fin.ofNat 34 (32 + (o / 0x100 - 1))
      match f 0 2 with
      | 0 => execRmbRead src n m.w0 m.w1 m.w2 s
      | 1 => execRmbStage src n m.w0 m.w1 m.w2 s
      | 2 => execRmbStep src n m.w0 m.w1 m.w2 m.vt s
      | _ => execRmbReservedOp src n m.w0 m.w1 m.w2 s
  | .gs k =>
    let g := Fin.ofNat 16 k
    let i := BitVec.ofNat 12 (f 0 12)
    if o = 0x4 then
      match f 12 2 with
      | 0 => execRctlStart src g i (bit 14) s
      | 1 => execRctlNext src g i s
      | 2 => execRctlStop src g i s
      | _ => execRctlReservedOp src g i s
    else if o = 0xC then
      if bit 12 then execHopctlHopStaged src g i s else execHopctlHopWaypoint src g i s
    else if o = 0x40 then execClrofsRequest src g (BitVec.ofNat 2 (f 0 2)) (bit 2) (BitVec.ofNat 7 (f 4 7)) s
    else if o = 0x48 then execPjSnapshot src g (bit 0) s
    else if o = 0x60 then execPolicyForce src g (bit 0) (bit 1) (BitVec.ofNat 4 (f 4 4)) s
    else if o = 0x340 then
      if bit 0 then execPmbWrite src g (bit 1) s else execPmbRead src g (bit 1) s
    else
      let n := Fin.ofNat 34 (2 * k + (o / 0x100 - 1))
      match f 0 2 with
      | 0 => execRmbRead src n m.w0 m.w1 m.w2 s
      | 1 => execRmbStage src n m.w0 m.w1 m.w2 s
      | 2 => execRmbStep src n m.w0 m.w1 m.w2 m.vt s
      | _ => execRmbReservedOp src n m.w0 m.w1 m.w2 s
  | .out k =>
    let g := Fin.ofNat 16 k
    let sel := BitVec.ofNat 6 (f 0 6)
    let avg := BitVec.ofNat 4 (f 8 4)
    if o = 0x420 then execApply src g (bit 0) m.flag s
    else match f 6 2 with
      | 0 => execPmMeasure src g sel avg s
      | 1 => execPmAnchor src g sel avg s
      | n => execPmReservedOp src g (n == 3) sel avg s
  | .rt k =>
    let g := Fin.ofNat 16 k
    match f 0 3 with
    | 0 => execRdWp src g (bit 3) s
    | 1 => execWrWp src g (bit 3) s
    | 2 => execRdRat src g (bit 3) s
    | 3 => execWrRat src g (bit 3) s
    | 4 => execRdCb src g (bit 3) s
    | 5 => execWrCb src g (bit 3) s
    | 6 => execRtClr src g (bit 3) s
    | _ => execRtReservedOp src g (bit 3) s
  | .eng k =>
    let e := Fin.ofNat 528 k
    let entry := BitVec.ofNat 10 (f 0 10)
    if second then execEctlStop src e entry s else execEctlStart src e entry s
  | _ => run s fun s => s

/-- Two requests set in one write are taken in bit order. -/
def both (x : Host.Outcome State Fault Refusal) (f : State → Host.Outcome State Fault Refusal) :
    Host.Outcome State Fault Refusal :=
  match x with
  | .next s =>
    let out := s.out
    match f s with
    | .next t => .next { t with out := out ++ t.out }
    | y => y
  | y => y

/-- A write of a register that has GO fields, made at address `a`: discarded while one of them reads 1, unless it sets only the other
and leaves every RW field unchanged (R275); otherwise a request, or a write of its other fields. -/
def busRequest (src : Src) (b : Blk) (o a : Nat) (r : RegRow) (cur v : Word) (m : Meas) (s : State) :
    Host.Outcome State Fault Refusal :=
  let go := BitVec.ofNat 32 r.go
  let busy := cur &&& go
  let set := v &&& go
  let two := r.go == 3 || r.go == 0x30000
  let hi := if r.go = 3 then bitOf set.toNat 1 else two && bitOf set.toNat 17
  let lo := !two || (if r.go = 3 then bitOf set.toNat 0 else bitOf set.toNat 16)
  if busy ≠ 0 then
    if set ≠ 0 ∧ set &&& busy = 0 ∧ (cur ^^^ v) &&& BitVec.ofNat 32 r.rw = 0 then busGo src b o v hi m s
    else run s fun s => s.refuse a RC_GOPEND src
  else if set = 0 then run s fun s => s.gate (s.groupUp b) (·.fieldWrite src (s.servingBlk b) o a r v m.met)
  else if hi && lo then both (busGo src b o v false m s) (busGo src b o v true m)
  else busGo src b o v hi m s

/-! ## The write (R272, R288 to R292) -/

/-- A write of a register that has a row of its own though it has no GO field. -/
def busOwn (src : Src) (b : Blk) (o : Nat) (v : Word) (m : Meas) (s : State) : Option (Host.Outcome State Fault Refusal) :=
  match b with
  | .prot => if o = 0x14 then some (execKeyaWrite src v m.ms s) else if o = 0x18 then some (execKeybWrite src v m.ms s) else none
  | .sys => if o = 0x10 then some (execSysRefHzWrite src v s) else none
  | .evt =>
    if o < 0x40 then some (execEventMaskWrite src (Fin.ofNat 80 (o / 4)) v s)
    else if 0x100 ≤ o then some (execEventMaskWrite src (Fin.ofNat 80 (16 + (o - 0x100) / 4)) v s)
    else if o = 0x64 then some (execPseenWrite src v s) else none
  | .hif =>
    if o = 0x300 then some (execEvheadWrite src v s)
    else if 0x800 ≤ o ∧ o < 0xC00 ∧ o % 16 = 12 then some (run s fun s => s.msixCtrl src ((o - 0x800) / 16) v)
    else none
  | .out g => if o < 0x240 ∧ o % 16 = 0 then some (execOutputEnableWrite src (Fin.ofNat 16 g) (Fin.ofNat 36 (o / 16)) v s) else none
  | .eng e =>
    if 0x1000 ≤ o ∧ o < 0x2000 then some (execEngineMemoryWrite src (Fin.ofNat 528 e) (Fin.ofNat 3072 ((o - 0x1000) / 4)) v s)
    else if 0x2000 ≤ o then
      some (execEngineMemoryWrite src (Fin.ofNat 528 e) (Fin.ofNat 3072 (1024 + (o - 0x2000) / 4)) v s)
    else none
  | _ => none

/-- A software write of BAR0 at address `a`; `whole` false: fewer than four bytes are enabled. Space without a block and absent units
take nothing; a narrow write is discarded and counted (R290); a register of a unit that is off, and an offset without a
register, discard it uncounted (R289, R291). -/
def busWrite (src : Src) (a : Nat) (v : Word) (whole : Bool) (m : Meas) (s : State) : Host.Outcome State Fault Refusal :=
  let a := a / 4 * 4
  match blkAt a with
  | none => run s fun s => s
  | some b =>
    let o := reduceOff b a
    let at_ := (s.servingBlk b).base + o
    if !(s.access src && s.present a) || s.absentReg b o then run s fun s => s
    else if !whole then run s fun s => (s.inc GLB R.GLB_NARROW).refuse a RC_NARROW src
    else match busOwn src b o v m s with
      | some x => x
      | none => match rowAt b o with
        | none => run s fun s => s
        | some r =>
          if !s.blockOn at_ then run s fun s => s
          else if r.go ≠ 0 then busRequest src b o a r (s.word at_) v m s
          else run s fun s => s.fieldWrite src (s.servingBlk b) o a r v m.met

/-- REGISTER_WRITE (R272): a software write of the word at BAR0 offset `a`; `be` has a bit for each byte enabled. -/
def execRegisterWrite (src : Src) (a : BitVec 24) (v : Word) (be : BitVec 4) (m : Meas) (s : State) :
    Host.Outcome State Fault Refusal :=
  busWrite src a.toNat v (be == 0xF) m s

end Sys2Proof.Machine
end

