-- ==== Sys2Proof/Machine/Keyway.lean ====
section
/-! DEFINITION. Machine/Keyway.lean: the Keyway port (R295 to R309): frames as they end, their outcomes, and the words of committed
write frames as they reach the register bus. A frame is one command; what its edges carried is its operands. -/

namespace Sys2Proof.Machine

/-! ## Headers, lengths and CRCs (R297 to R299) -/

/-- CRC-16/CCITT over the first n bits of words, each word from bit 31 down, carried on from c. -/
def crcBits (c : Nat) (ws : List Word) (n : Nat) : Nat :=
  (List.range n).foldl (fun c i =>
    crc16bit (c ^^^ (if bitOf (ws.getD (i / 32) 0).toNat (31 - i % 32) then 2 ^ 15 else 0))) c

/-- A frame header (R297). -/
structure KwHeader where
  op : Nat
  inc : Bool
  base : Nat
  off : Nat
  tag : Nat
  crcOk : Bool
  legal : Bool
  deriving DecidableEq, Repr

/-- The fields of 64 header bits. -/
def kwHeader (h : BitVec 64) : KwHeader :=
  let f (lsb n : Nat) : Nat := h.toNat / 2 ^ lsb % 2 ^ n
  { op := f 60 4, inc := f 56 1 == 1, base := f 44 12 * 0x1000, off := f 32 12, tag := f 24 8,
    crcOk := decide (crcBits 0xFFFF [BitVec.ofNat 32 (f 32 32), BitVec.ofNat 32 (f 0 32)] 48 = f 0 16),
    legal := (f 60 4 == 1 || f 60 4 == 2) && f 57 3 == 0 && f 32 2 == 0 && f 16 8 == 0 }

/-- The payload length L in bits (R299). -/
def State.kwLen (s : State) : Nat :=
  let n := s.rd KWY R.KWY_LEN
  if n = 0 then 32 else satTo 8192 n

/-- The words that a frame of L bits moves. -/
def kwWords (l : Nat) : Nat := (l + 31) / 32

/-- The window of the 4 KiB block at `base`; an engine block decodes its register page and its two memories separately (R412). -/
def kwWindow (base : Nat) : Nat :=
  match blkAt base with
  | some (.eng e) => if base = ENG e then 0x40 else 0x1000
  | some b => b.window
  | none => 0x1000

/-- The WRAP condition of a frame of n words (R300). -/
def KwHeader.wrap (h : KwHeader) (n : Nat) : Bool :=
  let last := if h.inc then h.off + 4 * (n - 1) else h.off
  decide (0xFFC < last) || decide (kwWindow h.base ≤ last)

/-- The block at a base address is ready: during BOOT, CAL from the end of B4 and SYS and MSC from the CLK domain on (R304). -/
def State.kwReady (s : State) (base : Nat) : Bool :=
  s.mode != MODE_BOOT || decide (5 ≤ s.power.bootPhase) || !(base == CAL || base == SYS || base == MSC)

/-- The Keyway takes frames: not before the end of B3 (R309), nor while its pins follow boundary cells (R441). -/
def State.kwOpen (s : State) : Bool := s.access .keyway && !s.extest

/-! ## The end of a frame (R306) -/

/-- The bits of KWY.STAT that a frame leaves, and the count of frames. -/
def State.kwEnded (s : State) (code tag : Nat) (wrap busto part : Bool) : State :=
  let s := s.wr KWY R.KWY_STAT_LAST code
  let s := (s.flag KWY R.KWY_STAT_WRAP wrap).flag KWY R.KWY_STAT_BUSTO busto
  let s := (s.flag KWY R.KWY_STAT_PARTIAL part).wr KWY R.KWY_STAT_TAG tag
  s.inc KWY R.KWY_FRAMES

/-- A frame that ended before its header was whole: SHORT, with a TAG that never arrived. -/
def State.kwShort (s : State) : State :=
  (s.kwEnded 1 (Config.noTag s.freeCtr).toNat false false (s.kwLen % 32 != 0)).tick

/-- EV212 follows a discarded write frame or an aborted read. -/
def State.kwEvent (s : State) : State := s.raise 212 s.kwStat.toNat

/-- The words of a read answer: L payload bits and the trailer, whose CRC covers the payload and its own upper half (R303). -/
def kwAnswer (ws : List Word) (l code tag : Nat) (wrap busto : Bool) : List Word :=
  let r := l % 32
  let ws := ws.mapIdx fun i w => if r ≠ 0 ∧ i + 1 = ws.length then BitVec.ofNat 32 (w.toNat / 2 ^ (32 - r) * 2 ^ (32 - r)) else w
  let hi := code * 2 ^ 12 + b2n wrap * 2 ^ 11 + b2n busto * 2 ^ 10 + b2n (r != 0) * 2 ^ 9 + tag
  let crc := crcBits (crcBits 0xFFFF ws l) [BitVec.ofNat 32 (hi * 2 ^ 16)] 16
  ws ++ [BitVec.ofNat 32 (hi * 2 ^ 16 + crc)]

/-- The words of an answer to a payload of l bits that `bits` strobes carry: what they leave unfinished is not seen (R303, R307). -/
def kwSent (ans : List Word) (l bits : Nat) : List Word :=
  if l + 32 ≤ bits then ans else ans.take (if l ≤ bits then kwWords l else bits / 32)

/-- A frame whose header fails is answered as a read: L bits of 0 and the trailer, as far as `bits` strobes carry it (R307). -/
def State.kwBadHeader (s : State) (code tag bits : Nat) : State :=
  let l := s.kwLen
  (s.send (.keyway (kwSent (kwAnswer (List.replicate (kwWords l) 0) l code tag false false) l bits))).kwEnded code tag false false
    (l % 32 != 0)

/-- The outcome of a header that arrived whole: 0, HCRC or ILLEGAL. -/
def KwHeader.fails (h : KwHeader) : Nat := if !h.crcOk then 4 else if !h.legal then 5 else 0

/-! ## Write frames (R301, R302) -/

/-- KEYWAY_WRITE_FRAME: KW_SEL_n rises after `edges` edges of a frame with header `hdr`, payload words and write CRC `crc`. -/
def State.kwWrite (s : State) (hdr : BitVec 64) (edges : Nat) (ws : List Word) (crc : Nat) : State :=
  let h := kwHeader hdr
  let l := s.kwLen
  let n := kwWords l
  if !s.kwOpen then s
  else if edges < 64 then (s.kwShort.inc KWY R.KWY_DISCARDS).kwEvent
  else if h.fails ≠ 0 then ((s.kwBadHeader h.fails h.tag (edges - 64)).inc KWY R.KWY_DISCARDS).kwEvent
  else if h.op ≠ 2 then s
  else
    let res := if edges < 80 + l then 1 else if 80 + l < edges then 2 else if crcBits 0xFFFF ws l ≠ crc then 3
      else if 2 ≤ s.kw.bufs.length then 7 else if !s.kwReady h.base then 8 else 0
    let s := s.kwEnded res h.tag (h.wrap n) false (l % 32 != 0)
    if res ≠ 0 then (s.inc KWY R.KWY_DISCARDS).kwEvent
    else
      let f : KwFrame :=
        { base := h.base, off := h.off, inc := h.inc, words := (List.range n).map fun i => ws.getD i 0, part := l % 32 != 0 }
      let s := { s with kw := { bufs := s.kw.bufs ++ [f] } }
      s.wr KWY R.KWY_STAT_WORDS 0

def execKeywayWriteFrame (hdr : BitVec 64) (edges : BitVec 16) (ws : List Word) (crc : BitVec 16) (s : State) :
    Host.Outcome State Fault Refusal :=
  run s fun s => s.kwWrite hdr edges.toNat ws crc.toNat

/-- The word that the oldest buffer holds next: its address, the word, and whether it is whole. -/
def State.kwNext (s : State) : Option (Nat × Word × Bool) :=
  match s.kw.bufs with
  | [] => none
  | f :: _ => match f.words with
    | [] => none
    | w :: ws => some (f.base + f.off, w, !(f.part && ws.isEmpty))

/-- The oldest buffer gives up its next word; `count`: it counts in WORDS when its frame is the last committed one. -/
def State.kwTake (s : State) (count : Bool) : State :=
  match s.kw.bufs with
  | [] => s
  | f :: fs =>
    let ws := f.words.drop 1
    let off := if f.inc then (f.off + 4) % 0x1000 else f.off
    let s := { s with kw := { bufs := if ws.isEmpty then fs else { f with words := ws, off := off } :: fs } }
    s.gate (count && fs.isEmpty) (·.inc KWY R.KWY_STAT_WORDS)

/-- KEYWAY_WORD_APPLY (R302): the next word of the oldest committed frame is taken on the register bus; a partial last word is a
narrow write (R299). -/
def execKeywayWordApply (m : Meas) (s : State) : Host.Outcome State Fault Refusal :=
  match s.kwNext with
  | none => run s fun s => s
  | some (a, w, whole) => busWrite .keyway a w whole m (s.kwTake whole)

/-- STALL_TIMEOUT (R288): an access to the word at `a` has not completed 2 µs after it was taken; a write is discarded. A word of a
Keyway write frame is ended with it, and BUSTO reports it. -/
def execStallTimeout (src : Src) (a : BitVec 24) (write : Bool) (s : State) : Host.Outcome State Fault Refusal :=
  run s fun s => s.gate (s.access src) fun s =>
    let at_ := a.toNat / 4 * 4
    let s := (s.inc GLB R.GLB_STALLTO).raise 227 (at_ + (if src = .keyway then 2 ^ 27 else 0))
    let mine := decide (src = .keyway) && write && (match s.kwNext with | some x => x.1 == at_ | none => false)
    let s := s.gate mine fun s => (s.kwTake false).wr KWY R.KWY_STAT_BUSTO 1
    s.gate write (·.refuse at_ RC_STALL src)

/-! ## Read frames (R303 to R307) -/

/-- The words of a read: each is a separate register access; those of `late` were ended at the register-bus limit. -/
def State.kwFetch (s : State) (h : KwHeader) (n : Nat) (late : List (Fin 256)) : List Word :=
  (List.range n).map fun i =>
    if late.any (fun k => k.val == i) then 0xFFFFFFFF
    else s.readReg (h.base + (if h.inc then (h.off + 4 * i) % 0x1000 else h.off))

/-- The header of a frame is that of a READ, and its data can come: every earlier committed write has been applied, and the block is
ready; until then the read is held. -/
def State.kwReadable (s : State) (h : KwHeader) : Bool := h.op == 1 && s.kw.bufs.isEmpty && s.kwReady h.base

/-- KEYWAY_READ_FRAME: `edges` clock edges, of which `strobes` saw a bit on KW_DO; a read that ends before L + 32 of them is ENDED,
one that ends while it is still held among them. -/
def State.kwRead (s : State) (hdr : BitVec 64) (edges strobes : Nat) (late : List (Fin 256)) : State :=
  let h := kwHeader hdr
  let l := s.kwLen
  let n := kwWords l
  if !s.kwOpen then s
  else if edges < 64 then s.kwShort
  else if h.fails ≠ 0 then s.kwBadHeader h.fails h.tag strobes
  else if !s.kwReadable h then
    if h.op = 1 ∧ strobes = 0 then s.kwEnded 9 h.tag (h.wrap n) false (l % 32 != 0) else s
  else
    let busto := late.any fun k => decide (k.val < n)
    let ans := kwAnswer (s.kwFetch h n late) l 0 h.tag (h.wrap n) busto
    (s.send (.keyway (kwSent ans l strobes))).kwEnded (if strobes < l + 32 then 9 else 0) h.tag (h.wrap n) busto (l % 32 != 0)

def execKeywayReadFrame (hdr : BitVec 64) (edges strobes : BitVec 16) (late : List (Fin 256)) (s : State) :
    Host.Outcome State Fault Refusal :=
  run s fun s => s.kwRead hdr edges.toNat strobes.toNat late

/-- KEYWAY_READ_ABORT (R305): KW_STB has been held for 4,096 edges before word `k`; the rest of the payload is 0, and the trailer
carries STALL. -/
def execKeywayReadAbort (hdr : BitVec 64) (k : BitVec 9) (s : State) : Host.Outcome State Fault Refusal :=
  run s fun s =>
    let h := kwHeader hdr
    let l := s.kwLen
    let n := kwWords l
    s.gate (s.kwOpen && h.fails == 0 && h.op == 1 && decide (k.toNat < n)) fun s =>
      let ws := (s.kwFetch h k.toNat []) ++ List.replicate (n - k.toNat) 0
      let s := s.send (.keyway (kwAnswer ws l 6 h.tag (h.wrap n) false))
      ((s.kwEnded 6 h.tag (h.wrap n) false (l % 32 != 0)).inc KWY R.KWY_ABORTS).kwEvent

end Sys2Proof.Machine
end

