-- ==== Sys2Proof/Machine/Tap.lean ====
section
/-! DEFINITION. Machine/Tap.lean: the test access port (R392 to R400, R441). A command is one scan of the instruction register, up to
Update-IR, and one scan of the data register that it selects. What the balls carry at Capture-DR is an operand. -/

namespace Sys2Proof.Machine

/-! ## The instruction register (R392, R393) -/

/-- The instruction codes of R392. -/
def IR_EXTEST : Nat := 0x00
def IR_SAMPLE : Nat := 0x01
def IR_IDCODE : Nat := 0x02
def IR_CLAMP : Nat := 0x03
def IR_HIGHZ : Nat := 0x04
def IR_PULSE : Nat := 0x05
def IR_TRAIN : Nat := 0x06
def IR_LEVEL : Nat := 0x10
def IR_ACCESS : Nat := 0x11
def IR_ENG : Nat := 0x12
def IR_BYPASS : Nat := 0xFF

/-- The power state that Capture-IR shows: 0 Standby, 1 Active, 2 Safe. -/
def State.powerState (s : State) : Nat :=
  if s.mode = MODE_SAFE then 2 else if MODE_CONFIGURE ≤ s.mode then 1 else 0

/-- The debug level in force. -/
def State.dbgLvl (s : State) : Nat := s.rd PROT R.PROT_STATE_DBGLVL

/-- What Capture-IR loads. -/
def State.captureIr (s : State) : Nat := 1 + 4 * b2n s.tap.refused + 8 * s.dbgLvl + 32 * s.powerState

/-- The codes of the EXTEST group (R394). -/
def irGroup (c : Nat) : Bool := [IR_EXTEST, IR_CLAMP, IR_HIGHZ, IR_PULSE, IR_TRAIN].contains c

/-- The instruction with code `c` is allowed now (the Allowed column of R392). -/
def State.irAllowed (s : State) (c : Nat) : Bool :=
  if irGroup c then s.powerState == 0 else if c = IR_ACCESS ∨ c = IR_ENG then decide (1 ≤ s.dbgLvl) else true

/-- The port answers, from the end of B3 until OFF. -/
def State.tapUp (s : State) : Bool := s.access .keyway

/-- The cells that the variant leaves without a ball: they capture 0 and drive nothing (R441). -/
def State.absentCells (s : State) : BitVec 1560 :=
  match s.variant with
  | .vl256f => (BitVec.allOnes 1560 <<< 768) &&& (BitVec.allOnes 1560 >>> 24)
  | v => if v.mc then 0 else (BitVec.allOnes 1560 <<< 1545) &&& (BitVec.allOnes 1560 >>> 10)

/-- What the balls follow while an instruction of the EXTEST group is in force: the boundary cells, or for HIGHZ no drive. -/
def State.ballsFollow (s : State) : State :=
  s.gate s.extest fun s =>
    s.send (.pins (if s.tap.ir = IR_HIGHZ then 2 ^ 1553 else (s.tap.boundary &&& ~~~ s.absentCells).toNat))

/-- A scan of the instruction register: Capture-IR is shifted out, and Update-IR selects `c`, or BYPASS when `c` is not allowed. An
instruction of the EXTEST group takes the link down. -/
def State.selectIr (s : State) (c : Nat) : State :=
  let s := s.send (.tdo s.captureIr)
  let ok := s.irAllowed c
  let s := { s with tap := { s.tap with ir := if ok then c else IR_BYPASS, refused := !ok } }
  (s.gate (s.extest && s.is HIF R.HIF_LINK_UP) fun s => s.linkSet false 0 0 (s.is HIF R.HIF_LINK_BME)).ballsFollow

/-- A TAP instruction with code `c`; where it is in force, its data-register scan `f` follows. -/
def State.tapRun (s : State) (c : Nat) (f : State → State) : State :=
  s.gate s.tapUp fun s =>
    let s := s.selectIr c
    s.gate (s.tap.ir == c) f

/-- A scan of the boundary register: the balls as captured are shifted out, and Update-DR loads the cells. -/
def State.scanCells (s : State) (cap load : BitVec 1560) : State :=
  let s := s.send (.tdo (cap &&& ~~~ s.absentCells).toNat)
  { s with tap := { s.tap with boundary := load } }.ballsFollow

/-! ## Boundary instructions (R392 to R394) -/

/-- TAP_RESET: TRST_n resets the controller, which selects IDCODE and releases the balls, and sets the debug level to D0. -/
def execTapReset (s : State) : Host.Outcome State Fault Refusal :=
  run s fun s => s.gate s.power.aon fun s =>
    let d := s.dbgLvl
    let s := { s with tap := { s.tap with ir := IR_IDCODE, refused := false } }
    let s := s.wr PROT R.PROT_STATE_DBGLVL 0
    s.gate (d != 0) fun s => s.raise 235 s.protWord

def execExtest (cap load : BitVec 1560) (s : State) : Host.Outcome State Fault Refusal :=
  run s fun s => s.tapRun IR_EXTEST (·.scanCells cap load)

def execSamplePreload (cap load : BitVec 1560) (s : State) : Host.Outcome State Fault Refusal :=
  run s fun s => s.tapRun IR_SAMPLE (·.scanCells cap load)

/-- IDCODE: the version, 0x0512, the manufacturer identity and 1. -/
def execIdcode (s : State) : Host.Outcome State Fault Refusal :=
  run s fun s => s.tapRun IR_IDCODE fun s =>
    s.send (.tdo (Config.version.toNat * 2 ^ 28 + 0x0512 * 2 ^ 12 + Config.jedec.toNat * 2 + 1))

def execClamp (s : State) : Host.Outcome State Fault Refusal := run s fun s => s.tapRun IR_CLAMP fun s => s

def execHighz (s : State) : Host.Outcome State Fault Refusal := run s fun s => s.tapRun IR_HIGHZ fun s => s

def execExtestPulse (cap load : BitVec 1560) (s : State) : Host.Outcome State Fault Refusal :=
  run s fun s => s.tapRun IR_PULSE (·.scanCells cap load)

def execExtestTrain (cap load : BitVec 1560) (s : State) : Host.Outcome State Fault Refusal :=
  run s fun s => s.tapRun IR_TRAIN (·.scanCells cap load)

/-- BYPASS, or any code `c` that R392 does not list, selects BYPASS. -/
def execBypass (c : BitVec 8) (s : State) : Host.Outcome State Fault Refusal :=
  run s fun s => s.gate (decide (6 < c.toNat) && !(decide (IR_LEVEL ≤ c.toNat) && decide (c.toNat ≤ IR_ENG))) fun s =>
    s.tapRun IR_BYPASS fun s => s

/-! ## Debug (R395 to R399) -/

/-- DBG_LEVEL (R395): the lowest of the requested level, DBGMAX and the ceiling of the protection state is granted. The results of
the steps that execute while D2 is in force carry SUSPECT (R399). -/
def execDbgLevel (req : BitVec 2) (s : State) : Host.Outcome State Fault Refusal :=
  run s fun s => s.tapRun IR_LEVEL fun s =>
    let d := s.dbgLvl
    let lvl := satTo (if s.sealed then 1 else 2) (satTo (s.rd PROT R.PROT_STATE_DBGMAX) req.toNat)
    let s := s.wr PROT R.PROT_STATE_DBGLVL lvl
    let s := s.gate (lvl == 2) (forAll (List.range s.variant.groups) fun g s => s.stepSuspect g 0xFFFFFFFF)
    s.gate (lvl != d) fun s => s.raise 235 s.protWord

/-- A read of BAR0 address `a` is of an engine's program window (R397). -/
def programWindow (a : Nat) : Bool :=
  match blkAt a with
  | some (.eng e) => decide (ENG e + 0x1000 ≤ a) && decide (a < ENG e + 0x2000)
  | _ => false

/-- The access of a DBG_ACCESS is not allowed at the level and protection state in force (R397). -/
def State.dbgShut (s : State) (wr : Bool) (a : Nat) : Bool :=
  decide (s.dbgLvl < if wr then 2 else 1) || (!wr && s.sealed && programWindow a)

/-- The result of the last access, for the next Capture-DR. -/
def State.dbgResult (s : State) (d : Word) (stat : Nat) : State := { s with tap := { s.tap with data := d, stat := stat } }

/-- DBG_ACCESS (R396, R397): Capture-DR shows the previous access; Update-DR takes this one, a read or a write of `data` at word
`waddr`, as a Keyway access. `late`: the register bus ends it at its limit (R288), as it does every access to a block that is not ready
(R304; assumption 59). -/
def execDbgAccess (wr : Bool) (waddr : BitVec 22) (data : Word) (late : Bool) (m : Meas) (s : State) :
    Host.Outcome State Fault Refusal :=
  let a := 4 * waddr.toNat
  let late := late || !s.kwReady (a / 0x1000 * 0x1000)
  if s.tapUp && s.irAllowed IR_ACCESS && wr && !s.dbgShut wr a && !late then
    both (run s fun s => s.tapRun IR_ACCESS fun s => (s.send (.tdo (s.tap.data.toNat + s.tap.stat * 2 ^ 56))).dbgResult data 0)
      (busWrite .keyway a data true m)
  else
    run s fun s => s.tapRun IR_ACCESS fun s =>
      let s := s.send (.tdo (s.tap.data.toNat + s.tap.stat * 2 ^ 56))
      if s.dbgShut wr a then s.dbgResult 0 1
      else if late then s.dbgResult (if wr then data else 0xFFFFFFFF) 3
      else s.dbgResult (s.readReg a) 0

/-- Physical engine `e` can be reached by DBG_ENG: present and switched on (R398). -/
def State.engReached (s : State) (e : Nat) : Bool := decide (e < 528) && s.hasEng e && (s.eng e).on

/-- A DBG_ENG scan: Capture-DR shows the status that OP 0 captured; at Update-DR, an OP from 1 to 5 takes `f` at level D2. A number
that selects nothing has no effect, and the next capture is 0. -/
def State.dbgEng (s : State) (e : Nat) (f : Engine → Engine) : State :=
  s.tapRun IR_ENG fun s =>
    let s := s.send (.tdo (s.tap.engStat * 2 ^ 13))
    if !s.engReached e then { s with tap := { s.tap with engStat := 0 } } else s.gate (decide (2 ≤ s.dbgLvl)) (·.modEng e f)

/-- DBG_ENG_STATUS: OP 0 captures ESTAT.PC and the gate. -/
def execDbgEngStatus (e : BitVec 10) (s : State) : Host.Outcome State Fault Refusal :=
  run s fun s => s.tapRun IR_ENG fun s =>
    let s := s.send (.tdo (s.tap.engStat * 2 ^ 13))
    let x := s.eng e.toNat
    { s with tap := { s.tap with engStat := if s.engReached e.toNat then x.pc % 1024 + 1024 * b2n x.gated else 0 } }

def execDbgEngGate (e : BitVec 10) (s : State) : Host.Outcome State Fault Refusal :=
  run s fun s => s.dbgEng e.toNat fun x => { x with gated := true }

def execDbgEngStep (e : BitVec 10) (s : State) : Host.Outcome State Fault Refusal :=
  run s fun s => s.dbgEng e.toNat fun x => { x with stepOne := x.gated }

def execDbgEngUngate (e : BitVec 10) (s : State) : Host.Outcome State Fault Refusal :=
  run s fun s => s.dbgEng e.toNat fun x => { x with gated := false, stepOne := false }

def execDbgEngBreakSet (e a : BitVec 10) (s : State) : Host.Outcome State Fault Refusal :=
  run s fun s => s.dbgEng e.toNat fun x => { x with brk := some a.toNat }

def execDbgEngBreakClear (e : BitVec 10) (s : State) : Host.Outcome State Fault Refusal :=
  run s fun s => s.dbgEng e.toNat fun x => { x with brk := none }

end Sys2Proof.Machine
end

