-- ==== Sys2Proof/Machine/Power.lean ====
section
/-! DEFINITION. Machine/Power.lean: VIN, BOOT, the hold-up sequence, the critical trip and the power-link telemetry (R8, R30 to R42,
R260, R376, R377). What a phase of BOOT or a telemetry frame finds is its operands. -/

namespace Sys2Proof.Machine

/-! ## OFF and VIN (R36, R39, R42) -/

/-- Every rail is gone: the module holds what lies in the record die, and what the power dies latch. -/
def State.powerOff (s : State) : State :=
  { variant := s.variant, pending := s.pending, freeCtr := s.freeCtr, out := s.out, reco := { die := s.reco.die },
    power := { latched := s.power.latched, lowSinceTrip := s.power.lowSinceTrip, perst := s.power.perst } }

/-- BOOT starts at B1 (R27, R30). -/
def State.bootStart (s : State) : State :=
  (s.powerOff.setMode MODE_BOOT).modPower fun p => { p with bootPhase := 1, latched := false, lowSinceTrip := false }

/-- VIN_RISE: VIN rises through 4.3 V in OFF; power dies that a trip latched off stay off until VIN has been low. -/
def execVinRise (s : State) : Host.Outcome State Fault Refusal :=
  run s fun s => s.gate (s.mode == MODE_OFF && (!s.power.latched || s.power.lowSinceTrip)) (·.bootStart)

/-- The two header pages of B3 (R30, R31, R367), copy A before copy B: the first `k` of them are valid. -/
def State.headerPages (s : State) (k : Nat) : State :=
  s.gate s.reco.die.answers fun s => s.modReco fun r =>
    let h : Header := { count := r.count, opsec := r.opsec, newest := r.nextSeq - 1 }
    let d := if 1 ≤ k then { r.die with headA := r.die.headA ++ [h] } else r.die
    { r with die := if 2 ≤ k then { d with headB := d.headB ++ [h] } else d }

/-- BOOT is interrupted inside B3: the header pages that are programmed or being programmed then become valid (R37); how many
they are is a free value (assumption 79). A critical trip (`cut`) leaves the page in progress without its mark (R42). -/
def State.bootPages (s : State) (cut : Bool) : State :=
  s.gate (s.mode == MODE_BOOT && !s.power.bootStopped && s.power.bootPhase == 3) fun s =>
    let k := (Config.bootPages s.freeCtr).val
    (s.headerPages (if cut then k - 1 else k)).tick

/-- VIN_LOSS: BOOT stops where it is (R37); in SAFE the earlier cause is held pending, and the sequence runs from its 1.0 ms row with
a SAFE record, but after PDRDY (R38, R41); otherwise the module enters SAFE with VINLOSS (R37). -/
def execVinLoss (s : State) : Host.Outcome State Fault Refusal :=
  run s fun s => s.gate (s.mode != MODE_OFF && !s.power.vinLost) fun s =>
    let s := s.chalDrop.modPower fun p => { p with vinLost := true }
    if s.mode = MODE_BOOT then (s.bootPages false).modPower fun p => { p with bootStopped := true }
    else if s.mode = MODE_SAFE then
      let old := s.rd GLB R.GLB_MODE_SAFE_CAUSE
      let s := s.wr GLB R.GLB_MODE_SAFE_CAUSE SC_VINLOSS
      let s := s.modPower fun p => { p with pendCause := old, holdStep := 2 }
      let s := s.recCount 7
      let s := s.gate (!s.is GLB R.GLB_MODE_PDRDY) fun s =>
        (s.trigger 1).modPower fun p => { p with safeRecPending := true }
      s.gate (s.power.sysExit || s.power.exitWait) fun s => (s.gate s.power.sysExit (·.clkOff)).modeResult 3
    else (s.enterSafe SC_VINLOSS).modPower fun p => { p with holdStep := 1, pendCause := 0 }

/-- VIN_RETURN (R39): the module stays in SAFE with VINLOSS cleared, and what the hold-up sequence had begun is completed as for any
entry to SAFE; a stopped BOOT restarts at B1. -/
def execVinReturn (s : State) : Host.Outcome State Fault Refusal :=
  run s fun s => s.gate s.power.vinLost fun s =>
    if s.mode = MODE_BOOT then s.bootStart
    else
      let step := s.power.holdStep
      let c := s.power.pendCause
      let s := s.modPower fun p => { p with vinLost := false, holdStep := 0, pendCause := 0 }
      let s := s.gate (c != 0) (·.wr GLB R.GLB_MODE_SAFE_CAUSE c)
      let s := s.gate (step == 1) (·.repower id)
      let s := s.gate (decide (step < 3)) (·.slotStop.eraseStop)
      s.gate (s.power.clk && !s.power.safeRecPending) (·.clkFollows)

/-! ## The hold-up sequence (R37) -/

/-- The sequence is at row `n`; `f` is what the row does. -/
def State.holdRow (s : State) (n : Nat) (f : State → State) : State :=
  s.gate (s.mode == MODE_SAFE && s.power.vinLost && s.power.holdStep == n) fun s =>
    f (s.modPower fun p => { p with holdStep := n + 1 })

/-- HOLDUP_BANKS_OFF, 50 µs after detection. -/
def execHoldupBanksOff (s : State) : Host.Outcome State Fault Refusal := run s fun s => s.holdRow 1 (·.repower id)

/-- Every completion that waits is posted, while the link is up. -/
def State.postAll (s : State) : State :=
  forAll (List.range 16) (fun r s =>
    forAll (s.ring r).waiting (fun h s => match s.cmd? h with
      | some c => if s.paused || s.cqFull r || !s.ringUp r then s else s.post r c ((s.ring r).waiting.drop 1)
      | none => s) s) s

/-- HOLDUP_ABANDON_WRITES, 1.0 ms: completions are posted, a page program in progress completes, an erase and a slot write stop. -/
def execHoldupAbandonWrites (s : State) : Host.Outcome State Fault Refusal :=
  run s fun s => s.holdRow 2 fun s =>
    let s := s.settle.postAll
    let s := s.gate s.reco.page (·.modReco fun r => { r with pageDone := true })
    s.slotStop.eraseStop.downGo

/-- HOLDUP_SAFE_RECORD, by 2.0 ms: the records that wait are written, the SAFE record last; in RECOVER they are not (R378). -/
def execHoldupSafeRecord (s : State) : Host.Outcome State Fault Refusal :=
  run s fun s => s.holdRow 3 fun s =>
    s.gate (!s.reco.recovering) fun s =>
      forAll s.reco.waiting (fun _ s => if s.reco.die.answers then s.markDone else s.recLost) s

/-- HOLDUP_CLK_OFF, 2.1 ms. -/
def execHoldupClkOff (s : State) : Host.Outcome State Fault Refusal :=
  run s fun s => s.holdRow 4 fun s => s.gate s.power.clk (·.clkOff)

/-- HOLDUP_BANK_EXHAUSTED: AON and HOST go off. -/
def execHoldupBankExhausted (s : State) : Host.Outcome State Fault Refusal :=
  run s fun s => s.gate (s.power.vinLost && (s.mode == MODE_BOOT || s.power.holdStep == 5)) (·.powerOff)

/-! ## The critical trip (R42) -/

/-- CRITICAL_TRIP: the trip notice reaches the core; a live challenge ends. -/
def execCriticalTrip (s : State) : Host.Outcome State Fault Refusal :=
  run s fun s => s.gate (s.mode != MODE_OFF && !s.power.tripNotice) fun s =>
    s.chalDrop.modPower fun p => { p with tripNotice := true }

/-- What is being written to the record die is cut: the page was started and holds no mark, and a slot has none. -/
def State.writesCut (s : State) : State :=
  let s := s.bootPages true
  let s := s.gate s.reco.page fun s =>
    s.modReco fun r => { r with die := { r.die with used := r.die.used + 1, badPages := r.die.badPages + 1 } }
  s.gate (s.cal.storing.isSome && !s.reco.eraseQ.contains (.calSlot (s.cal.storing.getD false))) fun s =>
    s.modReco fun r => { r with die := r.die.calCut (s.cal.storing.getD false) }

/-- RAILS_CUT: every rail goes, and the power dies latch off; VIN lost before counts as low. -/
def execRailsCut (s : State) : Host.Outcome State Fault Refusal :=
  run s fun s => s.gate s.power.tripNotice fun s =>
    let low := s.power.vinLost
    s.writesCut.powerOff.modPower fun p => { p with latched := true, lowSinceTrip := low }

/-- TRIP_LATCH_VIN_LOW: VIN is below 4.1 V after a trip. -/
def execTripLatchVinLow (s : State) : Host.Outcome State Fault Refusal :=
  run s fun s => s.gate s.power.latched fun s => s.modPower fun p => { p with lowSinceTrip := true }

/-! ## The converter and telemetry (R8, R260, R416) -/

/-- HK.PHASES shows the phases of a mask as failed. -/
def State.phasesSet (s : State) (m : Nat) : State :=
  (s.wr HK R.HK_PHASES_FAILED m).wr HK R.HK_PHASES_NFAIL ((List.range 16).filter fun i => bitOf m i).length

/-- PHASE_FAILED: EV204, and SAFE at the third. -/
def execPhaseFailed (p : Fin 16) (s : State) : Host.Outcome State Fault Refusal :=
  run s fun s =>
    let m := s.rd HK R.HK_PHASES_FAILED
    s.gate (s.power.aon && !bitOf m p) fun s =>
      let s := s.phasesSet (setBit m p true)
      let n := s.rd HK R.HK_PHASES_NFAIL
      let s := s.raise 204 (p + 16 * (n % 16))
      s.gate (decide (3 ≤ n)) (·.safeCause SC_PHASES)

/-- The bin of VHIST for VIN in 10 mV (R368). -/
def vinBin (v : Nat) : Nat := ([450, 600, 900, 1200, 1500, 1800, 2000].filter fun e => decide (e ≤ v)).length

/-- The frame's time and VIN go into the recorder's period. -/
def State.vinStats (s : State) (t : Telemetry) : State :=
  s.modReco fun r =>
    let p := r.period
    let v := t.vin.toNat
    let add (h : Tab Nat) (k : Nat) : Tab Nat := bumpTab h k 16 (2 ^ 64)
    { r with period := { p with
        vhist := add p.vhist (vinBin v)
        rhist := (List.range 6).foldl (fun h n => add h (3 * n + (match (t.bins.getD n 0).val with | 0 => 1 | 1 => 0 | _ => 2))) p.rhist
        vmax := if !p.vseen || decide (p.vmax < v) then v else p.vmax
        vmin := if !p.vseen || decide (v < p.vmin) then v else p.vmin
        vseen := true } }

/-- Energy `e` of a frame falls to one command in proportion to its channel-cycles `n` of `all` (R260). -/
def energyShare (e n all : Nat) : Nat := if all = 0 then 0 else e * n / all

/-- The energy of the frame is shared among the commands that hold channels (R260). -/
def State.energyGiven (s : State) (t : Telemetry) : State :=
  let cyc (l : List (BitVec 24)) (b : Nat) : Nat := (l.getD b 0).toNat
  let sum (l : List (BitVec 24)) : Nat := cyc l 0 + cyc l 1 + cyc l 2 + cyc l 3
  let bank (b : Nat) : Nat := (t.held.map fun h => cyc h.2 b).foldl (· + ·) 0
  let all := bank 0 + bank 1 + bank 2 + bank 3
  forAll t.held (fun h s =>
    let own := (List.range 4).foldl (fun e b => e + energyShare (t.bankNj.getD b 0).toNat (cyc h.2 b) (bank b)) 0
    let own := own + energyShare t.restNj.toNat (sum h.2) all
    s.modCmd h.1.toNat fun c => { c with energyNj := c.energyNj + own }) s

/-- The supply registers take a frame (R416). -/
def State.supplyShow (s : State) (t : Telemetry) : State :=
  let s := (s.wr HK R.HK_VIN_VIN t.vin.toNat).flag HK R.HK_VIN_INRANGE t.vinIn
  let s := (s.wr HK R.HK_PIN t.pin.toNat).flag HK R.HK_PHASES_HOLDOK t.hold
  let s := iter 6 (fun n s =>
    (s.wr (HK + 4 * n) R.HK_RAIL_V (t.volts.getD n 0).toNat).wr (HK + 4 * n) R.HK_RAIL_I (t.amps.getD n 0).toNat) s
  s.inc HK R.HK_ENERGY t.energy.toNat

/-- TELEMETRY_FRAME: the supply registers, the level events RAIL and VINRANGE, the histograms, and the energy of the commands.
`overrun`: a frame that the recorder had not used was overwritten. -/
def execTelemetryFrame (t : Telemetry) (overrun : Bool) (s : State) : Host.Outcome State Fault Refusal :=
  run s fun s => s.gate s.power.aon fun s =>
    let rail (m n : Nat) : Nat :=
      if t.outs.getD n false then setBit m n true else if t.ins.getD n false then setBit m n false else m
    let s := { s.supplyShow t with
      railOut := (List.range 6).foldl rail s.railOut
      vinOut := t.vinOut || (s.vinOut && !t.vinIn) }
    let s := s.gate overrun (·.modPower fun p => { p with tmOver := p.tmOver + 1 })
    (s.vinStats t).energyGiven t

/-! ## BOOT (R30 to R34) -/

/-- BOOT is in phase `n`; its end is `f`. -/
def State.bootEnd (s : State) (n : Nat) (f : State → State) : State :=
  s.gate (s.mode == MODE_BOOT && !s.power.bootStopped && s.power.bootPhase == n) fun s =>
    f (s.modPower fun p => { p with bootPhase := n + 1 })

/-- BOOT_B1_DONE: AON is out of reset, HOST is powered, and the boot queue takes module events (R406). -/
def execBootB1Done (s : State) : Host.Outcome State Fault Refusal :=
  run s fun s => s.bootEnd 1 fun s =>
    { s.modPower (fun p => { p with aon := true, host := true }) with bootQOn := true }

/-- The valid configuration slot with the higher generation. -/
def Die.newestSlot (d : Die) : Option (Nat × Tab Word) :=
  match d.slotA, d.slotB with
  | some a, some b => if a.1 < b.1 then some b else some a
  | some a, none => some a
  | none, x => x

/-- The higher of two numbers. -/
def higher (a b : Nat) : Nat := if a < b then b else a

/-- The newest entries of the two header copies. -/
def Die.heads (d : Die) : List Header := d.headA.getLast?.toList ++ d.headB.getLast?.toList

/-- BOOT_B2_DONE: the header copies and the configuration image are read; without a valid slot, or with a die that does not answer,
the built-in defaults stand (R32, R376). Operating seconds resume above every stored value (R363), and BOOT, which reaches B3,
counts (R31). -/
def execBootB2Done (answers : Bool) (s : State) : Host.Outcome State Fault Refusal :=
  run s fun s => s.bootEnd 2 fun s =>
    let s := s.modReco fun r => { r with die := { r.die with answers := answers } }
    let d := s.reco.die
    let slot := if answers then d.newestSlot else none
    let s := { s with image := match slot with | some x => x.2 | none => [] }
    let s := s.gate slot.isNone fun s => (s.wr GLB R.GLB_MODE_IMGDEF 1).raise 194 (b2n (!answers))
    let secs := d.heads.map (·.opsec) ++ d.recs.map (·.data.opsec)
    let base := if answers && secs ≠ [] then secs.foldl higher 0 + 1 else 0
    let count := if answers then (d.heads.map (·.count)).foldl higher 0 else 0
    let last := if answers then d.recs.getLast? else none
    let s := s.modReco fun r =>
      { r with count := count, opsec := base, lastTrigSec := base, unrecorded := !answers, timeUnk := !answers,
               nextSeq := match last with | some x => x.data.seq + 1 | none => 0
               lastStoredSec := match last with | some x => x.data.opsec | none => base
               lastLabel := match last with | some x => x.data.hepoch | none => 0
               period := { rflags := 8 } }
    let s := s.modReco fun r => { r with count := r.count + 1 }
    s.recShow.recState

/-- BOOT_B3_DONE: the image and its tumblers are loaded, each spare engine takes what it serves from the maps, and the count is
written to header copies A and B (R31, R367). -/
def execBootB3Done (s : State) : Host.Outcome State Fault Refusal :=
  run s fun s => s.bootEnd 3 fun s =>
    let s := s.overlay 0 (2 ^ 24) s.image (·.img)
    let s := iter 16 (fun i s =>
      let a := FLT + 4 * i
      s.gate (s.is a R.FLT_ESMAP_SERVES) fun s =>
        (s.wr (ENG (512 + i)) R.ENG_SERVES_ENG (s.rd a R.FLT_ESMAP_ENG)).wr (ENG (512 + i)) R.ENG_SERVES_VALID 1) s
    let s := { s with pci := { s.pci with subsys := Tab.get 0 s.image SUBSYS_KEY } }
    s.headerPages 2

/-- BOOT_B4_DONE: the newest valid calibration slot is read into the calibration store, lost stores are noted (R331), and the CLK
domain and VANA come on. -/
def execBootB4Done (s : State) : Host.Outcome State Fault Refusal :=
  run s fun s => s.bootEnd 4 fun s =>
    let d := s.reco.die
    let s := match (if d.answers then d.calNewest else none) with
      | some (b, x) =>
        let s := { s with store := x.trims }
        let s := (s.overlay 0 (2 ^ 24) x.trims (·.slot)).modCal fun c => { c with units := x.units }
        (s.wr CAL R.CAL_SLOT_ACT (b2n b)).cqMod
      | none => s
    let s := s.gate d.answers fun s => s.modCal fun c => { c with lost := b2n d.calLostA + 2 * b2n d.calLostB }
    s.clkOn

/-- On leaving BOOT, fields with a number in the Reset column take it, and counts read 0 (R274, R417). -/
def State.leaveReset (s : State) : State :=
  forAll s.regs (fun e s => match rowOf e.1 with
    | some r =>
      let own := BitVec.ofNat 32 (r.img ||| r.slot ||| r.tmb)
      let m := BitVec.ofNat 32 r.cn ||| (BitVec.ofNat 32 r.rw &&& ~~~ own)
      s.setWord e.1 ((s.word e.1 &&& ~~~ m) ||| (resetWord s.variant e.1 &&& m))
    | none => s) s

/-- The check of the previous power cycle (R377): it is closed by its newest record of TYPE POWERDOWN, or SAFE with SCAUSE VINLOSS,
with no page started after it; where it is not, the GAP record's data are taken. A die that holds no header but this one's has
had no earlier cycle. -/
def State.gapCheck (s : State) : State :=
  let r := s.reco
  let d := r.die
  let last := d.recs.getLast?
  let closed := match last with
    | some x => x.data.count == r.count - 1 && (x.data.typ == 2 || (x.data.typ == 1 && x.data.scause == 1))
    | none => decide (r.count ≤ 1)
  let gap := d.answers && (!closed || d.badPages != 0)
  let seq := (match last with | some x => x.data.seq + 1 | none => 0) + d.badPages
  let g : RecData :=
    { seq := seq, count := r.count, opsec := r.opsec, hepoch := r.hostEpoch, typ := 3, rflags := 4 * b2n r.timeUnk,
      period := r.count - 1, lost := d.badPages }
  let s := s.modReco fun r => { r with recovering := d.answers }
  let s := s.gate gap (·.modReco fun r => { r with gapOf := some g, nextSeq := seq + 1, lastTrigSec := r.opsec, trigSeen := true })
  s.recState

/-- The GAP record names the mode that the end of BOOT has led to (R368). -/
def State.gapMode (s : State) : State :=
  s.modReco fun r => { r with gapOf := r.gapOf.map fun g => { g with mode := s.mode, scause := s.rd GLB R.GLB_MODE_SAFE_CAUSE } }

/-- BOOT_B5_DONE (R33, R34): `essential`: AON, HOST and the CLK logic passed; `phases`: the phases that failed; `sys`: the SYS leaves
whose self-test failed. -/
def execBootB5Done (essential : Bool) (phases : BitVec 16) (sys : BitVec 2) (ms : Fin 1000) (s : State) :
    Host.Outcome State Fault Refusal :=
  run s fun s => s.bootEnd 5 fun s =>
    let s := s.phasesSet (s.rd HK R.HK_PHASES_FAILED ||| phases.toNat)
    let n := s.rd HK R.HK_PHASES_NFAIL
    let both := sys == 3
    let t := s.opMs ms
    let s := s.gate (sys == 1) (·.leafFault 32 FC_SELFTEST t)
    let s := s.gate (sys == 2) (·.leafFault 33 FC_SELFTEST t)
    let s := s.sysCheck.strandCheck
    let s := s.leaveReset.gapCheck
    let failed := !essential || (both && s.ref.edges)
    let s := s.gate (decide (3 ≤ n) && failed) (·.recCount 7)
    (if 3 ≤ n then s.enterSafe SC_PHASES else if failed then s.enterSafe SC_SELFTEST else s.setMode MODE_STANDBY).gapMode

end Sys2Proof.Machine
end

