-- ==== Sys2Proof/Machine/Dispatch.lean ====
section
/-! DEFINITION. Machine/Dispatch.lean: the meaning of each command, one arm for each row of the opcode table, in its order. -/

namespace Sys2Proof.Machine

def exec (i : Instr) (s : State) : Host.Outcome State Fault Refusal :=
  match i with
  | .vinRise => Sys2Proof.Machine.execVinRise s
  | .vinLoss => Sys2Proof.Machine.execVinLoss s
  | .holdupBanksOff => Sys2Proof.Machine.execHoldupBanksOff s
  | .holdupAbandonWrites => Sys2Proof.Machine.execHoldupAbandonWrites s
  | .holdupSafeRecord => Sys2Proof.Machine.execHoldupSafeRecord s
  | .holdupClkOff => Sys2Proof.Machine.execHoldupClkOff s
  | .holdupBankExhausted => Sys2Proof.Machine.execHoldupBankExhausted s
  | .vinReturn => Sys2Proof.Machine.execVinReturn s
  | .criticalTrip => Sys2Proof.Machine.execCriticalTrip s
  | .railsCut => Sys2Proof.Machine.execRailsCut s
  | .phaseFailed p => Sys2Proof.Machine.execPhaseFailed p s
  | .telemetryFrame t overrun => Sys2Proof.Machine.execTelemetryFrame t overrun s
  | .bootB1Done => Sys2Proof.Machine.execBootB1Done s
  | .bootB2Done answers => Sys2Proof.Machine.execBootB2Done answers s
  | .bootB3Done => Sys2Proof.Machine.execBootB3Done s
  | .bootB4Done => Sys2Proof.Machine.execBootB4Done s
  | .bootB5Done essential phases sys ms => Sys2Proof.Machine.execBootB5Done essential phases sys ms s
  | .configRequestRetry => Sys2Proof.Machine.execConfigRequestRetry s
  | .perst => Sys2Proof.Machine.execPerst s
  | .functionLevelReset => Sys2Proof.Machine.execFunctionLevelReset s
  | .linkStateChange up speed width bme => Sys2Proof.Machine.execLinkStateChange up speed width bme s
  | .linkDownTimeout => Sys2Proof.Machine.execLinkDownTimeout s
  | .modeReqOff src => Sys2Proof.Machine.execModeReqOff src s
  | .modeReqStandby src => Sys2Proof.Machine.execModeReqStandby src s
  | .modeReqConfigure src => Sys2Proof.Machine.execModeReqConfigure src s
  | .modeReqArmed src => Sys2Proof.Machine.execModeReqArmed src s
  | .modeArmedLocked => Sys2Proof.Machine.execModeArmedLocked s
  | .modeArmedTimeout => Sys2Proof.Machine.execModeArmedTimeout s
  | .modeReqCalibrate src calv ppm => Sys2Proof.Machine.execModeReqCalibrate src calv ppm s
  | .modeReqSafe src => Sys2Proof.Machine.execModeReqSafe src s
  | .modeReqIllegalTarget src five => Sys2Proof.Machine.execModeReqIllegalTarget src five s
  | .safeExitSysTimeout => Sys2Proof.Machine.execSafeExitSysTimeout s
  | .registerWrite src a v be m => Sys2Proof.Machine.execRegisterWrite src a v be m s
  | .stallTimeout src a write => Sys2Proof.Machine.execStallTimeout src a write s
  | .sysRefHzWrite src v => Sys2Proof.Machine.execSysRefHzWrite src v s
  | .rmbRead src n q0 q1 q2 => Sys2Proof.Machine.execRmbRead src n q0 q1 q2 s
  | .rmbStage src n q0 q1 q2 => Sys2Proof.Machine.execRmbStage src n q0 q1 q2 s
  | .rmbStep src n q0 q1 q2 vt => Sys2Proof.Machine.execRmbStep src n q0 q1 q2 vt s
  | .rmbReservedOp src n q0 q1 q2 => Sys2Proof.Machine.execRmbReservedOp src n q0 q1 q2 s
  | .rmbComplete n => Sys2Proof.Machine.execRmbComplete n s
  | .smallStepEnd n => Sys2Proof.Machine.execSmallStepEnd n s
  | .stepWindowEnd n => Sys2Proof.Machine.execStepWindowEnd n s
  | .boostHoldEnd n => Sys2Proof.Machine.execBoostHoldEnd n s
  | .boostStepDown n => Sys2Proof.Machine.execBoostStepDown n s
  | .bandSearchWindowEnd n f => Sys2Proof.Machine.execBandSearchWindowEnd n f s
  | .cachedHopDacRelease n => Sys2Proof.Machine.execCachedHopDacRelease n s
  | .cacheMissCheck n reached vt => Sys2Proof.Machine.execCacheMissCheck n reached vt s
  | .rdWp src g inc => Sys2Proof.Machine.execRdWp src g inc s
  | .wrWp src g inc => Sys2Proof.Machine.execWrWp src g inc s
  | .rdRat src g inc => Sys2Proof.Machine.execRdRat src g inc s
  | .wrRat src g inc => Sys2Proof.Machine.execWrRat src g inc s
  | .rdCb src g inc => Sys2Proof.Machine.execRdCb src g inc s
  | .wrCb src g inc => Sys2Proof.Machine.execWrCb src g inc s
  | .rtClr src g inc => Sys2Proof.Machine.execRtClr src g inc s
  | .rtReservedOp src g inc => Sys2Proof.Machine.execRtReservedOp src g inc s
  | .rtMailboxComplete g clash => Sys2Proof.Machine.execRtMailboxComplete g clash s
  | .rctlStart src g start ms => Sys2Proof.Machine.execRctlStart src g start ms s
  | .rctlNext src g start => Sys2Proof.Machine.execRctlNext src g start s
  | .rctlStop src g start => Sys2Proof.Machine.execRctlStop src g start s
  | .rctlReservedOp src g start => Sys2Proof.Machine.execRctlReservedOp src g start s
  | .hopctlHopWaypoint src g k => Sys2Proof.Machine.execHopctlHopWaypoint src g k s
  | .hopctlHopStaged src g k => Sys2Proof.Machine.execHopctlHopStaged src g k s
  | .dwellExpiry g => Sys2Proof.Machine.execDwellExpiry g s
  | .routeTrigger g kind joined => Sys2Proof.Machine.execRouteTrigger g kind joined s
  | .hopStart g half ready => Sys2Proof.Machine.execHopStart g half ready s
  | .hopCompletion g lockt va vb => Sys2Proof.Machine.execHopCompletion g lockt va vb s
  | .heldHopRelease g half ready => Sys2Proof.Machine.execHeldHopRelease g half ready s
  | .routeQueueServe g => Sys2Proof.Machine.execRouteQueueServe g s
  | .prelockStart g => Sys2Proof.Machine.execPrelockStart g s
  | .lockInWindow n vt => Sys2Proof.Machine.execLockInWindow n vt s
  | .unlock n mean ms => Sys2Proof.Machine.execUnlock n mean ms s
  | .missingEdge own quiet means => Sys2Proof.Machine.execMissingEdge own quiet means s
  | .monitorGateEnd n count means quiet ht own => Sys2Proof.Machine.execMonitorGateEnd n count means quiet ht s own
  | .lockTimerExpiry n ms => Sys2Proof.Machine.execLockTimerExpiry n ms s
  | .phaseJumpMeasured n j ht => Sys2Proof.Machine.execPhaseJumpMeasured n j ht s
  | .realignSlewEnd g => Sys2Proof.Machine.execRealignSlewEnd g s
  | .holdoverSelfcheckFail n ms => Sys2Proof.Machine.execHoldoverSelfcheckFail n ms s
  | .clrofsRequest src g retpol pause rate => Sys2Proof.Machine.execClrofsRequest src g retpol pause rate s
  | .clrofsSlewStart g => Sys2Proof.Machine.execClrofsSlewStart g s
  | .clrofsSlewEnd g => Sys2Proof.Machine.execClrofsSlewEnd g s
  | .pjSnapshot src g sel => Sys2Proof.Machine.execPjSnapshot src g sel s
  | .pjComplete g => Sys2Proof.Machine.execPjComplete g s
  | .outputEnableWrite src g o v => Sys2Proof.Machine.execOutputEnableWrite src g o v s
  | .apply src g milestone half => Sys2Proof.Machine.execApply src g milestone half s
  | .milestone => Sys2Proof.Machine.execMilestone s
  | .epochSnapshot src => Sys2Proof.Machine.execEpochSnapshot src s
  | .pmMeasure src g sel avg => Sys2Proof.Machine.execPmMeasure src g sel avg s
  | .pmAnchor src g sel avg => Sys2Proof.Machine.execPmAnchor src g sel avg s
  | .pmReservedOp src g op sel avg => Sys2Proof.Machine.execPmReservedOp src g op sel avg s
  | .pmComplete g mean => Sys2Proof.Machine.execPmComplete g mean s
  | .swingComplete g lockt => Sys2Proof.Machine.execSwingComplete g lockt s
  | .treeWatchdog g mean ms atS => Sys2Proof.Machine.execTreeWatchdog g mean ms s atS
  | .twinComparator g ms => Sys2Proof.Machine.execTwinComparator g ms s
  | .policyForce src g pol swmode twin => Sys2Proof.Machine.execPolicyForce src g pol swmode twin s
  | .policyTakesEffect g => Sys2Proof.Machine.execPolicyTakesEffect g s
  | .recoveryEntrySet g mean => Sys2Proof.Machine.execRecoveryEntrySet g mean s
  | .recoveryResume g => Sys2Proof.Machine.execRecoveryResume g s
  | .chainRxUp dn => Sys2Proof.Machine.execChainRxUp dn s
  | .chainRxDown dn => Sys2Proof.Machine.execChainRxDown dn s
  | .headTimeout => Sys2Proof.Machine.execHeadTimeout s
  | .chainFrame up chars seghd frac lat => Sys2Proof.Machine.execChainFrame up chars seghd s frac lat
  | .enumerationFrame p refhz lat => Sys2Proof.Machine.execEnumerationFrame p refhz s lat
  | .lenReply n lat => Sys2Proof.Machine.execLenReply n lat s
  | .measureComplete count th rt skew means quiet => Sys2Proof.Machine.execMeasureComplete count th rt skew means quiet s
  | .mscEnum src => Sys2Proof.Machine.execMscEnum src s
  | .mscRemeasure src => Sys2Proof.Machine.execMscRemeasure src s
  | .mscSched src => Sys2Proof.Machine.execMscSched src s
  | .mscReservedOp src op => Sys2Proof.Machine.execMscReservedOp src op s
  | .mbRead src sel => Sys2Proof.Machine.execMbRead src sel s
  | .mbWriteNewbase src sel => Sys2Proof.Machine.execMbWriteNewbase src sel s
  | .rejoinSlewStart delta late => Sys2Proof.Machine.execRejoinSlewStart delta late s
  | .rejoinSlewEnd => Sys2Proof.Machine.execRejoinSlewEnd s
  | .messageSend src dest all soon => Sys2Proof.Machine.execMessageSend src dest all soon s
  | .messagePop src => Sys2Proof.Machine.execMessagePop src s
  | .channelSettingsApply c => Sys2Proof.Machine.execChannelSettingsApply c s
  | .siteSettingsApply g => Sys2Proof.Machine.execSiteSettingsApply g s
  | .pinSwingHandover c tight => Sys2Proof.Machine.execPinSwingHandover c tight s
  | .pinSwingTimeout c => Sys2Proof.Machine.execPinSwingTimeout c s
  | .adcSampleEntry c code n susp settled pclamp => Sys2Proof.Machine.execAdcSampleEntry c code n susp settled pclamp s
  | .testStepStart g => Sys2Proof.Machine.execTestStepStart g s
  | .patNext g fails clips settled => Sys2Proof.Machine.execPatNext g fails clips s settled
  | .patRepeat g fails clips settled => Sys2Proof.Machine.execPatRepeat g fails clips s settled
  | .patLset g fails clips settled => Sys2Proof.Machine.execPatLset g fails clips s settled
  | .patLend g fails clips settled => Sys2Proof.Machine.execPatLend g fails clips s settled
  | .patJump g fails clips settled => Sys2Proof.Machine.execPatJump g fails clips s settled
  | .patMatch g fails clips settled => Sys2Proof.Machine.execPatMatch g fails clips s settled
  | .patRadv g fails clips settled => Sys2Proof.Machine.execPatRadv g fails clips s settled
  | .patMark g fails clips settled => Sys2Proof.Machine.execPatMark g fails clips s settled
  | .patWait g fails clips settled => Sys2Proof.Machine.execPatWait g fails clips s settled
  | .patNorpl g fails clips settled => Sys2Proof.Machine.execPatNorpl g fails clips s settled
  | .patHalt g fails clips settled => Sys2Proof.Machine.execPatHalt g fails clips s settled
  | .compareFifoHold g => Sys2Proof.Machine.execCompareFifoHold g s
  | .compareFifoRelease g => Sys2Proof.Machine.execCompareFifoRelease g s
  | .failCaptureDelivery g => Sys2Proof.Machine.execFailCaptureDelivery g s
  | .comparatorWordsEnter p => Sys2Proof.Machine.execComparatorWordsEnter p s
  | .pmbRead src g inc => Sys2Proof.Machine.execPmbRead src g inc s
  | .pmbWrite src g inc => Sys2Proof.Machine.execPmbWrite src g inc s
  | .pmbComplete g clash => Sys2Proof.Machine.execPmbComplete g clash s
  | .engNop p => Sys2Proof.Machine.execEngNop p s
  | .engAdd p => Sys2Proof.Machine.execEngAdd p s
  | .engSub p => Sys2Proof.Machine.execEngSub p s
  | .engAnd p => Sys2Proof.Machine.execEngAnd p s
  | .engOr p => Sys2Proof.Machine.execEngOr p s
  | .engShl p => Sys2Proof.Machine.execEngShl p s
  | .engShr p => Sys2Proof.Machine.execEngShr p s
  | .engSra p => Sys2Proof.Machine.execEngSra p s
  | .engMul p => Sys2Proof.Machine.execEngMul p s
  | .engAddi p => Sys2Proof.Machine.execEngAddi p s
  | .engOri p => Sys2Proof.Machine.execEngOri p s
  | .engLui p => Sys2Proof.Machine.execEngLui p s
  | .engCmp p => Sys2Proof.Machine.execEngCmp p s
  | .engCmpi p => Sys2Proof.Machine.execEngCmpi p s
  | .engLd p parity ms => Sys2Proof.Machine.execEngLd p parity ms s
  | .engSt p => Sys2Proof.Machine.execEngSt p s
  | .engBr p => Sys2Proof.Machine.execEngBr p s
  | .engCall p => Sys2Proof.Machine.execEngCall p s
  | .engRet p => Sys2Proof.Machine.execEngRet p s
  | .engLoop p => Sys2Proof.Machine.execEngLoop p s
  | .engLoopi p => Sys2Proof.Machine.execEngLoopi p s
  | .engHalt p => Sys2Proof.Machine.execEngHalt p s
  | .engMfs p cycle => Sys2Proof.Machine.execEngMfs p cycle s
  | .engMts p => Sys2Proof.Machine.execEngMts p s
  | .engClr p => Sys2Proof.Machine.execEngClr p s
  | .engMac p => Sys2Proof.Machine.execEngMac p s
  | .engSta p => Sys2Proof.Machine.execEngSta p s
  | .engAfl p => Sys2Proof.Machine.execEngAfl p s
  | .engPop p => Sys2Proof.Machine.execEngPop p s
  | .engLki p => Sys2Proof.Machine.execEngLki p s
  | .engSkip p => Sys2Proof.Machine.execEngSkip p s
  | .engWmk p => Sys2Proof.Machine.execEngWmk p s
  | .engHst p => Sys2Proof.Machine.execEngHst p s
  | .engHrd p => Sys2Proof.Machine.execEngHrd p s
  | .engMmx p => Sys2Proof.Machine.execEngMmx p s
  | .engLim p => Sys2Proof.Machine.execEngLim p s
  | .engRecv p => Sys2Proof.Machine.execEngRecv p s
  | .engEmitLead p => Sys2Proof.Machine.execEngEmitLead p s
  | .engEmitHost p => Sys2Proof.Machine.execEngEmitHost p s
  | .engRadv p => Sys2Proof.Machine.execEngRadv p s
  | .engCfp p => Sys2Proof.Machine.execEngCfp p s
  | .engFadd p => Sys2Proof.Machine.execEngFadd p s
  | .engFsub p => Sys2Proof.Machine.execEngFsub p s
  | .engFmul p => Sys2Proof.Machine.execEngFmul p s
  | .engFmac p => Sys2Proof.Machine.execEngFmac p s
  | .engFdiv p => Sys2Proof.Machine.execEngFdiv p s
  | .engFsqrt p => Sys2Proof.Machine.execEngFsqrt p s
  | .engFatn p => Sys2Proof.Machine.execEngFatn p s
  | .engFcvt p => Sys2Proof.Machine.execEngFcvt p s
  | .engFint p => Sys2Proof.Machine.execEngFint p s
  | .engFcmp p => Sys2Proof.Machine.execEngFcmp p s
  | .engIllegalOpcode p => Sys2Proof.Machine.execEngIllegalOpcode p s
  | .engineResume p => Sys2Proof.Machine.execEngineResume p s
  | .engineStarve p => Sys2Proof.Machine.execEngineStarve p s
  | .emitDelivery p => Sys2Proof.Machine.execEmitDelivery p s
  | .resultRecordWrite e => Sys2Proof.Machine.execResultRecordWrite e s
  | .imgcrcDone p => Sys2Proof.Machine.execImgcrcDone p s
  | .ectlStart src e entry => Sys2Proof.Machine.execEctlStart src e entry s
  | .engineStartAccepted p => Sys2Proof.Machine.execEngineStartAccepted p s
  | .ectlStop src e entry => Sys2Proof.Machine.execEctlStop src e entry s
  | .engineMemoryWrite src e k v => Sys2Proof.Machine.execEngineMemoryWrite src e k v s
  | .sqTailDoorbell r v whole => Sys2Proof.Machine.execSqTailDoorbell r v whole s
  | .cqHeadDoorbell r v whole => Sys2Proof.Machine.execCqHeadDoorbell r v whole s
  | .evheadWrite src v => Sys2Proof.Machine.execEvheadWrite src v s
  | .descriptorFetch d => Sys2Proof.Machine.execDescriptorFetch d s
  | .cmdNop h => Sys2Proof.Machine.execCmdNop h s
  | .exec h left rem => Sys2Proof.Machine.execExec h left rem s
  | .hop h left rem => Sys2Proof.Machine.execHop h left rem s
  | .cancel h => Sys2Proof.Machine.execCancel h s
  | .load h ws => Sys2Proof.Machine.execLoad h ws s
  | .hold h left rem => Sys2Proof.Machine.execHold h left rem s
  | .release h => Sys2Proof.Machine.execRelease h s
  | .guaranteeGrant h rem => Sys2Proof.Machine.execGuaranteeGrant h s rem
  | .phaseHoldLapse h => Sys2Proof.Machine.execPhaseHoldLapse h s
  | .deadlineExpiry h rem tie => Sys2Proof.Machine.execDeadlineExpiry h s rem tie
  | .completionPost r => Sys2Proof.Machine.execCompletionPost r s
  | .coalesceTimer r => Sys2Proof.Machine.execCoalesceTimer r s
  | .msixMaskWrite v w => Sys2Proof.Machine.execMsixMaskWrite v w s
  | .dmaErrorResponse r h => Sys2Proof.Machine.execDmaErrorResponse r h s
  | .rsetRead src r => Sys2Proof.Machine.execRsetRead src r s
  | .rsetConfigure src r => Sys2Proof.Machine.execRsetConfigure src r s
  | .rsetEnable src r => Sys2Proof.Machine.execRsetEnable src r s
  | .rsetStop src r => Sys2Proof.Machine.execRsetStop src r s
  | .rsetDisable src r => Sys2Proof.Machine.execRsetDisable src r s
  | .rsetReservedOp src op r => Sys2Proof.Machine.execRsetReservedOp src op r s
  | .rsetComplete => Sys2Proof.Machine.execRsetComplete s
  | .pseenWrite src v => Sys2Proof.Machine.execPseenWrite src v s
  | .eventMaskWrite src k v => Sys2Proof.Machine.execEventMaskWrite src k v s
  | .keywayWriteFrame hdr edges ws crc => Sys2Proof.Machine.execKeywayWriteFrame hdr edges ws crc s
  | .keywayReadFrame hdr edges strobes late => Sys2Proof.Machine.execKeywayReadFrame hdr edges strobes late s
  | .keywayWordApply m => Sys2Proof.Machine.execKeywayWordApply m s
  | .keywayReadAbort hdr k => Sys2Proof.Machine.execKeywayReadAbort hdr k s
  | .calRead src index => Sys2Proof.Machine.execCalRead src index s
  | .calRecord src index => Sys2Proof.Machine.execCalRecord src index s
  | .calStore src index => Sys2Proof.Machine.execCalStore src index s
  | .calCheckref src index calv ppm => Sys2Proof.Machine.execCalCheckref src index calv ppm s
  | .calReservedOp src index op => Sys2Proof.Machine.execCalReservedOp src index op s
  | .calCtrlComplete => Sys2Proof.Machine.execCalCtrlComplete s
  | .calStoreEnd ok => Sys2Proof.Machine.execCalStoreEnd ok s
  | .calibrationRunEnd => Sys2Proof.Machine.execCalibrationRunEnd s
  | .rollingCalStart g calv => Sys2Proof.Machine.execRollingCalStart g calv s
  | .rollingCalItemsDone g pass coast items ms => Sys2Proof.Machine.execRollingCalItemsDone g pass coast items ms s
  | .trimApply c => Sys2Proof.Machine.execTrimApply c s
  | .timingServoLoss c ms => Sys2Proof.Machine.execTimingServoLoss c ms s
  | .supplyOvercurrent c ms => Sys2Proof.Machine.execSupplyOvercurrent c ms s
  | .setRetry c pass => Sys2Proof.Machine.execSetRetry c pass s
  | .setSelftestDone c pass ms => Sys2Proof.Machine.execSetSelftestDone c pass ms s
  | .engineSelftestDone p pass ms => Sys2Proof.Machine.execEngineSelftestDone p pass ms s
  | .engineCopyDone sp prog bad => Sys2Proof.Machine.execEngineCopyDone sp prog bad s
  | .engineReturn p => Sys2Proof.Machine.execEngineReturn p s
  | .configStoreEnd ok => Sys2Proof.Machine.execConfigStoreEnd ok s
  | .replayStart g => Sys2Proof.Machine.execReplayStart g s
  | .unretireStart => Sys2Proof.Machine.execUnretireStart s
  | .unretireDone pass => Sys2Proof.Machine.execUnretireDone pass s
  | .hkEvaluation r copies levels ms => Sys2Proof.Machine.execHkEvaluation r copies levels ms s
  | .operatingSecond => Sys2Proof.Machine.execOperatingSecond s
  | .leaseExpiry => Sys2Proof.Machine.execLeaseExpiry s
  | .recordPeriodic => Sys2Proof.Machine.execRecordPeriodic s
  | .recordPageDone ok => Sys2Proof.Machine.execRecordPageDone ok s
  | .recordStored ok => Sys2Proof.Machine.execRecordStored ok s
  | .recordDieTimeout => Sys2Proof.Machine.execRecordDieTimeout s
  | .sectorEraseDone => Sys2Proof.Machine.execSectorEraseDone s
  | .recoverDone => Sys2Proof.Machine.execRecoverDone s
  | .recRead src => Sys2Proof.Machine.execRecRead src s
  | .recLive src => Sys2Proof.Machine.execRecLive src s
  | .recTime src => Sys2Proof.Machine.execRecTime src s
  | .recSetepoch src => Sys2Proof.Machine.execRecSetepoch src s
  | .recWrite src soon => Sys2Proof.Machine.execRecWrite src soon s
  | .recReservedOp src op => Sys2Proof.Machine.execRecReservedOp src op s
  | .recCtrlComplete => Sys2Proof.Machine.execRecCtrlComplete s
  | .arm src ms => Sys2Proof.Machine.execArm src ms s
  | .abort src => Sys2Proof.Machine.execAbort src s
  | .keyaWrite src v ms => Sys2Proof.Machine.execKeyaWrite src v ms s
  | .keybWrite src v ms => Sys2Proof.Machine.execKeybWrite src v ms s
  | .keyWindowExpiry ms => Sys2Proof.Machine.execKeyWindowExpiry ms s
  | .armWindowExpiry ms => Sys2Proof.Machine.execArmWindowExpiry ms s
  | .tapReset => Sys2Proof.Machine.execTapReset s
  | .extest cap load => Sys2Proof.Machine.execExtest cap load s
  | .samplePreload cap load => Sys2Proof.Machine.execSamplePreload cap load s
  | .idcode => Sys2Proof.Machine.execIdcode s
  | .clamp => Sys2Proof.Machine.execClamp s
  | .highz => Sys2Proof.Machine.execHighz s
  | .extestPulse cap load => Sys2Proof.Machine.execExtestPulse cap load s
  | .extestTrain cap load => Sys2Proof.Machine.execExtestTrain cap load s
  | .dbgLevel req => Sys2Proof.Machine.execDbgLevel req s
  | .dbgAccess wr waddr data late m => Sys2Proof.Machine.execDbgAccess wr waddr data late m s
  | .dbgEngStatus e => Sys2Proof.Machine.execDbgEngStatus e s
  | .dbgEngGate e => Sys2Proof.Machine.execDbgEngGate e s
  | .dbgEngStep e => Sys2Proof.Machine.execDbgEngStep e s
  | .dbgEngUngate e => Sys2Proof.Machine.execDbgEngUngate e s
  | .dbgEngBreakSet e a => Sys2Proof.Machine.execDbgEngBreakSet e a s
  | .dbgEngBreakClear e => Sys2Proof.Machine.execDbgEngBreakClear e s
  | .bypass c => Sys2Proof.Machine.execBypass c s
  | .perstDeassert => Sys2Proof.Machine.execPerstDeassert s
  | .tripLatchVinLow => Sys2Proof.Machine.execTripLatchVinLow s
  | .calItemMeasured u item o pass coast moved parts => Sys2Proof.Machine.execCalItemMeasured u item o pass coast moved parts s

end Sys2Proof.Machine
end

