-- ==== Sys2Proof/Machine/Tick.lean ====
section
/-! DEFINITION. Machine/Tick.lean: the passage of one reference period with no command waiting (R43, R114, R132, R154). -/

namespace Sys2Proof.Machine

/-- The epoch counter may start: the selected reference is qualified, the clock root is SYS, and the module is the head (R154). -/
def State.epochReady (s : State) : Bool :=
  s.ref.edges && s.ref.qualified && s.power.clkRoot != 2 && s.rd MSC R.MSC_STAT_STATE == 5

/-- The epoch counter at one reference edge: it counts modulo 2^48, or loads 0 where it may start (R132, R154). -/
def State.epochEdge (s : State) : State :=
  if s.running then { s with epoch := (s.epoch + 1) % 2 ^ 48 }
  else if s.epochReady then { s with epoch := 0, running := true }
  else s

/-- One reference period at every leaf that is on: its modulator advances at its PFD edges (R43, R50), and in HOLDOVER without a
reference at those of its own divider, which keeps running (R52). -/
def State.leafEdges (s : State) : State :=
  let runs (n : Nat) (l : Leaf) : Bool := l.on && (s.ref.edges || s.lst n == L_HOLDOVER)
  { s with leaves := s.leaves.map fun e => (e.1, if runs e.1 e.2 then e.2.refEdge else e.2) }

/-- HOLDT of each leaf in HOLDOVER counts the period, in whole microseconds (R103); `holdTicks` keeps the rest in units of
1 / SYS.REF_HZ µs. -/
def State.holdTick (s : State) : State :=
  forAll (s.leaves.map (·.1)) (fun n s =>
    s.gate (s.lst n == L_HOLDOVER && s.ref.inForce != 0) fun s =>
      let t := (s.leaf n).holdTicks + 1000000
      (s.modLeaf n fun l => { l with holdTicks := t % s.ref.inForce }).wr (LP n) R.LP_HOLDT
        (satTo 0xFFFFFFFF (s.rd (LP n) R.LP_HOLDT + t / s.ref.inForce))) s

/-- The phase words of every group run on (R207). -/
def State.wordTick (s : State) : State := forAll (s.groups.map (·.1)) (fun g s => s.wordOut g) s

/-- The channels in CLK mode run on (R185). -/
def State.clkTicks (s : State) : State := forAll (s.groups.map (·.1)) (fun g s => s.clkTick g) s

/-- Each direction carries a continuous stream of frames (R153): 500 M characters a second on a running transmitter, 128 to a
frame; those that carry nothing more leave here. -/
def State.frameTick (s : State) : State :=
  let n := s.chain.chars + 500000000
  if !s.variant.mc || s.ref.inForce = 0 || s.power.clkRoot == 2 then s
  else if n < 128 * s.ref.inForce then s.modChain fun c => { c with chars := n }
  else ((s.modChain fun c => { c with chars := n - 128 * s.ref.inForce }).plainFrame true).plainFrame false

/-- One reference period passes. -/
def idle (s : State) : Host.Outcome State Fault Refusal :=
  run s fun s => s.epochEdge.leafEdges.holdTick.wordTick.clkTicks.frameTick

end Sys2Proof.Machine
end

