-- ==== Sys2Proof/Safety.lean ====
section
/-! DEFINITION. Safety.lean: the terms in which claims about the module are stated: what a command leaves as it was (frames), the
words that event reporting may change in any cycle, and the form of a state in which every cycle has been ended. -/

namespace Sys2Proof.Machine

/-- The register words that reporting the events of a cycle may change (R244, R262, R405, R408): EVT.SEQ, EVT.PCOUNT, HIF.EVLOST,
RSTAT of ring 16, and the Pending Bit Array. -/
def eventWords : List Nat :=
  [EVT + R.EVT_SEQ.off, EVT + R.EVT_PCOUNT.off, HIF + R.HIF_EVLOST.off, RB 16 + R.HIF_RSTAT_CQTAIL.off,
    HIF + R.HIF_PBA.off, HIF + R.HIF_PBA.off + 4]

/-- The pieces of state that the module holds beside its register words, each unit (leaf, group, set, engine, ring, mailbox by the
address of its control register) by its number. -/
inductive Part where
  | config | power | ref | epoch | leaf (n : Nat) | grp (g : Nat) | chan (c : Nat) | eng (e : Nat) | cmds | ring (r : Nat) | holds
  | box (a : Nat) | reco | chain | cal | flt | therm | prot | kw | tap | trims | modRecs | msix | link | fetch | supply | bootq | free | queue
  deriving DecidableEq, Repr

/-- A piece of state is the same in two states. Commands that are over are left out of account, since their posting is a matter of
the ring; of a ring, what software has stored and written. -/
def Part.same (p : Part) (s t : State) : Prop :=
  match p with
  | .config => t.variant = s.variant ∧ t.image = s.image ∧ t.store = s.store ∧ t.pci = s.pci
  | .power => t.power = s.power
  | .ref => t.ref = s.ref
  | .epoch => t.epoch = s.epoch ∧ t.running = s.running
  | .leaf n => t.leaf n = s.leaf n
  | .grp g => t.grp g = s.grp g
  | .chan c => t.chan c = s.chan c
  | .eng e => t.eng e = s.eng e
  | .cmds => (t.cmds.filter fun c => c.phase != .done) = s.cmds.filter fun c => c.phase != .done
  | .ring r => (t.ring r).d = (s.ring r).d ∧ (t.ring r).stored = (s.ring r).stored ∧ (t.ring r).cqHead = (s.ring r).cqHead
  | .holds => t.holds = s.holds
  | .box a => t.box a = s.box a
  | .reco => t.reco = s.reco
  | .chain => t.chain = s.chain
  | .cal => t.cal = s.cal
  | .flt => t.flt = s.flt
  | .therm => t.therm = s.therm
  | .prot => t.prot = s.prot
  | .kw => t.kw = s.kw
  | .tap => t.tap = s.tap
  | .trims => t.trims = s.trims
  | .modRecs => t.modRecs = s.modRecs
  | .msix => t.msixEn = s.msixEn ∧ t.msixMask = s.msixMask
  | .link => t.linkLost = s.linkLost
  | .fetch => t.fetchNext = s.fetchNext
  | .supply => t.railOut = s.railOut ∧ t.vinOut = s.vinOut
  | .bootq => t.bootQOn = s.bootQOn
  | .free => t.freeCtr = s.freeCtr
  | .queue => t.pending = s.pending

/-- `t` differs from `s` at most in the pieces of state `parts`, in the register words that `regs` names, and in what event
reporting changes. -/
def Frame (s t : State) (parts : List Part) (regs : Nat → Bool) : Prop :=
  (∀ p, p ∉ parts → p.same s t) ∧ ∀ a, regs a = false → a ∉ eventWords → t.word a = s.word a

/-- The register words of a list. -/
def words (l : List Nat) : Nat → Bool := fun a => l.contains a

/-- The register words of `n` bytes from `lo`. -/
def block (lo n : Nat) : Nat → Bool := fun a => decide (lo ≤ a) && decide (a < lo + n)

/-- The register words that taking a request behind the GO field `go` of page `b` writes: its control register and the count of
configuration writes of either interface (R275, R391). -/
def reqWords (b : Nat) (go : Fld) : List Nat := [b + go.off, PROT + R.PROT_CFGWA.off, PROT + R.PROT_CFGWK.off]

/-- LSTAT of every leaf: a change of frequency evaluates SPUR5 of them all (R65). -/
def lstatWords : List Nat := (List.range 34).map fun n => LP n + R.LP_LSTAT_BAND.off

/-- OSTAT of the outputs of group g. -/
def ostatWords (g : Nat) : List Nat := (List.range 36).map fun o => OP g o + R.OP_OSTAT_PEND.off

/-- The register words that any set of a list holds. -/
def oneOf (l : List (Nat → Bool)) : Nat → Bool := fun a => l.any fun f => f a

/-- The page of leaf n. -/
def leafPage (n : Nat) : Nat → Bool := block (LP n) 0x100

/-- The registers of group g beside its leaf pages. -/
def grpRegs (g : Nat) : Nat → Bool := block (GS g) 0x100

/-- The output, phase-word and phase-measurement registers of group g. -/
def outRegs (g : Nat) : Nat → Bool := block (OUT g) 0x1000

/-- Both leaves of group g. -/
def leavesOf (g : Nat) : List Part := [.leaf (2 * g), .leaf (2 * g + 1)]

/-- The ratio mailboxes of group g (16: of the SYS leaves), where a step that is cut short leaves its result (R63). -/
def ratioBoxes (g : Nat) : List Part := (List.range 2).map fun i => .box (LP (2 * g + i) + R.LP_RMB_CTRL_GO.off)

/-- The registers of every leaf and every group. -/
def loopRegs : Nat → Bool := oneOf ((List.range 34).map leafPage ++ (List.range 16).map grpRegs)

/-- Every leaf, and every group that a table lists. -/
def State.loopParts (s : State) : List Part :=
  (List.range 34).map .leaf ++ (List.range 16).map .grp ++ s.groups.map fun e => .grp e.1

/-- The registers of the BANK domains, with the spur flags of the SYS leaves. -/
def bankRegs : Nat → Bool := fun a => decide (0x10000 ≤ a) || lstatWords.contains a

/-- Every unit of the BANK domains that the variants have: groups, leaves, sets and engines with their spares, the mailboxes of
their pages, and what commands and trims hold for them. -/
def State.bankParts (s : State) : List Part :=
  s.loopParts ++ (List.range 528).map .chan ++ (List.range 528).map .eng ++ (s.boxes.map fun e => .box e.1)
    ++ [.trims, .cmds, .modRecs]

/-- No register word. -/
def noWords : Nat → Bool := fun _ => false

/-- A chain frame with a good CRC has left the upstream (`up`) or downstream port, with `offer` as the position that its enumeration
offers in full (0 without one) and characters that meet `f` (R153, R156). -/
def State.sends (s : State) (up : Bool) (offer : Nat) (f : List (BitVec 8) → Bool) : Bool :=
  s.out.any fun o => match o with
    | .chain u n _ cs => u == up && n == offer && frameOk cs && f cs
    | _ => false

/-- The characters of an enumeration that offers position p at a reference of hz (R156). -/
def isEnum (p hz : Nat) (cs : List (BitVec 8)) : Bool :=
  frameField cs 26 2 == p % 4096 + 4096 && frameField cs 30 4 == hz

/-- The characters of a LEN reply n (R156). -/
def isLen (n : Nat) (cs : List (BitVec 8)) : Bool := bitOf (frameField cs 26 2) 13 && frameField cs 28 2 == n

/-- The characters of a message with header h and the words of MSG_TD0 to MSG_TD3 (R153, R168). -/
def isMessage (h : Nat) (ws : List Nat) (cs : List (BitVec 8)) : Bool :=
  bitOf (frameField cs 1 1) 4 && frameField cs 48 4 == h && frameField cs 52 4 == ws.getD 0 0 && frameField cs 56 4 == ws.getD 1 0
    && frameField cs 60 4 == ws.getD 2 0 && frameField cs 64 2 == ws.getD 3 0 % 65536

/-- The cycle of the last command has been ended: every occurrence has been reported, and the active instances of level events are
those whose causes hold (R405). While AON is off there are none. -/
abbrev State.Settled (s : State) : Prop := s.occ = [] ∧ s.active = if s.power.aon then s.levels else []

/-- The tables of registers, trims in force, units, rings and mailboxes are in canonical form: keys strictly rising, and no entry
equal to what its key reads when nothing is listed. -/
abbrev State.Canonical (s : State) : Prop :=
  Tab.wf (resetWord s.variant) s.regs = true ∧ Tab.wf (resetWord s.variant) s.trims = true ∧ Tab.wf (fun _ => {}) s.leaves = true
    ∧ Tab.wf (fun _ => {}) s.groups = true ∧ Tab.wf (fun _ => {}) s.chans = true ∧ Tab.wf (fun _ => {}) s.engines = true
    ∧ Tab.wf (fun _ => {}) s.rings = true ∧ Tab.wf (fun _ => {}) s.boxes = true

/-- A request over `src` behind the GO field `go` of page `b` is taken: the agent has access, the unit is there and on, and no
request is pending (R275, R289). -/
abbrev State.Takes (s : State) (src : Src) (b : Nat) (go : Fld) : Prop :=
  s.access src = true ∧ s.blockOn (b + go.off) = true ∧ s.is b go = false

/-- No group is on, so no unit of the BANK domains is; no descriptor, guarantee, calibration run or mode request is live; nothing is
being written to a slot. So the module stands in STANDBY or SAFE, and in any mode while no ring owns a site. -/
abbrev State.Quiet (s : State) : Prop :=
  s.groups = [] ∧ s.cmds = [] ∧ s.holds = [] ∧ s.cal.run = false ∧ s.cal.storing = none ∧ s.flt.store = none ∧ s.prot.store = none
    ∧ s.prot.storeNext = false

/-- Engine x issues its next instruction, which has opcode `op` and none of the bits `unused` set: it runs, is not held at a gate
or a breakpoint, and the word at PC is that instruction (R216, R227, R398). -/
abbrev Engine.Issues (x : Engine) (op unused : Nat) : Prop :=
  x.on = true ∧ x.st = E_RUN ∧ (x.gated = false ∨ x.stepOne = true) ∧ (x.brk ≠ some x.pc ∨ x.stepOne = true)
    ∧ opcodeOf x.insn = op ∧ x.insn.toNat &&& unused = 0

/-- An engine that goes on at address t. -/
def Engine.at_ (x : Engine) (t : Nat) : Engine := { x with pc := t, stepOne := false, waitOn := 0, st := E_RUN, skipLeft := none }

/-- An engine after an instruction that falls through, its loops included (R232). -/
def Engine.after (x : Engine) : Engine := x.fall.at_ x.fall.pc

/-- An engine that takes an exception (R235). -/
def Engine.trapped (x : Engine) : Engine := { x with st := E_EXC, waitOn := 0, skipLeft := none, stepOne := false }

/-- Engine p, in state x, takes exception `code`: the state before the failing instruction stands, EXCINFO and EXCCNT follow, and
of its command, if any, what it notes (R235). -/
def State.Traps (s t : State) (p code : Nat) : Prop :=
  t.eng p = (s.eng p).trapped ∧ t.rd (ENG p) R.ENG_EXCINFO_CODE = code ∧ t.rd (ENG p) R.ENG_EXCINFO_PC = (s.eng p).pc % 1024
    ∧ t.rd (ENG p) R.ENG_EXCCNT = (s.rd (ENG p) R.ENG_EXCCNT + 1) % 2 ^ 32
    ∧ Frame s t (.eng p :: if (s.eng p).handle = none then [] else [.cmds, .modRecs])
        (words [ENG p + R.ENG_EXCINFO_CODE.off, ENG p + R.ENG_EXCCNT.off])

/-- A command answers a next state in which `P` holds. -/
def Next (o : Host.Outcome State Fault Refusal) (P : State → Prop) : Prop := ∃ t, o = .next t ∧ P t

end Sys2Proof.Machine
end

