-- ==== Sys2Proof/WellFormed.lean ====
section
/-! DEFINITION. WellFormed.lean: the commands whose operands have the form that the spec gives them. A list that is too short reads
as 0 beyond its end, so every meaning is total; claims that rest on the form name `Instr.wf`. -/

namespace Sys2Proof

namespace Machine

/-- A telemetry frame names six rails, four banks, and four counts for each command (R8, R260). -/
def Telemetry.wf (t : Telemetry) : Bool :=
  t.volts.length == 6 && t.amps.length == 6 && t.bins.length == 6 && t.outs.length == 6 && t.ins.length == 6
    && t.bankNj.length == 4 && t.held.all fun h => h.2.length == 4

/-- No rail and no VIN lies both inside and outside for one whole frame (R403). -/
def Telemetry.sound (t : Telemetry) : Bool :=
  !(t.vinOut && t.vinIn) && (List.zip t.outs t.ins).all fun e => !(e.1 && e.2)

end Machine

/-- The code of a BYPASS is 0xFF or one that R392 does not list. -/
def bypassCode (c : Nat) : Bool := decide (6 < c) && !(decide (0x10 ≤ c) && decide (c ≤ 0x12))

/-- The form of a command's operands. Rows without a case have operands whose types say all that the spec asks. -/
def Instr.wf (i : Instr) : Bool :=
  match i with
  | .telemetryFrame t _ => t.wf && t.sound
  | .missingEdge _ _ means => means.length == 34
  | .monitorGateEnd _ _ means _ _ _ => means.length == 34
  | .measureComplete _ _ _ _ means _ => means.length == 34
  | .descriptorFetch d => d.length == 16
  | .keywayWriteFrame _ _ ws _ => decide (ws.length ≤ 256)
  | .hkEvaluation r _ _ _ => r.reads.length == 24
  | .registerWrite _ a _ _ _ => a.toNat % 4 == 0
  | .stallTimeout _ a _ => a.toNat % 4 == 0
  | .bypass c => bypassCode c.toNat
  | _ => true

end Sys2Proof
end

