-- ==== Sys2Proof/Certificates/Slice0/Obligations.lean ====
section
/-! DEFINITION. Certificates/Slice0/Obligations.lean: the statements about the module, for the provers. `Next o P` says that a command
answers a next state in which `P` holds, and `Frame s t parts regs` that nothing differs between `s` and `t` but the pieces of
state `parts`, the register words `regs`, and what event reporting changes. -/

open Sys2Proof Sys2Proof.Machine

/-- VIN_RISE starts BOOT with every register at reset; B1 to B3 bring up AON and HOST, read the image or the defaults, and
count the power cycle (R27, R42, R30, R31, R32, R363, R367, R376). -/
def Obligations.BootFromVinRiseToB3 : Prop :=
  (
    (∀ s : State, s.mode = MODE_OFF → s.power.latched = false ∨ s.power.lowSinceTrip = true →
      Next (exec .vinRise s) fun t =>
        t.mode = MODE_BOOT ∧ t.power = { bootPhase := 1, perst := s.power.perst } ∧ t.reco = { die := s.reco.die }
        ∧ (∀ a, a ≠ GLB + R.GLB_MODE_CUR.off → a ∉ eventWords → t.word a = resetWord s.variant a)
        ∧ (∀ g, t.grp g = {}) ∧ (∀ n, t.leaf n = {}) ∧ (∀ c, t.chan c = {}) ∧ (∀ e, t.eng e = {})
        ∧ t.image = [] ∧ t.store = [] ∧ t.tap = {} ∧ t.epoch = 0)
    ∧ (∀ s : State, s.mode = MODE_OFF → s.power.latched = true → s.power.lowSinceTrip = false →
      Next (exec .vinRise s) fun t => Frame s t [] noWords)
    ∧ ∀ s : State, s.power.latched = true →
      Next (exec .tripLatchVinLow s) fun t =>
        t.power = { s.power with lowSinceTrip := true } ∧ Frame s t [.power] noWords)
  ∧ (
    (∀ s : State, s.mode = MODE_BOOT → s.power.bootStopped = false → s.power.bootPhase = 1 →
      Next (exec .bootB1Done s) fun t =>
        t.power = { s.power with bootPhase := 2, aon := true, host := true } ∧ t.bootQOn = true
        ∧ Frame s t [.power, .bootq] noWords)
    ∧ (∀ (s : State) (answers : Bool), s.mode = MODE_BOOT → s.power.bootStopped = false → s.power.bootPhase = 2 →
      Next (exec (.bootB2Done answers) s) fun t =>
        t.power = { s.power with bootPhase := 3 } ∧ t.reco.die = { s.reco.die with answers := answers } ∧ t.store = s.store
        ∧ (answers = false ∨ s.reco.die.newestSlot = none → t.image = [] ∧ t.rd GLB R.GLB_MODE_IMGDEF = 1)
        ∧ (∀ x, answers = true → s.reco.die.newestSlot = some x → t.image = x.2)
        ∧ (answers = true → (∀ h ∈ s.reco.die.heads, h.opsec < t.reco.opsec ∧ h.count < t.reco.count)
            ∧ ∀ r ∈ s.reco.die.recs, r.data.opsec < t.reco.opsec)
        ∧ Frame s t [.power, .config, .reco]
            (words [GLB + R.GLB_MODE_IMGDEF.off, REC + R.REC_NEWEST.off, REC + R.REC_OLDEST.off, REC + R.REC_PCOUNT.off,
              REC + R.REC_STAT_STATE.off]))
    ∧ ∀ s : State, s.mode = MODE_BOOT → s.power.bootStopped = false → s.power.bootPhase = 3 →
      Next (exec .bootB3Done s) fun t =>
        t.power = { s.power with bootPhase := 4 } ∧ { t.reco with die := s.reco.die } = s.reco
        ∧ (s.reco.die.answers = true →
            { t.reco.die with headA := s.reco.die.headA, headB := s.reco.die.headB } = s.reco.die
            ∧ t.reco.die.headA.dropLast = s.reco.die.headA ∧ t.reco.die.headB.dropLast = s.reco.die.headB
            ∧ ∀ l, l = t.reco.die.headA ∨ l = t.reco.die.headB →
              (l.getLast?.map fun h => (h.count, h.opsec)) = some (s.reco.count, s.reco.opsec))
        ∧ (s.reco.die.answers = false → t.reco.die = s.reco.die)
        ∧ t.pci = { s.pci with subsys := Tab.get 0 s.image SUBSYS_KEY } ∧ t.image = s.image ∧ t.store = s.store
        ∧ (∀ a w r, s.image = [(a, w)] → a < 2 ^ 24 → rowOf a = some r → (∀ i < 16, a ≠ ENG (512 + i) + R.ENG_SERVES_ENG.off) →
            a ∉ eventWords →
            t.word a = (s.word a &&& ~~~ BitVec.ofNat 32 r.img) ||| (w &&& BitVec.ofNat 32 r.img))
        ∧ Frame s t [.power, .reco, .config] (fun a => s.image.any (fun e => e.1 == a)
            || (List.range 16).any fun i => a == ENG (512 + i) + R.ENG_SERVES_ENG.off))

/-- BOOT phases B4 and B5: the CLK domain comes on with both SYS leaves waiting for the reference; without a fault BOOT
ends in STANDBY (R30, R34, R60). -/
def Obligations.BootPhasesB4AndB5 : Prop :=
  (∀ s : State, s.mode = MODE_BOOT → s.power.bootStopped = false → s.power.bootPhase = 4 →
    Next (exec .bootB4Done s) fun t =>
      t.power.bootPhase = 5 ∧ t.power.clk = true ∧ t.power.sysLocked = false
      ∧ (s.reco.die.answers = false ∨ s.reco.die.calNewest = none → t.store = s.store ∧ t.ref.inForce = s.refHz
          ∧ ∀ n, n = 32 ∨ n = 33 → s.leafRetired n = false →
              (t.leaf n).on = true ∧ t.rd (LP n) R.LP_LSTATE_WAITREF = 1))
  ∧ (∀ (s : State) (ms : Fin 1000), s.mode = MODE_BOOT → s.power.bootStopped = false → s.power.bootPhase = 5 →
      s.rd HK R.HK_PHASES_FAILED = 0 →
      s.power.sysLocked = false ∨ (s.sysServes s.sysAct = true ∧ s.sysAble s.sysIdle = true) →
      Next (exec (.bootB5Done true 0 0 ms) s) fun t =>
        t.mode = MODE_STANDBY ∧ t.rd GLB R.GLB_MODE_PREV = MODE_BOOT ∧ t.power = { s.power with bootPhase := 6 }
        ∧ t.reco.recovering = s.reco.die.answers
        ∧ Frame s t [.power, .reco] (fun a => s.regs.any (fun e => e.1 == a)
            || words [GLB + R.GLB_MODE_CUR.off, HK + R.HK_PHASES_FAILED.off, REC + R.REC_STAT_STATE.off] a))
  ∧ ∀ (s : State) (ms : Fin 1000), s.mode = MODE_BOOT → s.power.bootStopped = false → s.power.bootPhase = 5 → s.Quiet →
      s.power.reqPending = false →
      (s.rd HK R.HK_PHASES_FAILED = 0 →
        Next (exec (.bootB5Done false 0 0 ms) s) fun t =>
          t.mode = MODE_SAFE ∧ t.rd GLB R.GLB_MODE_SAFE_CAUSE = SC_SELFTEST)
      ∧ Next (exec (.bootB5Done true 7 0 ms) s) fun t =>
          t.mode = MODE_SAFE ∧ t.rd GLB R.GLB_MODE_SAFE_CAUSE = SC_PHASES

/-- VIN loss: BOOT stops where it is, SAFE keeps its cause pending, another mode enters SAFE with cause VINLOSS;
VIN_RETURN undoes it (R26, R37, R38, R39). -/
def Obligations.VinLossEntersSafe : Prop :=
  (∀ s : State, s.power.vinLost = false → s.is PROT R.PROT_CTRL_LIVE = false →
    (s.mode = MODE_BOOT → Next (exec .vinLoss s) fun t =>
      t.power = { s.power with vinLost := true, bootStopped := true }
      ∧ (s.power.bootStopped = true ∨ s.power.bootPhase ≠ 3 → Frame s t [.power] noWords)
      ∧ (s.power.bootPhase = 3 → (∃ k < 3, t.reco = (s.headerPages k).reco) ∧ Frame s t [.power, .reco, .free] noWords))
    ∧ (s.mode = MODE_SAFE → s.power.sysExit = false → s.power.exitWait = false → Next (exec .vinLoss s) fun t =>
      t.mode = MODE_SAFE ∧ t.rd GLB R.GLB_MODE_SAFE_CAUSE = SC_VINLOSS
      ∧ t.power = { s.power with vinLost := true, holdStep := 2, pendCause := s.rd GLB R.GLB_MODE_SAFE_CAUSE,
                                 safeRecPending := s.power.safeRecPending || !s.is GLB R.GLB_MODE_PDRDY }
      ∧ Frame s t [.power, .reco] (words [GLB + R.GLB_MODE_CUR.off, REC + R.REC_STAT_STATE.off]))
    ∧ (2 ≤ s.mode → s.mode ≤ 6 → s.Quiet → s.power.reqPending = false →
        (∀ g < s.variant.groups, s.is (GS g) R.GS_HOPCTL_GO = false) → Next (exec .vinLoss s) fun t =>
      t.mode = MODE_SAFE ∧ t.rd GLB R.GLB_MODE_SAFE_CAUSE = SC_VINLOSS ∧ t.rd GLB R.GLB_MODE_PREV = s.mode
      ∧ t.power = { s.power with vinLost := true, holdStep := 1, pendCause := 0,
                                 safeRecPending := s.power.safeRecPending || !s.is GLB R.GLB_MODE_PDRDY }
      ∧ (s.is GLB R.GLB_MODE_PDRDY = false → ∃ d, d.typ = 1 ∧ t.reco.waiting = s.reco.waiting ++ [d])
      ∧ Frame s t [.power, .reco, .therm] (words [GLB + R.GLB_MODE_CUR.off, REC + R.REC_STAT_STATE.off])))
  ∧ (∀ s : State, s.power.vinLost = true → s.mode = MODE_BOOT → Next (exec .vinReturn s) fun t =>
      t.mode = MODE_BOOT ∧ t.power = { bootPhase := 1, perst := s.power.perst } ∧ t.reco = { die := s.reco.die })
  ∧ ∀ s : State, s.power.vinLost = true → s.mode = MODE_SAFE → s.Quiet → s.power.clk = false →
      Next (exec .vinReturn s) fun t =>
        t.power = { s.power with vinLost := false, holdStep := 0, pendCause := 0 }
        ∧ (s.power.pendCause = 0 → t.rd GLB R.GLB_MODE_SAFE_CAUSE = s.rd GLB R.GLB_MODE_SAFE_CAUSE)
        ∧ (s.power.pendCause ≠ 0 → t.rd GLB R.GLB_MODE_SAFE_CAUSE = s.power.pendCause % 16)
        ∧ Frame s t [.power, .reco, .flt] (words [GLB + R.GLB_MODE_CUR.off, REC + R.REC_STAT_STATE.off])

/-- The rows of the hold-up sequence follow each other, and each does its part; the bank exhausted, the module is OFF
(R37, R36). -/
def Obligations.HoldUpSequence : Prop :=
  (∀ s : State, s.mode = MODE_SAFE → s.power.vinLost = true → s.Quiet →
    (s.power.holdStep = 1 → Next (exec .holdupBanksOff s) fun t =>
      t.power = { s.power with holdStep := 2 } ∧ Frame s t [.power] noWords)
    ∧ (s.power.holdStep = 2 → s.power.downStep ≠ 2 → (∀ r < 16, (s.ring r).waiting = []) → Next (exec .holdupAbandonWrites s) fun t =>
      t.power = { s.power with holdStep := 3 } ∧ t.reco.erase = none ∧ t.reco.eraseQ = []
      ∧ (s.reco.page = true → t.reco.pageDone = true)
      ∧ Frame s t [.power, .reco, .flt] (words [REC + R.REC_STAT_STATE.off]))
    ∧ (s.power.holdStep = 3 → s.reco.recovering = false → s.reco.die.answers = true →
        (∀ d, s.reco.waiting = [d] → d.typ = 1 → Next (exec .holdupSafeRecord s) fun t =>
          t.power.holdStep = 4 ∧ t.reco.waiting = [] ∧ t.reco.page = false
          ∧ (t.reco.die.recs.getLast?.map fun x => (x.data.typ, x.data.seq)) = some (1, d.seq)))
    ∧ (s.power.holdStep = 4 → s.power.clk = true → Next (exec .holdupClkOff s) fun t =>
      t.power.holdStep = 5 ∧ t.power.clk = false ∧ t.power.clkRoot = 2 ∧ t.running = false
      ∧ t.lst 32 = L_OFF ∧ t.lst 33 = L_OFF ∧ t.leaf 32 = {} ∧ t.leaf 33 = {}))
  ∧ (∀ s : State, s.power.vinLost = true → s.mode = MODE_BOOT ∨ s.power.holdStep = 5 →
      Next (exec .holdupBankExhausted s) fun t =>
        t.mode = MODE_OFF ∧ t.reco = { die := s.reco.die } ∧ t.power.aon = false
        ∧ (∀ a, a ∉ eventWords → t.word a = resetWord s.variant a))
  ∧ ∀ s : State, s.power.holdStep ≠ 1 → Next (exec .holdupBanksOff s) fun t => Frame s t [] noWords

/-- A critical trip cuts every rail with the dies latched, three failed phases lead to SAFE, and a telemetry frame fills
the supply registers (R42, R8, R26, R416, R260, R368). -/
def Obligations.TripsPhasesAndTelemetry : Prop :=
  (
    (∀ s : State, s.mode ≠ MODE_OFF → s.power.tripNotice = false →
      (s.is PROT R.PROT_CTRL_LIVE = false → Next (exec .criticalTrip s) fun t =>
        t.power = { s.power with tripNotice := true } ∧ Frame s t [.power] noWords)
      ∧ (s.is PROT R.PROT_CTRL_LIVE = true → Next (exec .criticalTrip s) fun t =>
        t.power = { s.power with tripNotice := true } ∧ t.rd PROT R.PROT_CTRL_LIVE = 0 ∧ t.rd PROT R.PROT_CTRL_RESULT = 0
        ∧ t.rd PROT R.PROT_CHAL = 0 ∧ t.rd PROT R.PROT_STATE_PSTATE = s.rd PROT R.PROT_STATE_PSTATE
        ∧ Frame s t [.power, .prot]
            (words [PROT + R.PROT_CTRL_LIVE.off, PROT + R.PROT_CHAL.off, PROT + R.PROT_KEYA.off, PROT + R.PROT_KEYB.off])))
    ∧ (∀ s : State, s.power.tripNotice = true → Next (exec .railsCut s) fun t =>
        t.mode = MODE_OFF ∧ t.power = { latched := true, lowSinceTrip := s.power.vinLost, perst := s.power.perst }
        ∧ (s.reco.page = false → s.cal.storing = none → s.mode ≠ MODE_BOOT ∨ s.power.bootPhase ≠ 3 → t.reco = { die := s.reco.die })
        ∧ (∀ a, a ∉ eventWords → t.word a = resetWord s.variant a))
    ∧ ∀ (s : State) (p : Fin 16), s.power.aon = true → bitOf (s.rd HK R.HK_PHASES_FAILED) p = false →
        let m := setBit (s.rd HK R.HK_PHASES_FAILED) p true
        let n := ((List.range 16).filter fun i => bitOf m i).length
        (n < 3 → Next (exec (.phaseFailed p) s) fun t =>
          t.rd HK R.HK_PHASES_FAILED = m ∧ t.rd HK R.HK_PHASES_NFAIL = n ∧ Frame s t [] (words [HK + R.HK_PHASES_FAILED.off]))
        ∧ (n = 3 → 2 ≤ s.mode → s.mode ≤ 6 → s.Quiet → s.power.reqPending = false →
            (∀ g < s.variant.groups, s.is (GS g) R.GS_HOPCTL_GO = false) → Next (exec (.phaseFailed p) s) fun t =>
          t.mode = MODE_SAFE ∧ t.rd GLB R.GLB_MODE_SAFE_CAUSE = SC_PHASES ∧ t.rd HK R.HK_PHASES_NFAIL = 3))
  ∧ (
    ∀ (s : State) (m : Telemetry) (overrun : Bool), s.power.aon = true → (Instr.telemetryFrame m overrun).wf = true →
      Next (exec (.telemetryFrame m overrun) s) fun t =>
        t.rd HK R.HK_VIN_VIN = m.vin.toNat % 2 ^ R.HK_VIN_VIN.width ∧ t.rd HK R.HK_PIN = m.pin.toNat % 2 ^ R.HK_PIN.width
        ∧ t.rd HK R.HK_VIN_INRANGE = b2n m.vinIn ∧ t.rd HK R.HK_PHASES_HOLDOK = b2n m.hold
        ∧ (∀ n < 6, t.rd (HK + 4 * n) R.HK_RAIL_V = (m.volts.getD n 0).toNat % 2 ^ R.HK_RAIL_V.width
            ∧ t.rd (HK + 4 * n) R.HK_RAIL_I = (m.amps.getD n 0).toNat % 2 ^ R.HK_RAIL_I.width)
        ∧ t.rd HK R.HK_ENERGY = (s.rd HK R.HK_ENERGY + m.energy.toNat) % 2 ^ 32
        ∧ t.vinOut = (m.vinOut || (s.vinOut && !m.vinIn))
        ∧ (∀ n < 6, bitOf t.railOut n = (m.outs.getD n false || (bitOf s.railOut n && !m.ins.getD n false)))
        ∧ (m.held = [] → (t.cmds.filter fun c => c.phase != .done) = s.cmds.filter fun c => c.phase != .done)
        ∧ Frame s t [.power, .reco, .supply, .cmds]
            (words ([HK + R.HK_VIN_VIN.off, HK + R.HK_PIN.off, HK + R.HK_PHASES_HOLDOK.off, HK + R.HK_ENERGY.off]
              ++ (List.range 6).map fun n => HK + 4 * n + R.HK_RAIL_V.off)))

/-- Requests for no or the present mode are answered at once; between STANDBY, CONFIGURE and ARMED a quiet module meets,
holds or refuses a request (R25, R27, R28). -/
def Obligations.RequestsOfTheStandbyModes : Prop :=
  (
    (∀ (s : State) (src : Src) (five : Bool), s.access src = true → s.is GLB R.GLB_MODE_REQ_GO = false →
      Next (exec (.modeReqIllegalTarget src five) s) fun t =>
        t.rd GLB R.GLB_MODE_RESULT = 1 ∧ t.rd GLB R.GLB_MODE_REQ_GO = 0 ∧ t.mode = s.mode ∧ t.power.reqPending = false
        ∧ Frame s t [.power, .reco] (words [GLB + R.GLB_MODE_CUR.off, GLB + R.GLB_MODE_REQ_GO.off, PROT + R.PROT_CFGWA.off, PROT + R.PROT_CFGWK.off]))
    ∧ ∀ (s : State) (src : Src) (calv ppm : Word), s.access src = true → s.is GLB R.GLB_MODE_REQ_GO = false →
      ∀ c, (s.mode = MODE_STANDBY ∧ c = Instr.modeReqStandby src) ∨ (s.mode = MODE_CONFIGURE ∧ c = .modeReqConfigure src)
          ∨ (s.mode = MODE_ARMED ∧ c = .modeReqArmed src) ∨ (s.mode = MODE_CALIBRATE ∧ c = .modeReqCalibrate src calv ppm)
          ∨ (s.mode = MODE_SAFE ∧ c = .modeReqSafe src) →
        Next (exec c s) fun t =>
          t.rd GLB R.GLB_MODE_RESULT = 0 ∧ t.rd GLB R.GLB_MODE_REQ_GO = 0 ∧ t.mode = s.mode
          ∧ Frame s t [.power, .reco] (words [GLB + R.GLB_MODE_CUR.off, GLB + R.GLB_MODE_REQ_GO.off, PROT + R.PROT_CFGWA.off, PROT + R.PROT_CFGWK.off]))
  ∧ (
    (∀ (s : State) (src : Src), s.access src = true → s.is GLB R.GLB_MODE_REQ_GO = false → s.Quiet → (∀ g, s.groupOwned g = false) →
      (s.mode = MODE_STANDBY → s.extest = false →
        s.power.clkRoot ≠ 2 → s.is GLB R.GLB_MODE_IMGDEF = false ∨ s.power.cfgWritten = true →
        Next (exec (.modeReqConfigure src) s) fun t =>
          t.mode = MODE_CONFIGURE ∧ t.rd GLB R.GLB_MODE_PREV = MODE_STANDBY ∧ t.rd GLB R.GLB_MODE_RESULT = 0
          ∧ t.rd GLB R.GLB_MODE_REQ_GO = 0 ∧ Frame s t [.power, .reco] (words [GLB + R.GLB_MODE_CUR.off, GLB + R.GLB_MODE_REQ_GO.off, PROT + R.PROT_CFGWA.off, PROT + R.PROT_CFGWK.off]))
      ∧ (s.mode = MODE_STANDBY → s.power.clkRoot = 2 ∨ s.extest = true
          ∨ (s.is GLB R.GLB_MODE_IMGDEF = true ∧ s.power.cfgWritten = false) →
        Next (exec (.modeReqConfigure src) s) fun t =>
          t.mode = MODE_STANDBY ∧ t.rd GLB R.GLB_MODE_RESULT = 2 ∧ t.rd GLB R.GLB_MODE_REQ_GO = 0
          ∧ Frame s t [.power, .reco] (words [GLB + R.GLB_MODE_CUR.off, GLB + R.GLB_MODE_REQ_GO.off, PROT + R.PROT_CFGWA.off, PROT + R.PROT_CFGWK.off]))
      ∧ (s.mode = MODE_ARMED → Next (exec (.modeReqConfigure src) s) fun t =>
          t.mode = MODE_CONFIGURE ∧ t.rd GLB R.GLB_MODE_PREV = MODE_ARMED ∧ t.rd GLB R.GLB_MODE_RESULT = 0
          ∧ Frame s t [.power, .reco] (words [GLB + R.GLB_MODE_CUR.off, GLB + R.GLB_MODE_REQ_GO.off, PROT + R.PROT_CFGWA.off, PROT + R.PROT_CFGWK.off]))
      ∧ (s.mode = MODE_CONFIGURE ∨ s.mode = MODE_ARMED → Next (exec (.modeReqStandby src) s) fun t =>
          t.mode = MODE_STANDBY ∧ t.rd GLB R.GLB_MODE_PREV = s.mode ∧ t.rd GLB R.GLB_MODE_RESULT = 0
          ∧ Frame s t [.power, .reco] (words [GLB + R.GLB_MODE_CUR.off, GLB + R.GLB_MODE_REQ_GO.off, PROT + R.PROT_CFGWA.off, PROT + R.PROT_CFGWK.off])))
    ∧ (∀ (s : State) (src : Src), s.access src = true → s.is GLB R.GLB_MODE_REQ_GO = false → s.mode = MODE_CONFIGURE →
      (∀ n ∈ s.requiredLeaves, (s.leaf n).staged = none) →
      (s.sysServes 32 = true ∨ s.sysServes 33 = true → s.armReady = true → Next (exec (.modeReqArmed src) s) fun t =>
          t.mode = MODE_ARMED ∧ t.rd GLB R.GLB_MODE_RESULT = 0 ∧ t.rd GLB R.GLB_MODE_REQ_GO = 0
          ∧ Frame s t [.power, .reco] (words [GLB + R.GLB_MODE_CUR.off, GLB + R.GLB_MODE_REQ_GO.off, PROT + R.PROT_CFGWA.off, PROT + R.PROT_CFGWK.off]))
      ∧ (s.sysServes 32 = true ∨ s.sysServes 33 = true → s.armReady = false → Next (exec (.modeReqArmed src) s) fun t =>
          t.mode = MODE_CONFIGURE ∧ t.power.armWait = true ∧ t.rd GLB R.GLB_MODE_REQ_GO = 1
          ∧ Frame s t [.power, .reco] (words [GLB + R.GLB_MODE_CUR.off, GLB + R.GLB_MODE_REQ_GO.off, PROT + R.PROT_CFGWA.off, PROT + R.PROT_CFGWK.off]))
      ∧ (s.sysServes 32 = false → s.sysServes 33 = false → Next (exec (.modeReqArmed src) s) fun t =>
          t.mode = MODE_CONFIGURE ∧ t.rd GLB R.GLB_MODE_RESULT = 2 ∧ t.rd GLB R.GLB_MODE_REQ_GO = 0
          ∧ Frame s t [.power, .reco] (words [GLB + R.GLB_MODE_CUR.off, GLB + R.GLB_MODE_REQ_GO.off, PROT + R.PROT_CFGWA.off, PROT + R.PROT_CFGWK.off])))
    ∧ ∀ s : State, s.power.armWait = true → s.mode = MODE_CONFIGURE →
      (s.armReady = true → ∀ c, c = Instr.modeArmedLocked ∨ c = .modeArmedTimeout → Next (exec c s) fun t =>
        t.mode = MODE_ARMED ∧ t.rd GLB R.GLB_MODE_RESULT = 0 ∧ t.rd GLB R.GLB_MODE_REQ_GO = 0
        ∧ Frame s t [.power] (words [GLB + R.GLB_MODE_CUR.off, GLB + R.GLB_MODE_REQ_GO.off]))
      ∧ (s.armReady = false → Next (exec .modeArmedTimeout s) fun t =>
        t.mode = MODE_CONFIGURE ∧ t.rd GLB R.GLB_MODE_RESULT = 5 ∧ t.rd GLB R.GLB_MODE_REQ_GO = 0
        ∧ Frame s t [.power] (words [GLB + R.GLB_MODE_CUR.off, GLB + R.GLB_MODE_REQ_GO.off])))

/-- MODE_REQ_SAFE enters SAFE with cause REQUEST; the host leaves SAFE once the cause has cleared; MODE_REQ_OFF writes a
POWERDOWN record (R26, R27, R40). -/
def Obligations.SafeOnRequestAndBack : Prop :=
  (∀ (s : State) (src : Src), s.access src = true → s.is GLB R.GLB_MODE_REQ_GO = false → s.Quiet → 2 ≤ s.mode → s.mode ≤ 6 →
      (∀ g < s.variant.groups, s.is (GS g) R.GS_HOPCTL_GO = false) → s.reco.erase = none → s.reco.eraseQ = [] →
    Next (exec (.modeReqSafe src) s) fun t =>
      t.mode = MODE_SAFE ∧ t.rd GLB R.GLB_MODE_SAFE_CAUSE = SC_REQUEST ∧ t.rd GLB R.GLB_MODE_PREV = s.mode
      ∧ t.rd GLB R.GLB_MODE_RESULT = 0 ∧ t.rd GLB R.GLB_MODE_REQ_GO = 0 ∧ t.power.safeRecPending = true
      ∧ (∃ d, d.typ = 1 ∧ t.reco.waiting = s.reco.waiting ++ [d])
      ∧ Frame s t [.power, .reco, .therm, .flt] (words ((REC + R.REC_STAT_STATE.off) :: [GLB + R.GLB_MODE_CUR.off, GLB + R.GLB_MODE_REQ_GO.off, PROT + R.PROT_CFGWA.off, PROT + R.PROT_CFGWK.off])))
  ∧ (∀ (s : State) (src : Src), s.access src = true → s.is GLB R.GLB_MODE_REQ_GO = false → s.mode = MODE_SAFE →
    (src = .keyway ∨ s.causePersists = true → Next (exec (.modeReqStandby src) s) fun t =>
      t.mode = MODE_SAFE ∧ t.rd GLB R.GLB_MODE_RESULT = (if src = .keyway then 4 else 3) ∧ t.rd GLB R.GLB_MODE_REQ_GO = 0
      ∧ Frame s t [.power, .reco] (words [GLB + R.GLB_MODE_CUR.off, GLB + R.GLB_MODE_REQ_GO.off, PROT + R.PROT_CFGWA.off, PROT + R.PROT_CFGWK.off]))
    ∧ (src = .pcie → s.causePersists = false → s.power.clk = true → Next (exec (.modeReqStandby src) s) fun t =>
      t.mode = MODE_SAFE ∧ t.power = { s.power with reqPending := true, reqTarget := 2, reqKeyway := false, exitWait := true }
      ∧ t.rd GLB R.GLB_MODE_REQ_GO = 1 ∧ Frame s t [.power, .reco] (words [GLB + R.GLB_MODE_CUR.off, GLB + R.GLB_MODE_REQ_GO.off, PROT + R.PROT_CFGWA.off, PROT + R.PROT_CFGWK.off]))
    ∧ (src = .pcie → s.causePersists = false → s.power.clk = false → s.rd GLB R.GLB_MODE_SAFE_CAUSE ≠ SC_SYSLOST →
        Next (exec (.modeReqStandby src) s) fun t =>
      t.mode = MODE_STANDBY ∧ t.rd GLB R.GLB_MODE_PREV = MODE_SAFE ∧ t.rd GLB R.GLB_MODE_SAFE_CAUSE = 0
      ∧ t.rd GLB R.GLB_MODE_RESULT = 0 ∧ t.rd GLB R.GLB_MODE_REQ_GO = 0 ∧ t.power.clk = true))
  ∧ (∀ s : State, s.power.sysExit = true → Next (exec .safeExitSysTimeout s) fun t =>
      t.rd GLB R.GLB_MODE_RESULT = 3 ∧ t.rd GLB R.GLB_MODE_REQ_GO = 0 ∧ t.power.sysExit = false ∧ t.power.clk = false
      ∧ t.mode = s.mode)
  ∧ ∀ (s : State) (src : Src), s.access src = true → s.is GLB R.GLB_MODE_REQ_GO = false → s.Quiet → s.mode = MODE_STANDBY ∨ s.mode = MODE_SAFE →
    Next (exec (.modeReqOff src) s) fun t =>
      t.mode = s.mode ∧ t.rd GLB R.GLB_MODE_REQ_GO = 1 ∧ t.power.downStep = 3 ∧ t.power.reqPending = true
      ∧ (∃ d, d.typ = 2 ∧ t.reco.waiting = s.reco.waiting ++ [d])
      ∧ Frame s t [.power, .reco] (words ((REC + R.REC_STAT_STATE.off) :: [GLB + R.GLB_MODE_CUR.off, GLB + R.GLB_MODE_REQ_GO.off, PROT + R.PROT_CFGWA.off, PROT + R.PROT_CFGWK.off]))

/-- MODE_REQ_CALIBRATE in ARMED checks the references, then traffic; with both in order the module calibrates (R28, R313,
R321). -/
def Obligations.CalibrateNeedsReferencesAndQuiet : Prop :=
  ∀ (s : State) (src : Src) (calv ppm : Word), s.access src = true → s.is GLB R.GLB_MODE_REQ_GO = false → s.mode = MODE_ARMED →
    let v := s.calvOk calv.toNat
    let r := !bitOf (s.rd CAL R.CAL_ITEMS_SETS) 10 || s.caltOk (toSigned 32 ppm.toNat)
    (v = false ∨ r = false → Next (exec (.modeReqCalibrate src calv ppm) s) fun t =>
      t.mode = MODE_ARMED ∧ t.rd GLB R.GLB_MODE_RESULT = 2 ∧ t.rd CAL R.CAL_STAT_LASTRUN = 3
      ∧ t.rd CAL R.CAL_STAT_REFOK = b2n v ∧ Frame s t [.power, .reco] (words ((CAL + R.CAL_STAT_LASTRUN.off) :: [GLB + R.GLB_MODE_CUR.off, GLB + R.GLB_MODE_REQ_GO.off, PROT + R.PROT_CFGWA.off, PROT + R.PROT_CFGWK.off])))
    ∧ (v = true → r = true → s.trafficLeft = true ∨ s.calReady = false →
        Next (exec (.modeReqCalibrate src calv ppm) s) fun t =>
      t.mode = MODE_ARMED ∧ t.rd GLB R.GLB_MODE_RESULT = 2 ∧ t.rd CAL R.CAL_STAT_REFOK = 1
      ∧ Frame s t [.power, .reco] (words ((CAL + R.CAL_STAT_LASTRUN.off) :: [GLB + R.GLB_MODE_CUR.off, GLB + R.GLB_MODE_REQ_GO.off, PROT + R.PROT_CFGWA.off, PROT + R.PROT_CFGWK.off])))
    ∧ (v = true → r = true → s.trafficLeft = false → s.calReady = true →
        Next (exec (.modeReqCalibrate src calv ppm) s) fun t =>
      t.mode = MODE_CALIBRATE ∧ t.rd GLB R.GLB_MODE_RESULT = 0 ∧ t.rd GLB R.GLB_MODE_REQ_GO = 0 ∧ t.cal.run = true
      ∧ t.cal.groups = s.rd CAL R.CAL_CFG_GROUPS)

/-- Ratio mailbox: READ, STAGE, STEP and the reserved OP are taken up with their RESULT and Q words, and a completion
posts them (R58, R59, R61). -/
def Obligations.RatioMailbox : Prop :=
  (∀ (s : State) (src : Src) (n : Fin 34) (q0 q1 q2 : Word), s.Takes src (LP n) R.LP_RMB_CTRL_GO →
    Next (exec (.rmbRead src n q0 q1 q2) s) (fun t =>
      t.rd (LP n) R.LP_RMB_CTRL_GO = 1 ∧ t.rd (LP n) R.LP_RMB_CTRL_VALID = 0 ∧ t.rd (LP n) R.LP_RMB_CTRL_OP = 0
      ∧ t.box (LP n + R.LP_RMB_CTRL_GO.off) = { busy := true, result := 0, q := s.rmbInForce n [q0, q1, q2], op := 0 }
      ∧ Frame s t [.reco, .box (LP n + R.LP_RMB_CTRL_GO.off)] (words (reqWords (LP n) R.LP_RMB_CTRL_GO)))
    ∧ Next (exec (.rmbReservedOp src n q0 q1 q2) s) (fun t =>
      t.rd (LP n) R.LP_RMB_CTRL_GO = 1 ∧ t.rd (LP n) R.LP_RMB_CTRL_OP = 3
      ∧ t.box (LP n + R.LP_RMB_CTRL_GO.off) = { busy := true, result := 1, q := s.rmbInForce n [q0, q1, q2], op := 3 }
      ∧ Frame s t [.reco, .box (LP n + R.LP_RMB_CTRL_GO.off)] (words (reqWords (LP n) R.LP_RMB_CTRL_GO)))
    ∧ (let r := s.rmbOperand n
       let res := firstOf [(!s.legalFor n r none, 1), (decide (32 ≤ n.val) || s.phaseHeld (n / 2), 6), (s.cmdOn (n / 2), 4)]
       (res ≠ 0 → Next (exec (.rmbStage src n q0 q1 q2) s) fun t =>
          t.rd (LP n) R.LP_RMB_CTRL_GO = 1
          ∧ t.box (LP n + R.LP_RMB_CTRL_GO.off) = { busy := true, result := res, q := s.rmbInForce n [q0, q1, q2], op := 1 }
          ∧ Frame s t [.reco, .box (LP n + R.LP_RMB_CTRL_GO.off)] (words (reqWords (LP n) R.LP_RMB_CTRL_GO)))
       ∧ (res = 0 → Next (exec (.rmbStage src n q0 q1 q2) s) fun t =>
          t.rd (LP n) R.LP_RMB_CTRL_GO = 1
          ∧ t.box (LP n + R.LP_RMB_CTRL_GO.off) = { busy := true, result := 0, q := ratioWords r, op := 1 }
          ∧ (∀ m ∈ s.rmbLeaves n, t.leaf m = { s.leaf m with staged := some r })
          ∧ Frame s t ([.reco, .box (LP n + R.LP_RMB_CTRL_GO.off)] ++ (s.rmbLeaves n).map .leaf) (words (reqWords (LP n) R.LP_RMB_CTRL_GO)))))
  ∧ (∀ (s : State) (src : Src) (n : Fin 34) (q0 q1 q2 : Word) (vt : BitVec 16), s.Takes src (LP n) R.LP_RMB_CTRL_GO →
     let r := s.rmbOperand n
     let res := s.stepResult n vt.toNat r
     (res ≠ 0 → Next (exec (.rmbStep src n q0 q1 q2 vt) s) fun t =>
        t.rd (LP n) R.LP_RMB_CTRL_GO = 1
        ∧ t.box (LP n + R.LP_RMB_CTRL_GO.off) = { busy := true, result := res, q := s.rmbInForce n [q0, q1, q2], op := 2 }
        ∧ Frame s t [.reco, .box (LP n + R.LP_RMB_CTRL_GO.off)] (words ((LP (s.stepLeaf n) + R.LP_TMON.off) :: reqWords (LP n) R.LP_RMB_CTRL_GO)))
     ∧ (res = 0 → Next (exec (.rmbStep src n q0 q1 q2 vt) s) fun t =>
        t.rd (LP n) R.LP_RMB_CTRL_GO = 1
        ∧ t.box (LP n + R.LP_RMB_CTRL_GO.off) = { busy := true, result := 0, q := ratioWords r, op := 2 }
        ∧ (∀ m ∈ s.stepLeaves n, t.leaf m = { s.leaf m with
              stepBase := if (s.leaf m).target.isSome then (s.leaf m).stepBase else (s.leaf m).ratio,
              slewFrom := s.instVal m, slewCyc := 0, slewTag := s.freeCtr + 1, slewCode := s.rd (LP (s.pageLeaf m)) R.LP_SLEW,
              target := some r, widened := true }
            ∧ t.rd (LP m) R.LP_LSTAT_SLEWING = 1)
        ∧ t.grp (n / 2) = { s.grp (n / 2) with anchored := false, moved := true }
        ∧ Frame s t ([.reco, .box (LP n + R.LP_RMB_CTRL_GO.off), .grp (n / 2), .free] ++ (s.stepLeaves n).map .leaf)
            (words ((LP (s.stepLeaf n) + R.LP_TMON.off) :: reqWords (LP n) R.LP_RMB_CTRL_GO ++ lstatWords))))
  ∧ ∀ (s : State) (n : Fin 34) (x : Box), s.box (LP n + R.LP_RMB_CTRL_GO.off) = x → x.busy = true → x.q.length = 3 →
    Next (exec (.rmbComplete n) s) fun t =>
      t.rd (LP n) R.LP_RMB_CTRL_RESULT = x.result % 2 ^ R.LP_RMB_CTRL_RESULT.width
      ∧ t.rd (LP n) R.LP_RMB_CTRL_GO = 0 ∧ t.rd (LP n) R.LP_RMB_CTRL_VALID = 1
      ∧ (∀ k < 3, t.word (LP n + R.LP_RMB_Q0.off + 4 * k) = x.q.getD k 0) ∧ t.box (LP n + R.LP_RMB_CTRL_GO.off) = {}
      ∧ Frame s t [.box (LP n + R.LP_RMB_CTRL_GO.off)] (fun a => (s.rmbLeaves n).any fun m =>
          [LP m + R.LP_RMB_CTRL_GO.off, LP m + R.LP_RMB_Q0.off, LP m + R.LP_RMB_Q0.off + 4, LP m + R.LP_RMB_Q0.off + 8].contains a)

/-- A small step ends on its exact target; the widened window closes; the boost goes off in four removal steps (R48, R62,
R63). -/
def Obligations.SmallStepsAndBoost : Prop :=
  (∀ (s : State) (n : Fin 34), s.is (LP n) R.LP_LSTAT_SLEWING = true →
    Next (exec (.smallStepEnd n) s) fun t =>
      (∀ m ∈ s.rmbLeaves n, s.is (LP m) R.LP_LSTAT_SLEWING = true →
        t.leaf m = (s.leaf m).loadTarget
        ∧ t.rd (LP m) R.LP_LSTAT_SLEWING = 0 ∧ t.rd (LP m) R.LP_LSTAT_SLEWCLAMP = 0)
      ∧ Frame s t (((s.rmbLeaves n).filter fun m => s.is (LP m) R.LP_LSTAT_SLEWING).map .leaf)
          (words (lstatWords ++ ostatWords (n / 2))))
  ∧ (∀ (s : State) (n : Fin 34), s.is (LP n) R.LP_LSTAT_SLEWING = false →
    Next (exec (.stepWindowEnd n) s) (fun t =>
      t.leaf n = { s.leaf n with widened := false } ∧ Frame s t [.leaf n] noWords)
    ∧ Next (exec (.smallStepEnd n) s) fun t => Frame s t [] noWords)
  ∧ (∀ (s : State) (n : Fin 34), (s.leaf n).boostSteps = 5 → Next (exec (.boostHoldEnd n) s) fun t =>
      t.leaf n = { s.leaf n with boostSteps := 4 } ∧ Frame s t [.leaf n] noWords)
  ∧ ∀ (s : State) (n : Fin 34) (k : Nat), (s.leaf n).boostSteps = k → k ∈ [1, 2, 3, 4] → Next (exec (.boostStepDown n) s) fun t =>
      t.leaf n = { s.leaf n with boostSteps := k - 1 }
      ∧ t.rd (LP n) R.LP_LSTAT_BOOST = (if k = 1 then 0 else s.rd (LP n) R.LP_LSTAT_BOOST)
      ∧ Frame s t [.leaf n] (words [LP n + R.LP_LSTAT_BOOST.off])

/-- Band search: a window keeps or drops its bit by the counted frequency; a cached hop lets the DAC go, and a miss starts
a search (R69, R71). -/
def Obligations.BandSearchAndCachedHop : Prop :=
  (∀ (s : State) (n : Fin 34) (f : BitVec 34) (w : Nat), s.lst n = L_SEARCH → (s.leaf n).window = w →
    (1 ≤ w → w ≤ 5 →
      let c := s.rd (LP n) R.LP_LSTAT_BAND % 64
      let low := decide (f.toNat * (s.fvco n).2 ≤ (s.fvco n).1)
      Next (exec (.bandSearchWindowEnd n f) s) fun t =>
        (t.leaf n).window = w + 1
        ∧ t.rd (LP n) R.LP_LSTAT_BAND % 64 = ((if low then c else c - 2 ^ (6 - w)) + 2 ^ (6 - w) / 2) % 64
        ∧ (low = true → (t.leaf n).kept = true ∧ (t.leaf n).bestBand = c ∧ (t.leaf n).f90 = f.toNat)
        ∧ Frame s t [.leaf n] (words [LP n + R.LP_LSTAT_BAND.off, LP n + R.LP_HDAC_DACV.off]))
    ∧ (w = 8 → Next (exec (.bandSearchWindowEnd n f) s) fun t =>
        t.leaf n = { s.leaf n with f60 := f.toNat, window := 9 } ∧ t.rd (LP n) R.LP_HDAC_DACV = 48000 * 256
        ∧ Frame s t [.leaf n] (words [LP n + R.LP_LSTAT_BAND.off, LP n + R.LP_HDAC_DACV.off])))
  ∧ (∀ (s : State) (n : Fin 34), s.cachedHold n = true → (s.leaf n).kind ≠ .fromOff →
    Next (exec (.cachedHopDacRelease n) s) fun t =>
      t.rd (LP n) R.LP_HDAC_ENG = 0 ∧ (t.leaf n).boostSteps = (if (s.leaf n).flb then 5 else 0)
      ∧ t.rd (LP n) R.LP_LSTAT_BOOST = b2n (s.leaf n).flb
      ∧ Frame s t [.leaf n] (words [LP n + R.LP_HDAC_ENG.off, LP n + R.LP_LSTAT_BOOST.off]))
  ∧ ∀ (s : State) (n : Fin 34) (reached : Bool) (vt : BitVec 16), s.lst n = L_ACQUIRE → (s.leaf n).searched = false →
    (reached = true ∧ 12000 ≤ vt.toNat ∧ vt.toNat ≤ 60000 → Next (exec (.cacheMissCheck n reached vt) s) fun t =>
      t.rd (LP n) R.LP_TMON = vt.toNat ∧ Frame s t [] (words [LP n + R.LP_TMON.off]))
    ∧ (¬ (reached = true ∧ 12000 ≤ vt.toNat ∧ vt.toNat ≤ 60000) → Next (exec (.cacheMissCheck n reached vt) s) fun t =>
      t.lst n = L_SEARCH ∧ (t.leaf n).window = 1 ∧ (t.leaf n).missed = true ∧ t.rd (LP n) R.LP_HDAC_ENG = 1
      ∧ (n < 32 → t.rd (GS (n / 2)) R.GS_MISSCNT = (s.rd (GS (n / 2)) R.GS_MISSCNT + 1) % 2 ^ 32
          ∧ t.rd (GS (n / 2)) R.GS_SRCHCNT = (s.rd (GS (n / 2)) R.GS_SRCHCNT + 1) % 2 ^ 32
          ∧ t.rd (GS (n / 2)) R.GS_LASTHOP_MISS = 1)
      ∧ Frame s t [.leaf n] (words [LP n + R.LP_TMON.off, LP n + R.LP_LSTATE_STATE.off, LP n + R.LP_LSTAT_BAND.off,
          LP n + R.LP_HDAC_DACV.off, GS (n / 2) + R.GS_MISSCNT.off, GS (n / 2) + R.GS_SRCHCNT.off,
          GS (n / 2) + R.GS_LASTHOP_MISS.off]))

/-- SYS.REF_HZ takes a legal value in STANDBY or SAFE only; elsewhere, and out of range, a changed value is refused and
counted (R45, R278). -/
def Obligations.ReferenceFrequencyIsBolted : Prop :=
  ∀ (s : State) (src : Src) (v : Word), s.access src = true →
    (v.toNat = s.refHz → s.mode ≠ MODE_STANDBY → s.mode ≠ MODE_SAFE → Next (exec (.sysRefHzWrite src v) s) fun t => Frame s t [] noWords)
    ∧ (v.toNat = s.refHz → s.mode = MODE_STANDBY ∨ s.mode = MODE_SAFE → Next (exec (.sysRefHzWrite src v) s) fun t =>
      t.refHz = s.refHz ∧ t.power = { s.power with cfgWritten := true }
      ∧ Frame s t [.power, .reco] (words [PROT + R.PROT_CFGWA.off, PROT + R.PROT_CFGWK.off]))
    ∧ (v.toNat ≠ s.refHz → (s.mode ≠ MODE_STANDBY ∧ s.mode ≠ MODE_SAFE) ∨ v.toNat < 10000000 ∨ 500000000 < v.toNat →
        Next (exec (.sysRefHzWrite src v) s) fun t =>
      t.refHz = s.refHz ∧ t.rd GLB R.GLB_REFUSED = (s.rd GLB R.GLB_REFUSED + 1) % 2 ^ 32
      ∧ t.rd GLB R.GLB_LASTREF_OFFSET = SYS + R.SYS_REF_HZ.off ∧ t.rd GLB R.GLB_LASTREF_CAUSE = RC_BOLT
      ∧ t.rd GLB R.GLB_LASTREF_SRC = (if src = .keyway then 1 else 0)
      ∧ Frame s t [.reco] (words [GLB + R.GLB_REFUSED.off, GLB + R.GLB_LASTREF_OFFSET.off]))
    ∧ (v.toNat ≠ s.refHz → 10000000 ≤ v.toNat → v.toNat ≤ 500000000 →
        (s.mode = MODE_SAFE → Next (exec (.sysRefHzWrite src v) s) fun t =>
          t.refHz = v.toNat ∧ t.ref = s.ref
          ∧ Frame s t [.power, .reco] (words [SYS + R.SYS_REF_HZ.off, PROT + R.PROT_CFGWA.off, PROT + R.PROT_CFGWK.off]))
        ∧ (s.mode = MODE_STANDBY → s.sysAble s.sysIdle = true → Next (exec (.sysRefHzWrite src v) s) fun t =>
          t.refHz = v.toNat ∧ t.ref.inForce = v.toNat ∧ t.ref.qualified = false ∧ t.ref.newHz = true
          ∧ (t.leaf 32).staged = some (sysRatio v.toNat) ∧ (t.leaf 33).staged = some (sysRatio v.toNat)
          ∧ t.rd SYS R.SYS_SYSSTAT_RETURN = 1
          ∧ Frame s t [.power, .reco, .ref, .leaf 32, .leaf 33]
              (fun a => block SYS 0x1000 a || words [PROT + R.PROT_CFGWA.off, PROT + R.PROT_CFGWK.off] a)))

/-- REGISTER_WRITE: plain fields take the written bits; a narrow write, a bolt or a pending GO refuses it; a GO bit is the
command of its request (R272, R275, R278, R279, R290, R292, R443, R25). -/
def Obligations.RegisterWriteByAccessCode : Prop :=
  (
    ∀ (s : State) (src : Src) (a : BitVec 24) (v : Word) (be : BitVec 4) (m : Meas),
      let at_ := a.toNat / 4 * 4
      (blkAt at_ = none ∨ s.access src = false → Next (exec (.registerWrite src a v be m) s) fun t => Frame s t [] noWords)
      ∧ ∀ b, blkAt at_ = some b → s.access src = true → b ∈ moduleBlks → b ≠ .cal → b ≠ .msc → s.absentReg b (reduceOff b at_) = false →
        let o := reduceOff b at_
        let w := s.word (b.base + o)
        (be ≠ 0xF → Next (exec (.registerWrite src a v be m) s) fun t =>
          t.rd GLB R.GLB_NARROW = (s.rd GLB R.GLB_NARROW + 1) % 2 ^ 32 ∧ t.rd GLB R.GLB_LASTREF_CAUSE = RC_NARROW
          ∧ t.rd GLB R.GLB_LASTREF_OFFSET = at_ ∧ t.rd GLB R.GLB_REFUSED = (s.rd GLB R.GLB_REFUSED + 1) % 2 ^ 32 ∧ t.rd GLB R.GLB_LASTREF_SRC = (if src = .keyway then 1 else 0)
          ∧ Frame s t [.reco] (words [GLB + R.GLB_REFUSED.off, GLB + R.GLB_NARROW.off, GLB + R.GLB_LASTREF_OFFSET.off]))
        ∧ (be = 0xF → busOwn src b o v m s = none → ∀ r, rowAt b o = some r →
          (r.go ≠ 0 → w &&& BitVec.ofNat 32 r.go ≠ 0 →
              v &&& BitVec.ofNat 32 r.go = 0 ∨ v &&& BitVec.ofNat 32 r.go &&& w ≠ 0 →
              Next (exec (.registerWrite src a v be m) s) fun t =>
            t.rd GLB R.GLB_LASTREF_CAUSE = RC_GOPEND ∧ t.rd GLB R.GLB_LASTREF_OFFSET = at_ ∧ t.rd GLB R.GLB_REFUSED = (s.rd GLB R.GLB_REFUSED + 1) % 2 ^ 32 ∧ t.rd GLB R.GLB_LASTREF_SRC = (if src = .keyway then 1 else 0)
            ∧ Frame s t [.reco] (words [GLB + R.GLB_REFUSED.off, GLB + R.GLB_LASTREF_OFFSET.off]))
          ∧ (r.go = 0 → r.shp = 0 →
              let shut := s.boltClosed b o && decide ((w ^^^ v) &&& BitVec.ofNat 32 r.bolt ≠ 0)
              let k := BitVec.ofNat 32 (r.rw ||| r.sh ||| r.cn ||| (if shut then 0 else r.bolt))
              b ≠ .glb → b ≠ .prot → b.base + o ∉ eventWords → Next (exec (.registerWrite src a v be m) s) fun t =>
            t.word (b.base + o) = (w &&& ~~~ k) ||| (v &&& k)
            ∧ (shut = true → t.rd GLB R.GLB_LASTREF_CAUSE = RC_BOLT ∧ t.rd GLB R.GLB_LASTREF_OFFSET = at_ ∧ t.rd GLB R.GLB_REFUSED = (s.rd GLB R.GLB_REFUSED + 1) % 2 ^ 32 ∧ t.rd GLB R.GLB_LASTREF_SRC = (if src = .keyway then 1 else 0))
            ∧ (shut = false → t.word (GLB + R.GLB_REFUSED.off) = s.word (GLB + R.GLB_REFUSED.off))
            ∧ Frame s t [.reco, .power] (words [b.base + o, GLB + R.GLB_REFUSED.off, GLB + R.GLB_LASTREF_OFFSET.off,
                PROT + R.PROT_CFGWA.off, PROT + R.PROT_CFGWK.off]))))
  ∧ (
    ∀ (s : State) (src : Src) (m : Meas), s.access src = true →
      (s.is GLB R.GLB_MODE_REQ_GO = false →
        exec (.registerWrite src 0xC 0x80000007 0xF m) s = exec (.modeReqSafe src) s
        ∧ exec (.registerWrite src 0xC 0x80000002 0xF m) s = exec (.modeReqStandby src) s
        ∧ exec (.registerWrite src 0xC 0x80000005 0xF m) s = exec (.modeReqIllegalTarget src true) s)
      ∧ (s.is PROT R.PROT_CTRL_ARM = false → s.is PROT R.PROT_CTRL_ABORT = false →
        exec (.registerWrite src 0x1004 1 0xF m) s = exec (.arm src m.ms) s)
      ∧ (s.is HIF R.HIF_RSET_CTRL_GO = false →
        exec (.registerWrite src (BitVec.ofNat 24 (HIF + R.HIF_RSET_CTRL_GO.off)) (BitVec.ofNat 32 (5 + 2 * 32 + 2 ^ R.HIF_RSET_CTRL_GO.lsb)) 0xF m) s
          = exec (.rsetEnable src 5) s)
      ∧ ∀ v, exec (.registerWrite src (BitVec.ofNat 24 (SYS + R.SYS_REF_HZ.off)) v 0xF m) s = exec (.sysRefHzWrite src v) s
        ∧ exec (.registerWrite src (BitVec.ofNat 24 (PROT + R.PROT_KEYA.off)) v 0xF m) s = exec (.keyaWrite src v m.ms) s)

/-- STALL_TIMEOUT counts, raises its event and discards a write with CAUSE STALL; a read changes no register but the count
(R288, R279). -/
def Obligations.StallTimeoutDiscards : Prop :=
  ∀ (s : State) (src : Src) (a : BitVec 24), s.access src = true →
    Next (exec (.stallTimeout src a false) s) (fun t =>
      t.rd GLB R.GLB_STALLTO = (s.rd GLB R.GLB_STALLTO + 1) % 2 ^ 32 ∧ Frame s t [] (words [GLB + R.GLB_STALLTO.off]))
    ∧ Next (exec (.stallTimeout src a true) s) (fun t =>
      t.rd GLB R.GLB_STALLTO = (s.rd GLB R.GLB_STALLTO + 1) % 2 ^ 32
      ∧ t.rd GLB R.GLB_LASTREF_CAUSE = RC_STALL ∧ t.rd GLB R.GLB_LASTREF_OFFSET = a.toNat / 4 * 4 ∧ t.rd GLB R.GLB_REFUSED = (s.rd GLB R.GLB_REFUSED + 1) % 2 ^ 32 ∧ t.rd GLB R.GLB_LASTREF_SRC = (if src = .keyway then 1 else 0)
      ∧ (src = .pcie → Frame s t [.reco]
          (words [GLB + R.GLB_STALLTO.off, GLB + R.GLB_REFUSED.off, GLB + R.GLB_LASTREF_OFFSET.off]))
      ∧ (src = .keyway → ∀ w whole, s.kwNext = some (a.toNat / 4 * 4, w, whole) →
          t.rd KWY R.KWY_STAT_BUSTO = 1 ∧ t.kw = (s.kwTake false).kw))

/-- Keyway frames: a whole write frame is committed with its words, a faulty one is discarded with its outcome, a read
answers in one trailer (R298, R301, R302, R303, R306, R307). -/
def Obligations.KeywayFrames : Prop :=
  (∀ (s : State) (hdr : BitVec 64) (edges : BitVec 16) (ws : List Word) (crc : BitVec 16), s.kwOpen = true →
      (Instr.keywayWriteFrame hdr edges ws crc).wf = true →
    let h := kwHeader hdr
    let l := s.kwLen
    (64 ≤ edges.toNat → h.fails = 0 → h.op = 2 →
      (edges.toNat = 80 + l → crcBits 0xFFFF ws l = crc.toNat → s.kw.bufs.length < 2 → s.kwReady h.base = true →
        Next (exec (.keywayWriteFrame hdr edges ws crc) s) fun t =>
          t.rd KWY R.KWY_STAT_LAST = 0 ∧ t.rd KWY R.KWY_FRAMES = (s.rd KWY R.KWY_FRAMES + 1) % 2 ^ 32
          ∧ t.rd KWY R.KWY_STAT_TAG = h.tag
          ∧ t.kw.bufs = s.kw.bufs ++ [
            { base := h.base, off := h.off, inc := h.inc,
              words := (List.range (kwWords l)).map (fun i => ws.getD i 0), part := l % 32 != 0 }]
          ∧ Frame s t [.kw] (words [KWY + R.KWY_STAT_LAST.off, KWY + R.KWY_FRAMES.off]))
      ∧ (∀ code, (edges.toNat < 80 + l ∧ code = 1) ∨ (80 + l < edges.toNat ∧ code = 2)
            ∨ (edges.toNat = 80 + l ∧ crcBits 0xFFFF ws l ≠ crc.toNat ∧ code = 3) →
          Next (exec (.keywayWriteFrame hdr edges ws crc) s) fun t =>
            t.rd KWY R.KWY_STAT_LAST = code ∧ t.rd KWY R.KWY_DISCARDS = (s.rd KWY R.KWY_DISCARDS + 1) % 2 ^ 32
            ∧ Frame s t [] (words [KWY + R.KWY_STAT_LAST.off, KWY + R.KWY_FRAMES.off, KWY + R.KWY_DISCARDS.off])))
    ∧ (edges.toNat < 64 → Next (exec (.keywayWriteFrame hdr edges ws crc) s) fun t =>
        t.rd KWY R.KWY_STAT_LAST = 1 ∧ t.rd KWY R.KWY_DISCARDS = (s.rd KWY R.KWY_DISCARDS + 1) % 2 ^ 32
        ∧ Frame s t [.free] (words [KWY + R.KWY_STAT_LAST.off, KWY + R.KWY_FRAMES.off, KWY + R.KWY_DISCARDS.off])))
  ∧ (∀ (s : State) (hdr : BitVec 64) (edges strobes : BitVec 16), s.kwOpen = true → 64 ≤ edges.toNat →
      (kwHeader hdr).fails = 0 → s.kwReadable (kwHeader hdr) = true → s.kwLen + 32 ≤ strobes.toNat →
      Next (exec (.keywayReadFrame hdr edges strobes []) s) fun t =>
        t.rd KWY R.KWY_STAT_LAST = 0 ∧ t.rd KWY R.KWY_STAT_BUSTO = 0
        ∧ t.rd KWY R.KWY_FRAMES = (s.rd KWY R.KWY_FRAMES + 1) % 2 ^ 32
        ∧ Out.keyway (kwAnswer (s.kwFetch (kwHeader hdr) (kwWords s.kwLen) []) s.kwLen 0 (kwHeader hdr).tag
            ((kwHeader hdr).wrap (kwWords s.kwLen)) false) ∈ t.out
        ∧ Frame s t [] (words [KWY + R.KWY_STAT_LAST.off, KWY + R.KWY_FRAMES.off]))
  ∧ (∀ (s : State) (hdr : BitVec 64) (k : BitVec 9), s.kwOpen = true → (kwHeader hdr).fails = 0 → (kwHeader hdr).op = 1 →
      k.toNat < kwWords s.kwLen → Next (exec (.keywayReadAbort hdr k) s) fun t =>
        t.rd KWY R.KWY_STAT_LAST = 6 ∧ t.rd KWY R.KWY_ABORTS = (s.rd KWY R.KWY_ABORTS + 1) % 2 ^ 32
        ∧ Frame s t [] (words [KWY + R.KWY_STAT_LAST.off, KWY + R.KWY_FRAMES.off, KWY + R.KWY_ABORTS.off]))
  ∧ ∀ (s : State) (m : Meas) (a : Nat) (w : Word), s.kwNext = some (a, w, true) → a < 2 ^ 24 →
      exec (.keywayWordApply m) s = exec (.registerWrite .keyway (BitVec.ofNat 24 a) w 0xF m) (s.kwTake true)
      ∧ (a = EVT + R.EVT_PSEEN.off → s.access .keyway = true → Next (exec (.keywayWordApply m) s) fun t =>
          t.word a = w ∧ t.kw = (s.kwTake true).kw
          ∧ t.rd PROT R.PROT_CFGWK = (s.rd PROT R.PROT_CFGWK + 1) % 2 ^ 32
          ∧ Frame s t [.kw, .reco] (words [a, KWY + R.KWY_STAT_WORDS.off, PROT + R.PROT_CFGWK.off]))

/-- Route mailbox, reads and refusals: RD_WP, RD_RAT and RD_CB hold the stored words, OP 7 is ILLEGAL, a group that is off
answers BUSY (R76, R77). -/
def Obligations.RouteMailboxReads : Prop :=
  ∀ (s : State) (src : Src) (g : Fin 16) (inc : Bool), s.Takes src (RT g) R.RT_CTRL_GO →
    let i := s.rd (RT g) R.RT_INDEX
    ((s.grp g).on = true →
      Next (exec (.rdWp src g inc) s) (fun t => t.rd (RT g) R.RT_CTRL_GO = 1 ∧ t.rd (RT g) R.RT_CTRL_VALID = 0
      ∧ t.box (RT g + R.RT_CTRL_GO.off) = { busy := true, result := 0, q := (s.grp g).wpWords i, op := 0, aux := b2n inc } ∧ Frame s t [.reco, .box (RT g + R.RT_CTRL_GO.off)] (words (reqWords (RT g) R.RT_CTRL_GO)))
      ∧ Next (exec (.rdRat src g inc) s) (fun t => t.rd (RT g) R.RT_CTRL_GO = 1 ∧ t.rd (RT g) R.RT_CTRL_VALID = 0
      ∧ t.box (RT g + R.RT_CTRL_GO.off) = { busy := true, result := if 255 < i then 4 else 0, q := s.ratWords g i, op := 2, aux := b2n inc } ∧ Frame s t [.reco, .box (RT g + R.RT_CTRL_GO.off)] (words (reqWords (RT g) R.RT_CTRL_GO)))
      ∧ Next (exec (.rdCb src g inc) s) (fun t => t.rd (RT g) R.RT_CTRL_GO = 1 ∧ t.rd (RT g) R.RT_CTRL_VALID = 0
      ∧ t.box (RT g + R.RT_CTRL_GO.off) = { busy := true, result := 0, q := [(s.grp g).cbWord i], op := 4, aux := b2n inc } ∧ Frame s t [.reco, .box (RT g + R.RT_CTRL_GO.off)] (words (reqWords (RT g) R.RT_CTRL_GO)))
      ∧ Next (exec (.rtReservedOp src g inc) s) (fun t => t.rd (RT g) R.RT_CTRL_GO = 1 ∧ t.rd (RT g) R.RT_CTRL_VALID = 0
      ∧ t.box (RT g + R.RT_CTRL_GO.off) = { busy := true, result := 1, q := [], op := 7, aux := b2n inc } ∧ Frame s t [.reco, .box (RT g + R.RT_CTRL_GO.off)] (words (reqWords (RT g) R.RT_CTRL_GO))))
    ∧ ((s.grp g).on = false → ∀ c k, (c, k) ∈ [(Instr.rdWp src g inc, 0), (.wrWp src g inc, 1), (.rdRat src g inc, 2),
        (.wrRat src g inc, 3), (.rdCb src g inc, 4), (.wrCb src g inc, 5), (.rtClr src g inc, 6), (.rtReservedOp src g inc, 7)] →
      Next (exec c s) fun t => t.rd (RT g) R.RT_CTRL_GO = 1 ∧ t.rd (RT g) R.RT_CTRL_VALID = 0
      ∧ t.box (RT g + R.RT_CTRL_GO.off) = { busy := true, result := 3, q := [], op := k, aux := b2n inc } ∧ Frame s t [.reco, .box (RT g + R.RT_CTRL_GO.off)] (words (reqWords (RT g) R.RT_CTRL_GO)))

/-- Route mailbox, writes: a legal entry is stored and read back in Q, an illegal one is refused with nothing stored; CLR
empties all memories (R75, R76, R77, R78). -/
def Obligations.RouteMailboxWrites : Prop :=
  (∀ (s : State) (src : Src) (g : Fin 16) (inc : Bool), s.Takes src (RT g) R.RT_CTRL_GO → (s.grp g).on = true →
    let i := s.rd (RT g) R.RT_INDEX
    let d := (fun k => s.word (RT g + R.RT_D0.off + 4 * k))
    let x := s.grp g
    (let res := s.wrWpResult g [d 0, d 1, d 2, d 3]
     let y := x.setWp i (cleanWp [d 0, d 1, d 2, d 3])
     (res = 0 → Next (exec (.wrWp src g inc) s) fun t =>
       t.rd (RT g) R.RT_CTRL_GO = 1 ∧ t.rd (RT g) R.RT_CTRL_VALID = 0
      ∧ t.box (RT g + R.RT_CTRL_GO.off) = { busy := true, result := 0, q := y.wpWords i, op := 1, aux := b2n inc } ∧ t.grp g = y ∧ t.rd (GS g) R.GS_RSTAT_CLEARED = 0 ∧ Frame s t [.reco, .box (RT g + R.RT_CTRL_GO.off), .grp g] (words ((GS g + R.GS_RSTAT_CLEARED.off) :: reqWords (RT g) R.RT_CTRL_GO)))
     ∧ (res ≠ 0 → Next (exec (.wrWp src g inc) s) fun t => t.rd (RT g) R.RT_CTRL_GO = 1 ∧ t.rd (RT g) R.RT_CTRL_VALID = 0
      ∧ t.box (RT g + R.RT_CTRL_GO.off) = { busy := true, result := res, q := x.wpWords i, op := 1, aux := b2n inc } ∧ Frame s t [.reco, .box (RT g + R.RT_CTRL_GO.off)] (words (reqWords (RT g) R.RT_CTRL_GO))))
    ∧ (let res := s.wrRatResult g i (d 0) (d 1)
     (res = 0 → Next (exec (.wrRat src g inc) s) fun t =>
       t.rd (RT g) R.RT_CTRL_GO = 1 ∧ t.rd (RT g) R.RT_CTRL_VALID = 0
      ∧ t.box (RT g + R.RT_CTRL_GO.off) = { busy := true, result := 0, q := [d 0, d 1], op := 3, aux := b2n inc } ∧ t.grp g = x.setRat i (d 0) (d 1) ∧ Frame s t [.reco, .box (RT g + R.RT_CTRL_GO.off), .grp g] (words ((GS g + R.GS_RSTAT_CLEARED.off) :: reqWords (RT g) R.RT_CTRL_GO)))
     ∧ (res ≠ 0 → Next (exec (.wrRat src g inc) s) fun t => t.rd (RT g) R.RT_CTRL_GO = 1 ∧ t.rd (RT g) R.RT_CTRL_VALID = 0
      ∧ t.box (RT g + R.RT_CTRL_GO.off) = { busy := true, result := res, q := s.ratWords g i, op := 3, aux := b2n inc } ∧ Frame s t [.reco, .box (RT g + R.RT_CTRL_GO.off)] (words (reqWords (RT g) R.RT_CTRL_GO))))
    ∧ (let res := s.wrCbResult g (d 0)
     (res = 0 → Next (exec (.wrCb src g inc) s) fun t => t.rd (RT g) R.RT_CTRL_GO = 1 ∧ t.rd (RT g) R.RT_CTRL_VALID = 0
      ∧ t.box (RT g + R.RT_CTRL_GO.off) = { busy := true, result := 0, q := [d 0], op := 5, aux := b2n inc } ∧ t.grp g = x.setCb i (d 0) ∧ Frame s t [.reco, .box (RT g + R.RT_CTRL_GO.off), .grp g] (words ((GS g + R.GS_RSTAT_CLEARED.off) :: reqWords (RT g) R.RT_CTRL_GO)))
     ∧ (res ≠ 0 → Next (exec (.wrCb src g inc) s) fun t => t.rd (RT g) R.RT_CTRL_GO = 1 ∧ t.rd (RT g) R.RT_CTRL_VALID = 0
      ∧ t.box (RT g + R.RT_CTRL_GO.off) = { busy := true, result := res, q := [x.cbWord i], op := 5, aux := b2n inc } ∧ Frame s t [.reco, .box (RT g + R.RT_CTRL_GO.off)] (words (reqWords (RT g) R.RT_CTRL_GO))))
    ∧ (s.rtBusy g = false → Next (exec (.rtClr src g inc) s) fun t =>
        t.rd (RT g) R.RT_CTRL_GO = 1 ∧ t.rd (RT g) R.RT_CTRL_VALID = 0
      ∧ t.box (RT g + R.RT_CTRL_GO.off) = { busy := true, result := 0, q := [], op := 6, aux := b2n inc } ∧ t.grp g = { x with rt := [], cb := [], rat := [] } ∧ Frame s t [.reco, .box (RT g + R.RT_CTRL_GO.off), .grp g] (words ((GS g + R.GS_RSTAT_CLEARED.off) :: reqWords (RT g) R.RT_CTRL_GO)))
    ∧ (s.rtBusy g = true → Next (exec (.rtClr src g inc) s) fun t => t.rd (RT g) R.RT_CTRL_GO = 1 ∧ t.rd (RT g) R.RT_CTRL_VALID = 0
      ∧ t.box (RT g + R.RT_CTRL_GO.off) = { busy := true, result := 3, q := [], op := 6, aux := b2n inc } ∧ Frame s t [.reco, .box (RT g + R.RT_CTRL_GO.off)] (words (reqWords (RT g) R.RT_CTRL_GO))))
  ∧ ∀ (x : Grp) (i j : Nat) (w : List Word) (v : Word), w.length = 4 →
      (x.setWp i w).wpWords i = w ∧ (x.setCb i v).cbWord i = v
      ∧ (j ≠ i → (x.setWp i w).wpWords j = x.wpWords j ∧ (x.setCb i v).cbWord j = x.cbWord j)

/-- RT_MAILBOX_COMPLETE posts RESULT and Q, clears GO, sets VALID and advances IDX after an accepted access with INC (R76,
R276, R285). -/
def Obligations.RouteMailboxCompletion : Prop :=
  ∀ (s : State) (g : Fin 16) (x : Box), s.box (RT g + R.RT_CTRL_GO.off) = x → x.busy = true → x.q.length ≤ 4 →
    let adv := decide (x.aux = 1) && decide (x.op ≤ 5) && decide (x.result = 0)
    let post (t : State) : Prop := t.rd (RT g) R.RT_CTRL_RESULT = x.result % 2 ^ R.RT_CTRL_RESULT.width
      ∧ t.rd (RT g) R.RT_CTRL_GO = 0 ∧ t.rd (RT g) R.RT_CTRL_VALID = 1
      ∧ (∀ k < x.q.length, t.word (RT g + R.RT_Q0.off + 4 * k) = x.q.getD k 0) ∧ t.box (RT g + R.RT_CTRL_GO.off) = {}
      ∧ t.rd (GS g) R.GS_RSTAT_CLEARED = (if x.op = 6 ∧ x.result = 0 then 1 else s.rd (GS g) R.GS_RSTAT_CLEARED)
    Next (exec (.rtMailboxComplete g none) s) (fun t =>
      post t ∧ t.rd (RT g) R.RT_INDEX = (s.rd (RT g) R.RT_INDEX + b2n adv) % 4096
      ∧ Frame s t [.box (RT g + R.RT_CTRL_GO.off)] (words ([RT g + R.RT_CTRL_GO.off, RT g + R.RT_INDEX.off, GS g + R.GS_RSTAT_CLEARED.off]
          ++ (List.range 4).map fun k => RT g + R.RT_Q0.off + 4 * k)))
    ∧ ∀ src w, Next (exec (.rtMailboxComplete g (some (src, w))) s) fun t =>
      post t ∧ t.rd (RT g) R.RT_INDEX = w.toNat % 4096
      ∧ t.rd GLB R.GLB_LOSTUPD = (s.rd GLB R.GLB_LOSTUPD + b2n adv) % 2 ^ 32
      ∧ Frame s t [.box (RT g + R.RT_CTRL_GO.off), .reco] (words ([RT g + R.RT_CTRL_GO.off, RT g + R.RT_INDEX.off, GS g + R.GS_RSTAT_CLEARED.off,
          GLB + R.GLB_LOSTUPD.off, PROT + R.PROT_CFGWA.off, PROT + R.PROT_CFGWK.off]
          ++ (List.range 4).map fun k => RT g + R.RT_Q0.off + 4 * k))

/-- RCTL: START accepts a route or answers DENIED or BUSY, NEXT is a host trigger, STOP ends the route, OP 3 is ILLEGAL
(R79, R80, R81, R90). -/
def Obligations.RoutesOnTheRegisterPath : Prop :=
  ∀ (s : State) (src : Src) (g : Fin 16) (start : BitVec 12) (ms : Bool), s.Takes src (GS g) R.GS_RCTL_GO →
    (∀ res, res = firstOf [(s.phaseHeld g, 4), (s.cmdOn g || s.routeOn g, 2)] →
      (res ≠ 0 → Next (exec (.rctlStart src g start ms) s) fun t =>
        t.rd (GS g) R.GS_RCTL_RESULT = res ∧ t.rd (GS g) R.GS_RCTL_GO = 0
        ∧ Frame s t [.reco] (words (reqWords (GS g) R.GS_RCTL_GO)))
      ∧ (res = 0 → s.pingPong g = false → Next (exec (.rctlStart src g start ms) s) fun t =>
        t.rd (GS g) R.GS_RCTL_RESULT = 0 ∧ t.rd (GS g) R.GS_RCTL_GO = 0
        ∧ t.rd (GS g) R.GS_RSTAT_RUN = 1 ∧ t.rd (GS g) R.GS_RSTAT_WAIT = 0 ∧ t.rd (GS g) R.GS_RSTAT_ORIGIN = 1
        ∧ t.grp g = { s.grp g with
            route := some
              { byReg := true, start := start.toNat, atMilestone := ms, due := !ms, dueEpoch := (s.epoch + 2) % 2 ^ 48 } }
        ∧ ((s.grp g).queue = [] → s.holds = [] → Frame s t [.reco, .grp g] (words ((GS g + R.GS_RSTAT_RUN.off) :: reqWords (GS g) R.GS_RCTL_GO))) ∧ Frame s t [.reco, .grp g, .cmds] (words ((GS g + R.GS_RSTAT_RUN.off) :: reqWords (GS g) R.GS_RCTL_GO))))
    ∧ (∀ res, res = firstOf [(s.phaseHeld g, 4), (s.cmdOn g, 2), (!s.regRoute g, 3)] →
      (res ≠ 0 → ∀ c, c = Instr.rctlNext src g start ∨ c = .rctlStop src g start → Next (exec c s) fun t =>
        t.rd (GS g) R.GS_RCTL_RESULT = res ∧ t.rd (GS g) R.GS_RCTL_GO = 0
        ∧ Frame s t [.reco] (words (reqWords (GS g) R.GS_RCTL_GO)))
      ∧ (res = 0 → ∀ r, (s.grp g).route = some r →
        let w := (s.grp g).wp (s.rd (GS g) R.GS_RSTAT_CUR)
        (r.begun = true → r.trigHeld = false → r.due = false → w.adv = 3 → r.dwellDone = false →
          Next (exec (.rctlNext src g start) s) fun t =>
            t.rd (GS g) R.GS_RCTL_RESULT = 0 ∧ t.grp g = { s.grp g with route := some { r with trigHeld := true } }
            ∧ Frame s t [.reco, .grp g] (words (reqWords (GS g) R.GS_RCTL_GO)))
        ∧ (w.adv ≠ 3 → Next (exec (.rctlNext src g start) s) fun t =>
            t.rd (GS g) R.GS_RCTL_RESULT = 0 ∧ t.rd (GS g) R.GS_TRIGDROP = (s.rd (GS g) R.GS_TRIGDROP + 1) % 2 ^ 32
            ∧ Frame s t [.reco] (words ((GS g + R.GS_TRIGDROP.off) :: reqWords (GS g) R.GS_RCTL_GO)))
        ∧ (s.pingPong g = false → Next (exec (.rctlStop src g start) s) fun t =>
            t.rd (GS g) R.GS_RCTL_RESULT = 0 ∧ t.rd (GS g) R.GS_RCTL_GO = 0
            ∧ t.rd (GS g) R.GS_RSTAT_RUN = 0 ∧ t.rd (GS g) R.GS_RSTAT_WAIT = 0 ∧ t.rd (GS g) R.GS_RSTAT_END_ST = END_STOP
            ∧ (t.grp g).route = none ∧ (t.grp g).prelock = none
            ∧ (∀ e ∈ s.siteEngines g (s.joinedSites g r), let x := s.eng (s.physEng e)
                x.live = true → (x.fifo.filter (·.mark)).length < 16 →
                  ((t.eng (s.physEng e)).fifo.getLast?.map fun m => (m.mark, m.code)) = some (true, s.rd (GS g) R.GS_RSTAT_CUR + 2 ^ 31))
            ∧ Frame s t ([.reco, .grp g] ++ (s.siteEngines g (s.joinedSites g r)).map fun e => .eng (s.physEng e))
                (oneOf [words ((GS g + R.GS_RSTAT_RUN.off) :: (GS g + R.GS_SWSTAT_PRELOCK.off) :: reqWords (GS g) R.GS_RCTL_GO),
                  fun a => (List.range 32).any fun k => a == CH (32 * g + k) + R.CH_OVFCNT.off]))))
    ∧ Next (exec (.rctlReservedOp src g start) s) fun t =>
      t.rd (GS g) R.GS_RCTL_RESULT = 1 ∧ t.rd (GS g) R.GS_RCTL_GO = 0
      ∧ Frame s t [.reco] (words (reqWords (GS g) R.GS_RCTL_GO))

/-- A dwell that ends makes the next hop due, ends the route at its last waypoint, or waits for the trigger; triggers are
taken, held or dropped (R79, R80, R81, R89). -/
def Obligations.DwellsAndTriggers : Prop :=
  ∀ (s : State) (g : Fin 16),
    ((s.grp g).route = none → ∀ k j, Next (exec (.routeTrigger g k j) s) fun t =>
      t.rd (GS g) R.GS_TRIGDROP = (s.rd (GS g) R.GS_TRIGDROP + 1) % 2 ^ 32 ∧ Frame s t [] (words [GS g + R.GS_TRIGDROP.off]))
    ∧ ∀ r, (s.grp g).route = some r → r.begun = true →
      let w := (s.grp g).wp (s.rd (GS g) R.GS_RSTAT_CUR)
      (r.dwellDone = false → r.due = false →
        (w.adv = 0 → w.last = false → r.hoplim = 0 ∨ r.hops < r.hoplim → Next (exec (.dwellExpiry g) s) fun t =>
          t.grp g = { s.grp g with route := some { r with
              dwellDone := true, due := true, dueEpoch := (r.hopEpoch + w.dwell) % 2 ^ 48, trigHeld := false } }
          ∧ t.rd (GS g) R.GS_RSTAT_WAIT = 0 ∧ Frame s t [.grp g] (words [GS g + R.GS_RSTAT_WAIT.off]))
        ∧ (w.adv ≠ 0 → w.adv = 4 ∨ r.trigHeld = false → Next (exec (.dwellExpiry g) s) fun t =>
          t.grp g = { s.grp g with route := some { r with dwellDone := true } }
          ∧ t.rd (GS g) R.GS_RSTAT_WAIT = 1 ∧ Frame s t [.grp g] (words [GS g + R.GS_RSTAT_WAIT.off]))
        ∧ (w.adv = 0 → w.last = true → r.byReg = true → s.pingPong g = false → Next (exec (.dwellExpiry g) s) fun t =>
          (t.grp g).route = none ∧ t.rd (GS g) R.GS_RSTAT_END_ST = END_END ∧ t.rd (GS g) R.GS_RSTAT_RUN = 0))
      ∧ (∀ (k : Fin 3) (j : Bool), j = false ∨ r.trigHeld = true ∨ r.due = true ∨ w.adv ≠ k.val + 1 →
          Next (exec (.routeTrigger g k j) s) fun t =>
        t.rd (GS g) R.GS_TRIGDROP = (s.rd (GS g) R.GS_TRIGDROP + 1) % 2 ^ 32 ∧ Frame s t [] (words [GS g + R.GS_TRIGDROP.off]))
      ∧ ∀ k : Fin 3, r.trigHeld = false → r.due = false → w.adv = k.val + 1 →
        (r.dwellDone = false → Next (exec (.routeTrigger g k true) s) fun t =>
          t.grp g = { s.grp g with route := some { r with trigHeld := true } } ∧ Frame s t [.grp g] noWords)
        ∧ (r.dwellDone = true → s.hopping g = false → w.last = false → r.hoplim = 0 ∨ r.hops < r.hoplim →
            Next (exec (.routeTrigger g k true) s) fun t =>
          t.grp g = { s.grp g with route := some { r with due := true, dueEpoch := (s.epoch + 2) % 2 ^ 48, trigHeld := false } }
          ∧ t.rd (GS g) R.GS_RSTAT_WAIT = 0 ∧ Frame s t [.grp g] (words [GS g + R.GS_RSTAT_WAIT.off]))

/-- A single hop is accepted or refused at once; a due hop is held, refused or begun at its hop instant and completes with
LASTHOP (R78, R83, R85, R90). -/
def Obligations.SingleHopsAndHops : Prop :=
  (∀ (s : State) (src : Src) (g : Fin 16) (i : BitVec 12) (staged : Bool), s.Takes src (GS g) R.GS_HOPCTL_GO →
    let c : Instr := if staged then .hopctlHopStaged src g i else .hopctlHopWaypoint src g i
    ∀ res, res = firstOf [(s.hopIllegal g (s.actLeaf g) i.toNat staged, 1), (s.phaseHeld g, 4),
        (s.cmdOn g || s.routeOn g || (s.grp g).hop.isSome || (s.grp g).swing.isSome, 2), (s.noLeaf g, 5)] →
      (res ≠ 0 → Next (exec c s) fun t =>
        t.rd (GS g) R.GS_HOPCTL_RESULT = res ∧ t.rd (GS g) R.GS_HOPCTL_GO = 0 ∧ Frame s t [.reco] (words (reqWords (GS g) R.GS_HOPCTL_GO)))
      ∧ (res = 0 → Next (exec c s) fun t =>
        t.rd (GS g) R.GS_HOPCTL_GO = 1
        ∧ t.grp g = { s.grp g with
            hop := some { src := .reg, index := i.toNat, staged := staged, dueEpoch := (s.epoch + 2) % 2 ^ 48 } }
        ∧ Frame s t [.reco, .grp g] (words (reqWords (GS g) R.GS_HOPCTL_GO))))
  ∧ (∀ (s : State) (g : Fin 16) (half ready : Bool) (h : Hop), s.dueHop g = some h → s.noLeaf g = false →
    let held := s.is (GS g) R.GS_RSTAT_HELD
    (held = true → Next (exec (.hopStart g half ready) s) fun t => Frame s t [] noWords)
    ∧ (held = false → (s.lst (s.actLeaf g) ≠ L_LOCKED ∧ s.lst (s.actLeaf g) ≠ L_OFF) ∨ s.hopBusy g = true →
      Next (exec (.hopStart g half ready) s) fun t =>
        t.rd (GS g) R.GS_RSTAT_HELD = 1 ∧ Frame s t [] (words [GS g + R.GS_RSTAT_HELD.off]))
    ∧ (s.lst (s.actLeaf g) = L_LOCKED → s.hopping g = false → h.src = .reg →
      (held = false → s.hopIllegal g (s.actLeaf g) h.index h.staged = true → Next (exec (.hopStart g half ready) s) fun t =>
        t.rd (GS g) R.GS_HOPCTL_RESULT = 1 ∧ t.rd (GS g) R.GS_HOPCTL_GO = 0 ∧ t.grp g = { s.grp g with hop := none }
        ∧ Frame s t [.grp g] (words [GS g + R.GS_RSTAT_HELD.off, GS g + R.GS_HOPCTL_GO.off]))
      ∧ (held = false → s.hopIllegal g (s.actLeaf g) h.index h.staged = false → s.pingPong g = false → Next (exec (.hopStart g half ready) s) fun t =>
        t.rd (GS g) R.GS_RSTAT_HOPPING = 1 ∧ t.rd (GS g) R.GS_RSTAT_HELD = 0
        ∧ t.rd (GS g) R.GS_RSTAT_CUR = (if h.staged then s.rd (GS g) R.GS_RSTAT_CUR else h.index % 4096)
        ∧ t.rd (GS g) R.GS_HOPCNT = (s.rd (GS g) R.GS_HOPCNT + 1) % 2 ^ 32
        ∧ (t.grp g).hop = some { h with begun := true, p0 := s.epoch, fallback := false, alone := (s.grp g).swing.isSome })
      ∧ (s.hopIllegal g (s.actLeaf g) h.index h.staged = false → s.pingPong g = false → held = true →
          Next (exec (.heldHopRelease g half ready) s) fun t =>
        t.rd (GS g) R.GS_RSTAT_HOPPING = 1 ∧ t.rd (GS g) R.GS_RSTAT_HELD = 0
        ∧ t.rd (GS g) R.GS_SLIPCNT = (s.rd (GS g) R.GS_SLIPCNT + (s.epoch + 2 ^ 48 - h.dueEpoch) % 2 ^ 48) % 2 ^ 32
        ∧ t.rd (GS g) R.GS_HOPCNT = (s.rd (GS g) R.GS_HOPCNT + 1) % 2 ^ 32)))
  ∧ ∀ (s : State) (g : Fin 16) (lockt : BitVec 32) (va vb : BitVec 16) (h : Hop), (s.grp g).hop = some h → h.begun = true →
      h.src = .reg → (s.grp g).swing = none → (∀ n ∈ s.hopLeaves g, s.atSetting n = true) → (s.grp g).route = none →
      s.pingPong g = false → Next (exec (.hopCompletion g lockt va vb) s) fun t =>
        t.rd (GS g) R.GS_RSTAT_HOPPING = 0 ∧ t.rd (GS g) R.GS_LASTHOP_LOCKT = satTo 0xFFFF lockt.toNat
        ∧ t.rd (GS g) R.GS_LASTHOP_SWING = 0 ∧ t.rd (GS g) R.GS_HOPCTL_RESULT = 0 ∧ t.rd (GS g) R.GS_HOPCTL_GO = 0
        ∧ (t.grp g).hop = none ∧ t.rd (LP (2 * g)) R.LP_TMON = va.toNat ∧ t.rd (LP (2 * g + 1)) R.LP_TMON = vb.toNat
        ∧ ((s.leaf (s.idleLeaf g)).joined = true → Frame s t [.grp g] (words [LP (2 * g) + R.LP_TMON.off,
            LP (2 * g + 1) + R.LP_TMON.off, GS g + R.GS_RSTAT_HOPPING.off, GS g + R.GS_LASTHOP_LOCKT.off, GS g + R.GS_HOPCTL_GO.off]))

/-- Under PING-PONG the idle leaf pre-locks the next waypoint; the route queue of a free group serves its oldest entry
(R86, R89). -/
def Obligations.PrelockAndRouteQueue : Prop :=
  (∀ (s : State) (g : Fin 16), s.pingPong g = false ∨ (s.grp g).route = none →
    Next (exec (.prelockStart g) s) fun t => Frame s t [] noWords)
  ∧ (∀ (s : State) (g : Fin 16) (r : Route), s.pingPong g = true → (s.grp g).route = some r → (s.grp g).prelock = none →
      s.hopping g = false → s.lastWaypoint g r = false → s.lst (s.actLeaf g) = L_LOCKED →
      s.lst (s.idleLeaf g) = L_OFF ∨ s.lst (s.idleLeaf g) = L_LOCKED →
      (let w := (s.grp g).wp (s.nextIndex g r); s.legalFor (s.idleLeaf g) ((s.grp g).wpRatio w) (some w) = true) →
    Next (exec (.prelockStart g) s) fun t =>
      (t.grp g).prelock = some (s.nextIndex g r) ∧ (t.grp g).preEpoch = s.epoch ∧ t.rd (GS g) R.GS_SWSTAT_PRELOCK = 1)
  ∧ ∀ (s : State) (g : Fin 16) (e : QEntry) (rest : List QEntry), (s.grp g).queue = e :: rest →
    (s.queueFree g = false → Next (exec (.routeQueueServe g) s) fun t => Frame s t [] noWords)
    ∧ (s.queueFree g = true →
      (s.cmd? e.handle = none → Next (exec (.routeQueueServe g) s) fun t =>
        t.grp g = { s.grp g with queue := rest } ∧ Frame s t [.grp g] noWords)
      ∧ (∀ c, s.cmd? e.handle = some c → c.phase = .queued → e.isRoute = false → Next (exec (.routeQueueServe g) s) fun t =>
        t.grp g = { s.grp g with
            queue := rest, hop := some { src := .cmd e.handle, index := e.start, staged := e.staged, dueEpoch := (s.epoch + 2) % 2 ^ 48 } }
        ∧ (∀ x ∈ t.cmds, x.handle = e.handle → x.phase ≠ .queued) ∧ Frame s t [.grp g, .cmds] noWords))

/-- LOCK_IN_WINDOW: a leaf in ACQUIRE or RELOCK becomes LOCKED; one whose return slew runs waits for it; the first SYS
lock takes the clock root (R15, R91, R98, R109). -/
def Obligations.LockInWindowReportsLocked : Prop :=
  (∀ (s : State) (n : Fin 34) (vt : BitVec 16), s.lst n ≠ L_ACQUIRE → s.lst n ≠ L_RELOCK →
    Next (exec (.lockInWindow n vt) s) fun t => Frame s t [] noWords)
  ∧ (∀ (s : State) (n : Fin 34) (vt : BitVec 16), n.val < 32 → ∀ x, s.leaf n = x → x.cause = 0 → x.joining = false →
      x.waypoint = none → (s.grp (n / 2)).prelock = none →
      (s.hopping (n / 2) = true ∨ (s.leaf (s.idleLeaf (n / 2))).joined = true
        ∨ s.idleLeaf (n / 2) ≠ n ∧ s.lst (s.idleLeaf (n / 2)) ≠ L_LOCKED ∧ s.lst (s.idleLeaf (n / 2)) ≠ L_OFF) →
    let boost := if x.boostSteps = 5 ∧ x.len = 0 then 4 else x.boostSteps
    (s.lst n = L_ACQUIRE ∨ s.lst n = L_RELOCK ∧ x.slewing = false →
      Next (exec (.lockInWindow n vt) s) fun t =>
        t.lst n = L_LOCKED ∧ t.rd (LP n) R.LP_LSTATE_RETRY = 0 ∧ t.rd (LP n) R.LP_HDAC_ENG = 0
        ∧ t.rd (LP n) R.LP_TMON = vt.toNat
        ∧ t.leaf n = { x with kind := .none, slewing := false, window := 0, boostSteps := boost }
        ∧ Frame s t [.leaf n] (words [LP n + R.LP_LSTATE_STATE.off, LP n + R.LP_HDAC_ENG.off, LP n + R.LP_TMON.off]))
    ∧ (s.lst n = L_RELOCK → x.slewing = true → Next (exec (.lockInWindow n vt) s) fun t =>
        t.rd (LP n) R.LP_TMON = vt.toNat ∧ t.leaf n = { x with kind := .none, boostSteps := boost }
        ∧ Frame s t [.leaf n] (words [LP n + R.LP_TMON.off])))
  ∧ ∀ (s : State) (n : Fin 34) (vt : BitVec 16), 32 ≤ n.val → s.lst n = L_ACQUIRE → (s.leaf n).cause = 0 →
      s.power.clkRoot = 2 → s.power.sysExit = false →
    Next (exec (.lockInWindow n vt) s) fun t =>
      t.lst n = L_LOCKED ∧ t.power = { s.power with clkRoot := n - 32, sysLocked := true }
      ∧ t.rd GLB R.GLB_MODE_CLKSRC = 1 ∧ t.sysAct = n
      ∧ Frame s t [.leaf n, .power, .trims] (words [LP n + R.LP_LSTATE_STATE.off, LP n + R.LP_HDAC_ENG.off,
          LP n + R.LP_TMON.off, GLB + R.GLB_MODE_CLKSRC.off, SYS + R.SYS_SYSSTAT_ACT.off])

/-- UNLOCK is HOLDOVER then RELOCK, counted as a retry, or a swing to the guard; the lock timer retries or, after three,
retires the leaf (R92, R98, R99, R101, R147). -/
def Obligations.UnlockAndLockTimer : Prop :=
  (∀ (s : State) (n : Fin 34) (mean : BitVec 24) (ms : Fin 1000), s.lst n ≠ L_LOCKED →
    Next (exec (.unlock n mean ms) s) fun t => Frame s t [] noWords)
  ∧ (∀ (s : State) (n : Fin 34) (mean : BitVec 24) (ms : Fin 1000), n.val < 32 → s.lst n = L_LOCKED →
      s.is (LP n) R.LP_LSTAT_SLEWING = false → (s.leaf n).widened = false →
    let g := n.val / 2
    let relocks (t : State) : Prop := t.lst n = L_RELOCK ∧ t.rd (LP n) R.LP_LSTATE_CAUSE = 4
      ∧ t.rd (LP n) R.LP_TAVG = mean.toNat ∧ t.rd (LP n) R.LP_HDAC_DACV = mean.toNat ∧ t.rd (LP n) R.LP_HDAC_ENG = 0
      ∧ t.rd (LP n) R.LP_LOSSCNT = (s.rd (LP n) R.LP_LOSSCNT + 1) % 2 ^ 32
      ∧ t.rd (LP n) R.LP_HOLDCNT = (s.rd (LP n) R.LP_HOLDCNT + 1) % 2 ^ 32
      ∧ t.rd (LP n) R.LP_RETRYCNT = (s.rd (LP n) R.LP_RETRYCNT + 1) % 2 ^ 32
      ∧ t.rd (LP n) R.LP_LSTATE_RETRY = min 3 (s.rd (LP n) R.LP_LSTATE_RETRY + 1)
    (s.actLeaf g ≠ n ∨ s.guardIn g = false → Next (exec (.unlock n mean ms) s) fun t =>
      relocks t ∧ Frame s t [.leaf n, .reco, .free] (oneOf [leafPage n, words [GS g + R.GS_HOLDSTAT_DEFER.off]]))
    ∧ (s.actLeaf g = n → s.guardIn g = true → s.thirdFault (leafUnit n) (s.opMs ms) = false →
      (Tab.get [] s.flt.hist (leafUnit n)).length ≤ 1 → Next (exec (.unlock n mean ms) s) fun t =>
        relocks t ∧ t.actLeaf g = s.idleLeaf g ∧ t.rd (GS g) R.GS_RSTAT_HOPPING = 1 ∧ (t.grp g).swing = some .fault
        ∧ (t.leaf n).cause = FC_UNLOCK ∧ t.rd FLT R.FLT_LAST_UNIT = leafUnit n
        ∧ Frame s t (leavesOf g ++ ratioBoxes g ++ [.grp g, .reco, .flt, .trims, .cmds, .free, .box (OUT g + R.OUT_PM_CTRL_GO.off)])
            (oneOf [leafPage (2 * g), leafPage (2 * g + 1), grpRegs g, words ((FLT + R.FLT_LAST_UNIT.off) :: lstatWords)])))
  ∧ (∀ (s : State) (n : Fin 34) (ms : Fin 1000),
      (s.lst n ≠ L_SEARCH ∧ s.lst n ≠ L_ACQUIRE ∧ s.lst n ≠ L_RELOCK) ∨ (s.leaf n).kind = .none →
    Next (exec (.lockTimerExpiry n ms) s) fun t => Frame s t [] noWords)
  ∧ ∀ (s : State) (n : Fin 34) (ms : Fin 1000), n.val < 32 → (s.leaf n).kind ≠ .none →
    let g := n.val / 2
    let counted (t : State) : Prop := t.rd (LP n) R.LP_LSTATE_RETRY = s.rd (LP n) R.LP_LSTATE_RETRY + 1
      ∧ t.rd (LP n) R.LP_RETRYCNT = (s.rd (LP n) R.LP_RETRYCNT + 1) % 2 ^ 32
    (s.lst n = L_SEARCH ∨ s.lst n = L_ACQUIRE → s.rd (LP n) R.LP_LSTATE_RETRY < 3 →
      Next (exec (.lockTimerExpiry n ms) s) fun t =>
        counted t ∧ t.lst n = L_SEARCH ∧ t.rd (LP n) R.LP_LSTAT_BAND % 64 = 32 ∧ (t.leaf n).window = 1
        ∧ t.rd (GS g) R.GS_SRCHCNT = (s.rd (GS g) R.GS_SRCHCNT + 1) % 2 ^ 32
        ∧ Frame s t [.leaf n, .reco, .free] (oneOf [leafPage n, words [GS g + R.GS_SRCHCNT.off]]))
    ∧ (s.lst n = L_RELOCK → s.rd (LP n) R.LP_LSTATE_RETRY < 3 → Next (exec (.lockTimerExpiry n ms) s) fun t =>
        counted t ∧ t.lst n = L_RELOCK ∧ t.rd (LP n) R.LP_HOLDCNT = (s.rd (LP n) R.LP_HOLDCNT + 1) % 2 ^ 32
        ∧ (t.leaf n).slewing = (s.leaf n).slewing
        ∧ Frame s t ([.leaf n, .reco, .free] ++ ratioBoxes g) (oneOf [leafPage n, words [GS g + R.GS_HOLDSTAT_DEFER.off]]))
    ∧ ((s.lst n = L_SEARCH ∨ s.lst n = L_ACQUIRE ∨ s.lst n = L_RELOCK) → s.rd (LP n) R.LP_LSTATE_RETRY = 3 →
      s.actLeaf g ≠ n → Next (exec (.lockTimerExpiry n ms) s) fun t =>
        t.leafRetired n = true ∧ (t.leaf n).on = false ∧ t.rd (GS g) R.GS_SWSTAT_POLIF = 0)

/-- A missing edge, or a gate outside 1,000 ppm, declares the loss: every LOCKED leaf enters HOLDOVER with its cause;
otherwise only the gate is spoilt (R93, R94, R95, R98, R101). -/
def Obligations.LossOfTheReference : Prop :=
  let held (s t : State) (cause own : Nat) (means : List (BitVec 24)) : Prop :=
    t.ref.lost = true ∧ t.ref.qualified = false ∧ t.ref.firstCause = cause ∧ t.ref.good = 0
    ∧ ∀ n : Fin 34, t.rd (LP n) R.LP_LSTATE_REFOK = 0
      ∧ (s.lst n = L_LOCKED → ¬ (n.val < 32 ∧ s.pingPong (n / 2) = true ∧ s.idleLeaf (n / 2) = n) →
        t.lst n = L_HOLDOVER ∧ t.rd (LP n) R.LP_LSTATE_CAUSE = (if bitOf own n then cause else 3)
        ∧ t.rd (LP n) R.LP_TAVG = (means.getD n 0).toNat ∧ t.rd (LP n) R.LP_HDAC_DACV = (means.getD n 0).toNat)
  (∀ (s : State) (own quiet : BitVec 34) (means : List (BitVec 24)),
    (s.lossOpen = false → Next (exec (.missingEdge own quiet means) s) fun t =>
      t.ref = { s.ref with missed := true, edges := false } ∧ Frame s t [.ref] noWords)
    ∧ (s.lossOpen = true → s.power.sysLocked = false ∨ s.sysServes s.sysAct = true →
      Next (exec (.missingEdge own quiet means) s) fun t =>
        held s t 1 own.toNat means ∧ Frame s t (s.loopParts ++ (List.range 17).flatMap ratioBoxes ++ [.ref, .reco]) (oneOf [loopRegs, words [SYS + R.SYS_SYSSTAT_ACT.off]])))
  ∧ ∀ (s : State) (n : Fin 34) (count : BitVec 24) (own : BitVec 34) (means : List (BitVec 24)) (quiet : BitVec 34) (ht : Word),
    (s.power.clk = false → Next (exec (.monitorGateEnd n count means quiet ht own) s) fun t => Frame s t [] noWords)
    ∧ (s.power.clk = true →
      let exc := excursion s.ref.inForce count.toNat
      (exc = true ∨ own ≠ 0 → s.lossOpen = true → s.power.sysLocked = false ∨ s.sysServes s.sysAct = true →
        Next (exec (.monitorGateEnd n count means quiet ht own) s) fun t =>
          held s t 2 (if exc then own.toNat ||| 2 ^ n.val else own.toNat) means ∧ t.ref.missed = false ∧ Frame s t (s.loopParts ++ (List.range 17).flatMap ratioBoxes ++ [.ref, .reco]) (oneOf [loopRegs, words [SYS + R.SYS_SYSSTAT_ACT.off]]))
      ∧ (exc = false ∧ own = 0 ∨ s.lossOpen = false →
        (n ≠ s.sysAct → Next (exec (.monitorGateEnd n count means quiet ht own) s) fun t => Frame s t [] noWords)
        ∧ (n = s.sysAct → s.ref.qualified = false → s.ref.good < s.rd (LP 32) R.LP_HCFG_QUAL →
          let good := !exc && !s.ref.missed
          Next (exec (.monitorGateEnd n count means quiet ht own) s) fun t =>
            t.ref = { s.ref with good := if good then s.ref.good + 1 else 0, missed := false, edges := s.ref.edges || good }
            ∧ Frame s t [.ref] noWords)
        ∧ (n = s.sysAct → s.ref.qualified = false → s.ref.good = s.rd (LP 32) R.LP_HCFG_QUAL → exc = false →
          s.ref.missed = false → s.power.sysLocked = false →
          Next (exec (.monitorGateEnd n count means quiet ht own) s) fun t =>
            t.ref.qualified = true ∧ t.ref.lost = false ∧ t.rd SYS R.SYS_SYSSTAT_EPSYS = 0
            ∧ (∀ m : Fin 34, 32 ≤ m.val → (s.leaf m).on = true → t.rd (LP m) R.LP_LSTATE_REFOK = 1)
            ∧ Frame s t (s.loopParts ++ (List.range 17).flatMap ratioBoxes ++ [.ref, .reco, .free]) (oneOf [loopRegs, words [SYS + R.SYS_SYSSTAT_ACT.off]]))))

/-- The phase jump decides the return: CAPTURE within 50 ps, else by RETPOL; the slew of REALIGN ends in LOCKED; a failed
check is a fault (R98, R104, R106, R109, R111, R334). -/
def Obligations.ReturnFromHoldover : Prop :=
  (∀ (s : State) (n : Fin 32) (jw : BitVec 48) (ht : Word),
    let g := n.val / 2
    let j := toSigned 48 jw.toNat
    let idle := !(s.returning n).contains n.val || s.phaseHeld g || (s.lst (s.actLeaf g) == L_HOLDOVER && s.actLeaf g != n.val)
    (idle = true → Next (exec (.phaseJumpMeasured n jw ht) s) fun t => Frame s t [] noWords)
    ∧ (idle = false →
      let pol := s.rd (GS g) R.GS_HOLDCTL_RETPOL
      let ret := if j ≤ 50000 ∧ -50000 ≤ j then 1 else if pol = 1 then 3 else if pol = 2 then 4 else 2
      Next (exec (.phaseJumpMeasured n jw ht) s) fun t =>
        t.rd (GS g) R.GS_HOLDSTAT_LASTRET = ret
        ∧ (∀ m ∈ s.returning n, t.lst m = L_RELOCK ∧ (t.leaf m).jump = j ∧ (t.leaf m).kind = .relock
            ∧ t.rd (LP m) R.LP_HOLDT = ht.toNat ∧ (t.leaf m).slewing = decide (ret = 2)
            ∧ (t.leaf m).retOfs = (if ret = 2 ∨ ret = 3 then j else 0))
        ∧ (t.grp g).epofs = (if ret = 3 then toSigned 48 (ofSigned 48 ((s.grp g).epofs + j)) else (s.grp g).epofs)
        ∧ Frame s t (leavesOf g ++ [.grp g, .reco, .free] ++ if ret = 4 then [.box (OUT g + R.OUT_PM_CTRL_GO.off)] else [])
            (oneOf ([leafPage (2 * g), leafPage (2 * g + 1), words [GS g + R.GS_HOLDSTAT_DEFER.off]]
              ++ if ret = 4 then [outRegs g] else []))))
  ∧ (∀ (s : State) (g : Fin 16),
    let waits (n : Nat) : Prop := (n = 2 * g.val ∨ n = 2 * g.val + 1) ∧ s.lst n = L_RELOCK ∧ (s.leaf n).slewing = true
      ∧ (s.leaf n).kind = .none
    ((∀ n, ¬ waits n) → Next (exec (.realignSlewEnd g) s) fun t => Frame s t [] noWords)
    ∧ ((∃ n, waits n) → (∀ n, waits n → (s.leaf n).cause = 0 ∧ (s.leaf n).joining = false) → (s.grp g).prelock = none →
      (s.leaf (s.idleLeaf g)).joined = true → Next (exec (.realignSlewEnd g) s) fun t =>
        t.rd (GS g) R.GS_HOLDSTAT_REALIGNING = b2n ((t.leaf (2 * g)).slewing || (t.leaf (2 * g + 1)).slewing || (s.grp g).clrSlew)
        ∧ (∀ n, waits n → t.lst n = L_LOCKED ∧ t.rd (LP n) R.LP_LSTATE_OFFSET = 0 ∧ (t.leaf n).slewing = false
            ∧ (t.leaf n).retOfs = 0)
        ∧ Frame s t (leavesOf g) (oneOf [leafPage (2 * g), leafPage (2 * g + 1), words [GS g + R.GS_HOLDSTAT_DEFER.off]])))
  ∧ ∀ (s : State) (n : Fin 34) (ms : Fin 1000),
    (s.lst n ≠ L_HOLDOVER → Next (exec (.holdoverSelfcheckFail n ms) s) fun t => Frame s t [] noWords)
    ∧ (s.lst n = L_HOLDOVER → n.val < 32 → s.actLeaf (n / 2) ≠ n → (s.grp (n / 2)).prelock = none →
      s.is (LP n) R.LP_LSTAT_SLEWING = false → (s.leaf n).widened = false →
      (Tab.get [] s.flt.hist (leafUnit n)).length ≤ 1 → Next (exec (.holdoverSelfcheckFail n ms) s) fun t =>
        t.lst n = L_FAULT ∧ (t.leaf n).cause = FC_HOLDCHK ∧ t.rd FLT R.FLT_LAST_UNIT = leafUnit n
        ∧ t.rd FLT R.FLT_LAST_CAUSE = FC_HOLDCHK
        ∧ Frame s t [.leaf n, .flt] (words [LP n + R.LP_LSTATE_STATE.off, FLT + R.FLT_LAST_UNIT.off]))

/-- CLROFS waits until the group is free, then slews EPOFS to 0; PJ copies J or EPOFS into its Q registers (R110, R118). -/
def Obligations.EpochOffsetAndPhaseJumpMailbox : Prop :=
  (∀ (s : State) (src : Src) (g : Fin 16) (retpol : BitVec 2) (pause : Bool) (rate : BitVec 7),
    s.Takes src (GS g) R.GS_HOLDCTL_CLROFS → Next (exec (.clrofsRequest src g retpol pause rate) s) fun t =>
      t.rd (GS g) R.GS_HOLDCTL_CLROFS = 1 ∧ t.rd (GS g) R.GS_HOLDCTL_RETPOL = retpol.toNat
      ∧ t.rd (GS g) R.GS_HOLDCTL_PAUSE = b2n pause ∧ t.rd (GS g) R.GS_HOLDCTL_RATE = rate.toNat
      ∧ t.power = { s.power with cfgWritten := true }
      ∧ Frame s t [.reco, .power] (words (reqWords (GS g) R.GS_HOLDCTL_CLROFS)))
  ∧ (∀ (s : State) (g : Fin 16),
    (s.rd (GS g) R.GS_HOLDCTL_CLROFS = 0 ∨ s.cmdOn g = true ∨ s.phaseHeld g = true →
      Next (exec (.clrofsSlewStart g) s) fun t => Frame s t [] noWords)
    ∧ (s.rd (GS g) R.GS_HOLDCTL_CLROFS = 1 → s.cmdOn g = false → s.phaseHeld g = false →
      Next (exec (.clrofsSlewStart g) s) fun t =>
        t.rd (GS g) R.GS_HOLDCTL_CLROFS = 0 ∧ t.grp g = { s.grp g with clrSlew := true }
        ∧ t.rd (GS g) R.GS_HOLDSTAT_REALIGNING = 1
        ∧ Frame s t [.grp g] (words [GS g + R.GS_HOLDCTL_CLROFS.off, GS g + R.GS_HOLDSTAT_REALIGNING.off]))
    ∧ ((s.grp g).clrSlew = false → Next (exec (.clrofsSlewEnd g) s) fun t => Frame s t [] noWords)
    ∧ ((s.grp g).clrSlew = true → Next (exec (.clrofsSlewEnd g) s) fun t =>
        t.grp g = { s.grp g with clrSlew := false, epofs := 0 }
        ∧ t.rd (GS g) R.GS_HOLDSTAT_REALIGNING = b2n ((s.leaf (2 * g)).slewing || (s.leaf (2 * g + 1)).slewing)
        ∧ (∀ n, n = 2 * g.val ∨ n = 2 * g.val + 1 →
            t.rd (LP n) R.LP_LSTATE_OFFSET = 0 ∧ t.leaf n = { s.leaf n with retOfs := 0 })
        ∧ Frame s t (.grp g :: leavesOf g) (words [GS g + R.GS_HOLDSTAT_REALIGNING.off,
            LP (2 * g.val) + R.LP_LSTATE_OFFSET.off, LP (2 * g.val + 1) + R.LP_LSTATE_OFFSET.off])))
  ∧ (∀ (s : State) (src : Src) (g : Fin 16) (sel : Bool), s.Takes src (GS g) R.GS_PJ_CTRL_GO →
    Next (exec (.pjSnapshot src g sel) s) fun t =>
      t.rd (GS g) R.GS_PJ_CTRL_GO = 1 ∧ t.rd (GS g) R.GS_PJ_CTRL_VALID = 0 ∧ t.rd (GS g) R.GS_PJ_CTRL_SEL = b2n sel
      ∧ t.box (GS g + R.GS_PJ_CTRL_GO.off) = { busy := true, aux := b2n sel }
      ∧ Frame s t [.reco, .box (GS g + R.GS_PJ_CTRL_GO.off)] (words (reqWords (GS g) R.GS_PJ_CTRL_GO)))
  ∧ ∀ (s : State) (g : Fin 16) (x : Box), s.box (GS g + R.GS_PJ_CTRL_GO.off) = x → x.busy = true →
    let v := if x.aux = 1 then (s.grp g).epofs else (s.leaf (s.actLeaf g)).jump
    Next (exec (.pjComplete g) s) fun t =>
      t.rd (GS g) R.GS_PJ_CTRL_GO = 0 ∧ t.rd (GS g) R.GS_PJ_CTRL_VALID = 1
      ∧ [t.word (GS g + R.GS_PJ_Q0.off), t.word (GS g + R.GS_PJ_Q0.off + 4)] = signed48 v
      ∧ t.box (GS g + R.GS_PJ_CTRL_GO.off) = {}
      ∧ Frame s t [.box (GS g + R.GS_PJ_CTRL_GO.off)]
          (words [GS g + R.GS_PJ_CTRL_GO.off, GS g + R.GS_PJ_Q0.off, GS g + R.GS_PJ_Q0.off + 4])

/-- OCFG is stored and EN acts at once; APPLY answers DENIED, BUSY or NOLOCK, waits for a milestone, or restarts the group
with kind 5 (R126, R127, R133, R135). -/
def Obligations.OutputEnableAndApply : Prop :=
  (∀ (s : State) (src : Src) (g : Fin 16) (o : Fin 36) (v : Word),
    (s.access src = false ∨ s.blockOn (OP g o) = false ∨ s.outExists o = false → Next (exec (.outputEnableWrite src g o v) s) fun t => Frame s t [] noWords)
    ∧ (s.access src = true → s.blockOn (OP g o) = true → s.outExists o = true → Next (exec (.outputEnableWrite src g o v) s) fun t =>
        t.rd (OP g o) R.OP_OCFG_ODIV = getBits v 0 16 ∧ t.rd (OP g o) R.OP_OCFG_PS = getBits v 16 5
        ∧ t.rd (OP g o) R.OP_OCFG_EN = getBits v 24 1
        ∧ t.outSet g o = (if o.val = 34 ∨ o.val = 32 ∧ s.spareServes g ≠ none then s.outSet g o else { s.outSet g o with live := getBits v 24 1 == 1 })
        ∧ (∀ p, p ≠ o.val → t.outSet g p = s.outSet g p)
        ∧ t.power = { s.power with cfgWritten := true }
        ∧ Frame s t [.reco, .power, .grp g] (words (reqWords (OP g o) R.OP_OCFG_ODIV))))
  ∧ ∀ (s : State) (src : Src) (g : Fin 16) (half : Bool), s.Takes src (OUT g) R.OUT_APPLY_GO →
    let res := firstOf [(s.phaseHeld g, 2), (s.routeOn g || s.hopping g || s.cmdOn g, 1), (s.lst (s.actLeaf g) != L_LOCKED, 3)]
    (res ≠ 0 → ∀ ms : Bool, Next (exec (.apply src g ms half) s) fun t =>
      t.rd (OUT g) R.OUT_APPLY_GO = 0 ∧ t.rd (OUT g) R.OUT_APPLY_RESULT = res ∧ t.rd (OUT g) R.OUT_APPLY_WHEN = b2n ms
      ∧ t.grp g = { s.grp g with applyDue := 0 } ∧ Frame s t [.reco, .grp g] (words (reqWords (OUT g) R.OUT_APPLY_GO)))
    ∧ (res = 0 → Next (exec (.apply src g true half) s) fun t =>
      t.rd (OUT g) R.OUT_APPLY_GO = 1 ∧ t.rd (OUT g) R.OUT_APPLY_WHEN = 1 ∧ t.grp g = { s.grp g with applyDue := 2 }
      ∧ Frame s t [.reco, .grp g] (words (reqWords (OUT g) R.OUT_APPLY_GO)))
    ∧ (res = 0 → Next (exec (.apply src g false half) s) fun t =>
      t.rd (OUT g) R.OUT_APPLY_GO = 0 ∧ t.rd (OUT g) R.OUT_APPLY_RESULT = 0
      ∧ (t.grp g).anchored = true ∧ (t.grp g).anchor = s.epoch ∧ (t.grp g).anchorHalf = half
      ∧ t.rd (GS g) R.GS_SWSTAT_ANKIND = 5
      ∧ Frame s t (.reco :: leavesOf g ++ [.grp g, .trims, .box (OUT g + R.OUT_PM_CTRL_GO.off)])
          (oneOf [outRegs g, words ((GS g + R.GS_SWSTAT_ANKIND.off) :: reqWords (OUT g) R.OUT_APPLY_GO)]))

/-- A MILESTONE advances MS_NUM and each group that takes it restarts with kind 4, skips it, or lets it pass; EP copies
the epoch count (R132, R133, R134, R163, R166). -/
def Obligations.MilestonesAndEpochSnapshot : Prop :=
  (∀ s : State, s.nextMs = none ∨ s.running = false → Next (exec .milestone s) fun t => Frame s t [] noWords)
  ∧ (∀ (s : State) (m e : Nat) (b : Bool), s.nextMs = some (m, e, b) → s.running = true → s.chain.rejoin ≠ 3 →
    (∀ g : Fin 16, (s.grp g).route = none) → Next (exec .milestone s) fun t =>
      t.rd MSC R.MSC_MS_NUM = m % 2 ^ 32 ∧ t.chain.next = m + 1 ∧ t.epoch = s.epoch
      ∧ (∀ g : Fin 16, g.val < s.variant.groups → s.takesMs g m = true → (s.grp g).applyDue = 0 →
        let coast := decide (s.lst (s.actLeaf g) = L_HOLDOVER ∨ s.lst (s.actLeaf g) = L_RELOCK)
        let took := t.rd (GS g) R.GS_MSCNT = (s.rd (GS g) R.GS_MSCNT + 1) % 2 ^ 32
        (s.swungAt g e = true → took ∧ t.rd (GS g) R.GS_MSSKIP = s.rd (GS g) R.GS_MSSKIP ∧ t.grp g = s.grp g)
        ∧ (s.swungAt g e = false → (s.hopping g = true ∨ coast = true) → t.rd (GS g) R.GS_MSSKIP = (s.rd (GS g) R.GS_MSSKIP + 1) % 2 ^ 32
          ∧ t.rd (GS g) R.GS_MSCNT = s.rd (GS g) R.GS_MSCNT ∧ t.grp g = s.grp g)
        ∧ (s.swungAt g e = false → s.hopping g = false → s.lst (s.actLeaf g) = L_LOCKED → s.phaseHeld g = false → took ∧ t.rd (GS g) R.GS_SWSTAT_ANKIND = 4
          ∧ (t.grp g).anchored = true ∧ (t.grp g).anchor = e ∧ (t.grp g).anchorHalf = false))
      ∧ (∀ g : Fin 16, s.takesMs g m = false → t.grp g = s.grp g ∧ ∀ a, outRegs g a = true → t.word a = s.word a)
      ∧ Frame s t (s.loopParts ++ [.chain, .trims, .free] ++ (List.range 16).map fun g => .box (OUT g + R.OUT_PM_CTRL_GO.off))
          (oneOf ([loopRegs, words [MSC + R.MSC_MS_NUM.off]] ++ (List.range 16).map outRegs)))
  ∧ ∀ (s : State) (src : Src), s.Takes src SYS R.SYS_EP_CTRL_GO → Next (exec (.epochSnapshot src) s) fun t =>
    (t.word (SYS + R.SYS_EP_Q0.off)).toNat = s.epoch % 2 ^ 32
    ∧ (t.word (SYS + R.SYS_EP_Q1.off)).toNat = s.epoch / 2 ^ 32 % 2 ^ 16 + 2 ^ 16 * b2n s.running
    ∧ t.rd SYS R.SYS_EP_CTRL_GO = 0 ∧ t.rd SYS R.SYS_EP_CTRL_VALID = 1
    ∧ Frame s t [.reco] (words ([SYS + R.SYS_EP_Q0.off, SYS + R.SYS_EP_Q1.off] ++ reqWords SYS R.SYS_EP_CTRL_GO))

/-- PM: MEASURE holds its outcome (ILLEGAL, DARK or a mean) for the completion, ANCHOR and the reserved OPs answer at once
(R139, R118). -/
def Obligations.PhaseMeasurement : Prop :=
  (∀ (s : State) (src : Src) (g : Fin 16) (sel : BitVec 6) (avg : BitVec 4), s.Takes src (OUT g) R.OUT_PM_CTRL_GO →
    let asked (op : Nat) (t : State) : Prop := t.rd (OUT g) R.OUT_PM_CTRL_SEL = sel.toNat
      ∧ t.rd (OUT g) R.OUT_PM_CTRL_OP = op ∧ t.rd (OUT g) R.OUT_PM_CTRL_AVG = avg.toNat
    let res := if s.outExists sel.toNat = false then 1 else if s.outLive g sel.toNat = false then 2 else 0
    let x := s.grp g
    Next (exec (.pmMeasure src g sel avg) s) (fun t =>
      asked 0 t ∧ t.rd (OUT g) R.OUT_PM_CTRL_GO = 1 ∧ t.rd (OUT g) R.OUT_PM_CTRL_VALID = 0
      ∧ t.box (OUT g + R.OUT_PM_CTRL_GO.off) = { busy := true, result := res }
      ∧ Frame s t [.reco, .box (OUT g + R.OUT_PM_CTRL_GO.off)] (words (reqWords (OUT g) R.OUT_PM_CTRL_GO)))
    ∧ Next (exec (.pmAnchor src g sel avg) s) (fun t =>
      asked 1 t ∧ t.rd (OUT g) R.OUT_PM_CTRL_GO = 0 ∧ t.rd (OUT g) R.OUT_PM_CTRL_VALID = 1
      ∧ t.rd (OUT g) R.OUT_PM_CTRL_RESULT = 0
      ∧ (t.word (OUT g + R.OUT_PM_Q0.off)).toNat = x.anchor % 2 ^ 32
      ∧ (t.word (OUT g + R.OUT_PM_Q1.off)).toNat = x.anchor / 2 ^ 32 % 2 ^ 16
      ∧ (t.word (OUT g + R.OUT_PM_Q2.off)).toNat = b2n x.anchorHalf + 2 * s.rd (GS g) R.GS_SWSTAT_ANKIND
      ∧ Frame s t [.reco] (words ([OUT g + R.OUT_PM_Q0.off, OUT g + R.OUT_PM_Q1.off, OUT g + R.OUT_PM_Q2.off]
          ++ reqWords (OUT g) R.OUT_PM_CTRL_GO)))
    ∧ ∀ b : Bool, Next (exec (.pmReservedOp src g b sel avg) s) fun t =>
      asked (2 + b2n b) t ∧ t.rd (OUT g) R.OUT_PM_CTRL_GO = 0 ∧ t.rd (OUT g) R.OUT_PM_CTRL_VALID = 1
      ∧ t.rd (OUT g) R.OUT_PM_CTRL_RESULT = 1 ∧ Frame s t [.reco] (words (reqWords (OUT g) R.OUT_PM_CTRL_GO)))
  ∧ ∀ (s : State) (g : Fin 16) (mean : BitVec 48) (x : Box), s.box (OUT g + R.OUT_PM_CTRL_GO.off) = x →
    (x.busy = false → Next (exec (.pmComplete g mean) s) fun t => Frame s t [] noWords)
    ∧ (x.busy = true → Next (exec (.pmComplete g mean) s) fun t =>
      t.rd (OUT g) R.OUT_PM_CTRL_GO = 0 ∧ t.rd (OUT g) R.OUT_PM_CTRL_VALID = 1
      ∧ t.rd (OUT g) R.OUT_PM_CTRL_RESULT = x.result % 4 ∧ t.box (OUT g + R.OUT_PM_CTRL_GO.off) = {}
      ∧ (x.result = 0 →
        [t.word (OUT g + R.OUT_PM_Q0.off), t.word (OUT g + R.OUT_PM_Q1.off)] = signed48 (toSigned 48 mean.toNat))
      ∧ Frame s t [.reco, .box (OUT g + R.OUT_PM_CTRL_GO.off)]
          (words ((OUT g + R.OUT_PM_CTRL_GO.off) :: if x.result = 0 then [OUT g + R.OUT_PM_Q0.off, OUT g + R.OUT_PM_Q1.off] else [])))

/-- SWING_COMPLETE ends a swing; the watchdog and the twin comparator swing to the guard or open a recovery gap; FORCE
swings or answers (R140, R147, R148, R150). -/
def Obligations.SwingsOfTheOutputTree : Prop :=
  (∀ (s : State) (g : Fin 16) (lockt : BitVec 32),
    ((s.grp g).swing = none → Next (exec (.swingComplete g lockt) s) fun t => Frame s t [] noWords)
    ∧ ∀ k, (s.grp g).swing = some k → (s.grp g).hop = none →
      s.lst (s.idleLeaf g) ≠ L_LOCKED ∧ s.lst (s.idleLeaf g) ≠ L_OFF ∨ (s.leaf (s.idleLeaf g)).joined = true →
      Next (exec (.swingComplete g lockt) s) fun t =>
        t.rd (GS g) R.GS_RSTAT_HOPPING = 0 ∧ t.rd (GS g) R.GS_SWCNT = (s.rd (GS g) R.GS_SWCNT + 1) % 2 ^ 32
        ∧ t.rd (GS g) R.GS_FSWCNT = (s.rd (GS g) R.GS_FSWCNT + if k = .fault then 1 else 0) % 2 ^ 32
        ∧ (t.grp g).swing = none ∧ (k = .route → t.rd (GS g) R.GS_LASTHOP_SWING = 1)
        ∧ Frame s t [.grp g, .reco] (grpRegs g))
  ∧ (∀ (s : State) (g : Fin 16) (atS : Bool) (mean : BitVec 24) (ms : Fin 1000) (n : Nat), s.actLeaf g = n →
    atS = false ∨ (s.grp g).swing ≠ some .route →
    ((s.lst n = L_OFF ∨ s.lst n = L_FAULT) → Next (exec (.treeWatchdog g mean ms atS) s) fun t => Frame s t [] noWords)
    ∧ ((s.grp g).on = true → (s.grp g).gapFailed = none → s.lst n = L_LOCKED →
      s.is (LP n) R.LP_LSTAT_SLEWING = false → (s.leaf n).widened = false →
      (Tab.get [] s.flt.hist (leafUnit n)).length ≤ 1 →
      (s.guardIn g = true → s.hopping g = false → Next (exec (.treeWatchdog g mean ms atS) s) fun t =>
        t.actLeaf g = s.idleLeaf g ∧ t.rd (GS g) R.GS_RSTAT_HOPPING = 1 ∧ (t.grp g).swing = some .fault
        ∧ t.lst n = L_RELOCK ∧ (t.leaf n).cause = FC_WATCHDOG ∧ t.rd FLT R.FLT_LAST_UNIT = leafUnit n
        ∧ Frame s t (leavesOf g ++ ratioBoxes g ++ [.grp g, .reco, .flt, .trims, .cmds, .free, .box (OUT g + R.OUT_PM_CTRL_GO.off)]) (oneOf [leafPage (2 * g), leafPage (2 * g + 1), grpRegs g, words ((FLT + R.FLT_LAST_UNIT.off) :: lstatWords)]))
      ∧ (s.guardIn g = false → s.exposed g = true → s.hopping g = false → s.leafFree (s.idleLeaf g) = true →
          ¬ (s.lst (s.idleLeaf g) = L_HOLDOVER ∧ s.is (LP (s.idleLeaf g)) R.LP_LSTATE_FOLLOW = true) →
        Next (exec (.treeWatchdog g mean ms atS) s) fun t =>
        t.actLeaf g = s.idleLeaf g ∧ t.rd (GS g) R.GS_SWSTAT_GAP = 1 ∧ (t.grp g).gapFailed = some n
        ∧ (t.grp g).prelock = none ∧ t.lst n = L_RELOCK ∧ (t.leaf n).cause = FC_WATCHDOG
        ∧ Frame s t (leavesOf g ++ ratioBoxes g ++ [.grp g, .reco, .flt, .trims, .cmds, .free, .box (OUT g + R.OUT_PM_CTRL_GO.off)]) (oneOf [leafPage (2 * g), leafPage (2 * g + 1), grpRegs g, words ((FLT + R.FLT_LAST_UNIT.off) :: lstatWords)]))))
  ∧ (∀ (s : State) (g : Fin 16) (ms : Fin 1000),
    (s.guardIn g = false ∨ s.hopping g = true ∨ (s.grp g).swing ≠ none →
      Next (exec (.twinComparator g ms) s) fun t => Frame s t [] noWords)
    ∧ (s.guardIn g = true → s.lst (s.actLeaf g) = L_LOCKED → s.hopping g = false → (s.grp g).swing = none →
      (Tab.get [] s.flt.hist (leafUnit (s.actLeaf g))).length ≤ 1 → Next (exec (.twinComparator g ms) s) fun t =>
        t.actLeaf g = s.idleLeaf g ∧ t.rd (GS g) R.GS_RSTAT_HOPPING = 1 ∧ (t.grp g).swing = some .fault
        ∧ (t.leaf (s.actLeaf g)).joined = false ∧ (t.leaf (s.actLeaf g)).cause = FC_TWIN
        ∧ Frame s t (leavesOf g ++ ratioBoxes g ++ [.grp g, .reco, .flt, .trims, .cmds, .free, .box (OUT g + R.OUT_PM_CTRL_GO.off)]) (oneOf [leafPage (2 * g), leafPage (2 * g + 1), grpRegs g, words ((FLT + R.FLT_LAST_UNIT.off) :: lstatWords)])))
  ∧ ∀ (s : State) (src : Src) (g : Fin 16) (pol swmode : Bool) (twin : BitVec 4), s.Takes src (GS g) R.GS_POLICY_FORCE →
    let busy := s.hopping g || (s.grp g).hop.isSome || (s.grp g).swing.isSome || s.routeOn g || s.cmdOn g
    let res := firstOf [(s.phaseHeld g, 3), (busy, 2), (s.pingPong g || !s.guardIn g, 1)]
    Next (exec (.policyForce src g pol swmode twin) s) fun t =>
      t.rd (GS g) R.GS_POLICY_FORCE = 0 ∧ t.rd (GS g) R.GS_POLICY_FRES = res
      ∧ t.rd (GS g) R.GS_POLICY_POL = b2n pol ∧ t.rd (GS g) R.GS_POLICY_SWMODE = b2n swmode
      ∧ t.rd (GS g) R.GS_POLICY_TWIN = twin.toNat ∧ t.power = { s.power with cfgWritten := true }
      ∧ t.rd (GS g) R.GS_SWSTAT_POLPEND = (if b2n pol = s.rd (GS g) R.GS_SWSTAT_POLIF then 0 else 1)
      ∧ (res ≠ 0 → Frame s t [.reco, .power] (words ((GS g + R.GS_SWSTAT_POLPEND.off) :: reqWords (GS g) R.GS_POLICY_FORCE)))
      ∧ (res = 0 → t.actLeaf g = s.idleLeaf g ∧ t.rd (GS g) R.GS_RSTAT_HOPPING = 1 ∧ (t.grp g).swing = some .forced
        ∧ Frame s t (.power :: leavesOf g ++ ratioBoxes g ++ [.grp g, .reco, .flt, .trims, .cmds, .free, .box (OUT g + R.OUT_PM_CTRL_GO.off)]) (oneOf [grpRegs g, leafPage (2 * g), leafPage (2 * g + 1), words (reqWords (GS g) R.GS_POLICY_FORCE ++ lstatWords)]))

/-- POL takes effect when the group is whole and free; the recovery entry sets the other leaf, and the tree resumes when
it can serve (R146, R150, R338). -/
def Obligations.PolicyAndRecovery : Prop :=
  (∀ (s : State) (g : Fin 16),
    let free := s.is (GS g) R.GS_SWSTAT_POLPEND && !s.leafRetired (2 * g) && !s.leafRetired (2 * g + 1) && !s.routeOn g
      && (s.grp g).hop.isNone && !s.hopping g && (s.grp g).swing.isNone && !s.cmdOn g && !s.phaseHeld g && !s.guardHeld g
    (free = false → Next (exec (.policyTakesEffect g) s) fun t => Frame s t [] noWords)
    ∧ (free = true → s.is (GS g) R.GS_POLICY_POL = true ∨ (s.lst (s.idleLeaf g) ≠ L_LOCKED ∧ s.lst (s.idleLeaf g) ≠ L_OFF) ∨ (s.leaf (s.idleLeaf g)).joined = true →
      Next (exec (.policyTakesEffect g) s) fun t =>
        t.rd (GS g) R.GS_SWSTAT_POLIF = s.rd (GS g) R.GS_POLICY_POL ∧ t.rd (GS g) R.GS_SWSTAT_POLPEND = 0
        ∧ Frame s t [] (words [GS g + R.GS_SWSTAT_POLIF.off]))
    ∧ (free = true → s.is (GS g) R.GS_POLICY_POL = false → (s.grp g).prelock = none → (s.grp g).gapFailed = none →
      s.lst (s.idleLeaf g) = L_LOCKED → (s.leaf (s.idleLeaf g)).joined = false → (s.leaf (s.idleLeaf g)).on = true → s.lst (s.actLeaf g) = L_LOCKED →
      s.is (LP (s.idleLeaf g)) R.LP_LSTAT_SLEWING = false → (s.leaf (s.idleLeaf g)).widened = false →
      Next (exec (.policyTakesEffect g) s) fun t =>
        t.rd (GS g) R.GS_SWSTAT_POLIF = 0 ∧ t.lst (s.idleLeaf g) = L_SEARCH ∧ (t.leaf (s.idleLeaf g)).joining = true
        ∧ (t.leaf (s.idleLeaf g)).ratio = (s.leaf (s.actLeaf g)).target.getD (s.leaf (s.actLeaf g)).ratio
        ∧ Frame s t [.leaf (s.idleLeaf g)] (oneOf [leafPage (s.idleLeaf g), words ([GS g + R.GS_SWSTAT_POLIF.off,
            GS g + R.GS_SRCHCNT.off] ++ lstatWords)])))
  ∧ (∀ (s : State) (g : Fin 16) (mean : BitVec 24) (n : Nat), s.actLeaf g = n →
    ((s.grp g).gapFailed = none → Next (exec (.recoveryEntrySet g mean) s) fun t => Frame s t [] noWords)
    ∧ ∀ old, (s.grp g).gapFailed = some old → Next (exec (.recoveryEntrySet g mean) s) fun t =>
      t.lst n = (if s.refGood n then L_ACQUIRE else L_HOLDOVER) ∧ (old ≠ n → (t.leaf n).ratio = (s.leaf old).target.getD (s.leaf old).ratio)
      ∧ t.rd (LP n) R.LP_LSTAT_BAND = s.rd (LP old) R.LP_LSTAT_BAND ∧ t.rd (LP n) R.LP_HDAC_DACV = mean.toNat
      ∧ t.rd (LP n) R.LP_HDAC_ENG = (if s.refGood n then 0 else 1) ∧ (t.grp g).gapFailed = none
      ∧ Frame s t ([.leaf n, .grp g, .reco] ++ ratioBoxes g) (oneOf [leafPage n, words ((GS g + R.GS_HOLDSTAT_DEFER.off) :: lstatWords)]))
  ∧ ∀ (s : State) (g : Fin 16) (n : Nat), s.actLeaf g = n →
    let ok := s.is (GS g) R.GS_SWSTAT_GAP && (s.grp g).gapFailed.isNone
      && (s.lst n == L_LOCKED || s.lst n == L_HOLDOVER || (s.lst n == L_ACQUIRE && !(s.leaf n).missed))
    (ok = false → Next (exec (.recoveryResume g) s) fun t => Frame s t [] noWords)
    ∧ (ok = true → s.lst (s.idleLeaf g) ≠ L_LOCKED ∧ s.lst (s.idleLeaf g) ≠ L_OFF ∨ (s.leaf (s.idleLeaf g)).joined = true →
      Next (exec (.recoveryResume g) s) fun t =>
        t.rd (GS g) R.GS_SWSTAT_GAP = 0 ∧ t.rd (GS g) R.GS_GAPCNT = (s.rd (GS g) R.GS_GAPCNT + 1) % 2 ^ 32
        ∧ t.grp g = { s.grp g with rstGen := (s.grp g).rstGen + 1, rstWord := (s.grp g).pwEn }
        ∧ Frame s t [.grp g] (words [GS g + R.GS_SWSTAT_GAP.off, GS g + R.GS_GAPCNT.off]))

/-- Chain receivers: UPLINK and DNLINK follow, a module without upstream becomes head; a frame with a bad CRC counts, a
good one acts (R153, R154, R155, R163, R167, R170). -/
def Obligations.ChainReceiversAndFrames : Prop :=
  (∀ (s : State) (dn : Bool),
    (s.variant.mc = false ∨ s.is MSC (if dn then R.MSC_STAT_DNLINK else R.MSC_STAT_UPLINK) = true →
      Next (exec (.chainRxUp dn) s) fun t => Frame s t [] noWords)
    ∧ (s.variant.mc = false ∨ s.is MSC (if dn then R.MSC_STAT_DNLINK else R.MSC_STAT_UPLINK) = false →
      Next (exec (.chainRxDown dn) s) fun t => Frame s t [] noWords))
  ∧ (∀ s : State, s.variant.mc = true → s.power.aon = true → s.chain.cfgHead = false → s.power.clk = true →
    (s.is MSC R.MSC_STAT_UPLINK = false → Next (exec (.chainRxUp false) s) fun t =>
      t.rd MSC R.MSC_STAT_UPLINK = 1 ∧ t.chain.upSeen = true
      ∧ (s.chSt = C_DOWN → t.chSt = C_TRAIN) ∧ (s.chSt = C_HEAD → s.chain.byTimeout = true → t.chSt = C_SEGHEAD)
      ∧ (s.chSt ≠ C_DOWN → s.chSt ≠ C_HEAD → t.chSt = s.chSt ∧ t.chain = { s.chain with upSeen := true })
      ∧ Frame s t [.chain] (words [MSC + R.MSC_STAT_STATE.off, MSC + R.MSC_CHAIN_SEGHD.off, MSC + R.MSC_SEGCNT.off]))
    ∧ (s.is MSC R.MSC_STAT_UPLINK = true → Next (exec (.chainRxDown false) s) fun t =>
      t.rd MSC R.MSC_STAT_UPLINK = 0
      ∧ t.rd MSC R.MSC_LINKDN = (s.rd MSC R.MSC_LINKDN + if s.chSt = C_DOWN ∨ s.chSt = C_HEAD then 0 else 1) % 2 ^ 32
      ∧ (s.chSt = C_TRAIN ∨ s.chSt = C_ENUM ∨ s.chSt = C_MEASURE → t.chain.cfgHead = s.is MSC R.MSC_CFG_HEAD
          ∧ t.chain.refsrc = s.rd MSC R.MSC_CFG_REFSRC ∧ t.chSt = if s.is MSC R.MSC_CFG_HEAD then C_HEAD else C_DOWN)
      ∧ (s.chSt = C_ALIGNED ∨ s.chSt = C_SEGMENT → t.chSt = C_SEGHEAD
          ∧ t.rd MSC R.MSC_CHAIN_SEGHD = s.rd MSC R.MSC_STAT_POS
          ∧ t.rd MSC R.MSC_SEGCNT = (s.rd MSC R.MSC_SEGCNT + 1) % 2 ^ 32)
      ∧ Frame s t [.chain, .free] (words [MSC + R.MSC_STAT_STATE.off, MSC + R.MSC_CHAIN_SEGHD.off, MSC + R.MSC_SEGCNT.off,
          MSC + R.MSC_LINKDN.off]))
    ∧ (s.chSt = C_DOWN → s.chain.upSeen = false → Next (exec .headTimeout s) fun t =>
      t.chSt = C_HEAD ∧ t.rd MSC R.MSC_STAT_POS = 0 ∧ t.chain.byTimeout = true ∧ t.chain.linkRef = false
      ∧ t.chain.enumBusy = s.dnOpen ∧ (s.dnOpen = true → t.sends false 1 (isEnum 1 s.refHz) = true)
      ∧ (s.dnOpen = false → t.rd MSC R.MSC_CHAIN_LEN = 1)
      ∧ Frame s t [.chain, .free] (words [MSC + R.MSC_STAT_STATE.off, MSC + R.MSC_CHAIN_LEN.off]))
    ∧ (s.chSt ≠ C_DOWN ∨ s.chain.upSeen = true → Next (exec .headTimeout s) fun t => Frame s t [] noWords))
  ∧ ∀ (s : State) (up : Bool) (cs : List (BitVec 8)) (frac : Word) (seghd : BitVec 12) (lat : BitVec 48), s.variant.mc = true → s.power.clk = true →
      s.is MSC (if up then R.MSC_STAT_UPLINK else R.MSC_STAT_DNLINK) = true → s.chain.cfgHead = false →
    (frameOk cs = false → Next (exec (.chainFrame up cs seghd frac lat) s) fun t =>
      t.rd MSC R.MSC_CRCERR = (s.rd MSC R.MSC_CRCERR + 1) % 2 ^ 32 ∧ Frame s t [] (words [MSC + R.MSC_CRCERR.off]))
    ∧ (frameOk cs = true →
      let ty := frameField cs 1 1
      let h := frameField cs 48 4
      let posf := frameField cs 26 2
      let now := (frameField cs 2 2, s.epoch, frac.toNat)
      (bitOf ty 4 = false → up = false → bitOf posf 13 = false → s.chSt ≠ C_HEAD →
        Next (exec (.chainFrame up cs seghd frac lat) s) fun t =>
          t.chain = { s.chain with rxDn := now, chainLat := lat.toNat } ∧ Frame s t [.chain] noWords)
      ∧ (bitOf ty 4 = false → bitOf ty 3 = false → up = true → bitOf posf 12 = false → Next (exec (.chainFrame up cs seghd frac lat) s) fun t =>
        (s.chSt = C_ALIGNED → bitOf ty 1 = true → t.chSt = C_SEGMENT ∧ t.rd MSC R.MSC_CHAIN_SEGHD = seghd.toNat)
        ∧ (s.chSt = C_SEGMENT → bitOf ty 1 = false → t.chSt = C_ALIGNED ∧ t.rd MSC R.MSC_CHAIN_SEGHD = 0)
        ∧ t.chain.rxUp = now ∧ t.chain.accLat = lat.toNat ∧ t.chain.ann = s.chain.ann ∧ t.chain.newSched = s.chain.newSched
        ∧ Frame s t [.chain] (words [MSC + R.MSC_STAT_STATE.off, MSC + R.MSC_CHAIN_SEGHD.off]))
      ∧ (bitOf ty 4 = false → bitOf ty 3 = true → up = true → s.chSt = C_ALIGNED → bitOf ty 1 = false → bitOf posf 12 = false →
        s.chain.sched = false →
        Next (exec (.chainFrame up cs seghd frac lat) s) fun t =>
          t.chain.ann = some (frameField cs 34 4, frameField cs 38 6, frameField cs 44 4)
          ∧ t.chain.newSched = some (frameField cs 38 6, frameField cs 44 4, frameField cs 34 4) ∧ t.chain.rxUp = now
          ∧ (s.txOn false = true → t.sends false 0 (fun c => bitOf (frameField c 1 1) 3 && frameField c 34 4 == frameField cs 34 4
              && frameField c 38 6 == frameField cs 38 6 && frameField c 44 4 == frameField cs 44 4) = true)
          ∧ Frame s t [.chain, .free] noWords)
      ∧ (bitOf ty 4 = true → up = false → bitOf posf 13 = false → s.chSt ≠ C_HEAD → bitOf h 24 = false → s.hasPos = true → h / 4096 % 4096 = s.rd MSC R.MSC_STAT_POS →
        Next (exec (.chainFrame up cs seghd frac lat) s) fun t =>
          (16 ≤ s.chain.rx.length → t.rd MSC R.MSC_MSGDROP = (s.rd MSC R.MSC_MSGDROP + 1) % 2 ^ 32
            ∧ t.chain = { s.chain with rxDn := now, chainLat := lat.toNat } ∧ Frame s t [.chain] (words [MSC + R.MSC_MSGDROP.off]))
          ∧ (s.chain.rx.length < 16 → t.rd MSC R.MSC_MSG_RX_COUNT = s.chain.rx.length + 1
            ∧ (∃ ws : List Word, ws.length = 4 ∧ t.chain = { s.chain with
                rx := s.chain.rx ++ [(h % 4096, ws)], rxDn := now, chainLat := lat.toNat })
            ∧ Frame s t [.chain] (words [MSC + R.MSC_MSG_RX_COUNT.off, MSC + R.MSC_MSG_RD0.off, MSC + R.MSC_MSG_RD1.off,
                MSC + R.MSC_MSG_RD2.off, MSC + R.MSC_MSG_RD3.off]))))

/-- An enumeration gives a position and goes on or is answered, LEN replies pass upstream, a measurement aligns; CTRL
starts each or says why not (R155, R156, R160, R164, R165). -/
def Obligations.EnumerationMeasurementAndSchedule : Prop :=
  (∀ (s : State) (p : BitVec 13) (hz : Word) (lat : BitVec 48), s.variant.mc = true → s.power.clk = true →
      s.is MSC R.MSC_STAT_UPLINK = true → s.chain.cfgHead = false → s.power.clkRoot ≠ 2 → s.chSt ≠ C_DOWN → s.chSt ≠ C_HEAD →
    (p.toNat ≤ 4095 → hz.toNat = s.refHz → Next (exec (.enumerationFrame p hz lat) s) fun t =>
      t.rd MSC R.MSC_STAT_POS = p.toNat ∧ t.rd MSC R.MSC_STAT_REFMIS = 0 ∧ t.rd MSC R.MSC_STAT_OVERLONG = 0
      ∧ t.rd MSC R.MSC_ENUMCNT = (s.rd MSC R.MSC_ENUMCNT + 1) % 2 ^ 32
      ∧ (s.chSt = C_TRAIN ∨ s.chSt = C_ENUM → t.chSt = C_MEASURE ∧ t.chain.measuring = true)
      ∧ (s.chSt ≠ C_TRAIN → s.chSt ≠ C_ENUM → t.chSt = s.chSt)
      ∧ t.chain.enumBusy = s.dnOpen ∧ t.chain.accLat = lat.toNat
      ∧ (if s.dnOpen then t.sends false (p.toNat + 1) (isEnum (p.toNat + 1) s.refHz) = true
        else t.sends true 0 (isLen 1) = true ∧ t.rd MSC R.MSC_CHAIN_LEN = 1)
      ∧ (s.chSt = C_SEGHEAD → t.rd MSC R.MSC_CHAIN_SEGHD = p.toNat)
      ∧ Frame s t [.chain, .free] (words [MSC + R.MSC_STAT_STATE.off, MSC + R.MSC_ENUMCNT.off, MSC + R.MSC_CHAIN_LEN.off]))
    ∧ (4095 < p.toNat ∨ hz.toNat ≠ s.refHz → Next (exec (.enumerationFrame p hz lat) s) fun t =>
      t.sends true 0 (isLen 0) = true
      ∧ (s.chSt = C_TRAIN ∨ s.chSt = C_ENUM → t.chSt = C_ENUM
          ∧ t.rd MSC R.MSC_STAT_OVERLONG = (if 4095 < p.toNat then 1 else 0)
          ∧ t.rd MSC R.MSC_STAT_REFMIS = (if hz.toNat = s.refHz then 0 else 1))
      ∧ (s.chSt ≠ C_TRAIN → s.chSt ≠ C_ENUM → Frame s t [.chain, .free] noWords)
      ∧ Frame s t [.chain, .free] (words [MSC + R.MSC_STAT_STATE.off])))
  ∧ (∀ (s : State) (n : BitVec 13) (lat : BitVec 48), s.variant.mc = true → s.power.clk = true →
      s.is MSC R.MSC_STAT_DNLINK = true →
    (s.hasPos = true → Next (exec (.lenReply n lat) s) fun t =>
      t.rd MSC R.MSC_CHAIN_LEN = (n.toNat + 1) % 2 ^ 13 ∧ t.chain.enumBusy = false ∧ t.chain.chainLat = lat.toNat
      ∧ (s.chSt ≠ C_HEAD → s.portOpen true = true → t.sends true 0 (isLen (n.toNat + 1)) = true)
      ∧ Frame s t [.chain, .free] (words [MSC + R.MSC_CHAIN_LEN.off]))
    ∧ (s.hasPos = false → Next (exec (.lenReply n lat) s) fun t => Frame s t [] noWords))
  ∧ (∀ (s : State) (count th rt skew : BitVec 48) (means : List (BitVec 24)) (quiet : BitVec 34),
    (s.chain.measuring = false → s.chSt ≠ C_ALIGNED → s.chSt ≠ C_SEGMENT → Next (exec (.measureComplete count th rt skew means quiet) s) fun t => Frame s t [] noWords)
    ∧ (s.variant.mc = true → s.power.clk = true → s.chain.measuring = true ∨ s.chSt = C_ALIGNED ∨ s.chSt = C_SEGMENT →
      s.ref.qualified = false →
      Next (exec (.measureComplete count th rt skew means quiet) s) fun t =>
        let a := toSigned 32 (s.rd MSC R.MSC_ASYM)
        let m := s.averages (toSigned 48 th.toNat) rt.toNat
        t.chain.measuring = false ∧ t.chain.measured = true ∧ t.chain.hopOfs = (2 * m.1 - a) / 2 ∧ t.chain.hopDly = (m.2 + a) / 2
        ∧ (s.chSt = C_MEASURE → t.chSt = C_ALIGNED ∧ t.epoch = count.toNat ∧ t.running = true)
        ∧ (s.chSt ≠ C_MEASURE → t.chSt = s.chSt ∧ t.epoch = s.epoch ∧ t.running = s.running)
        ∧ (s.chSt = C_SEGHEAD → t.chain.rejoin = if s.chain.rejoin = 0 then 1 else s.chain.rejoin)
        ∧ Frame s t [.chain, .epoch] (words [MSC + R.MSC_STAT_STATE.off, MSC + R.MSC_CHAIN_SEGHD.off])))
  ∧ ∀ (s : State) (src : Src), s.Takes src MSC R.MSC_CTRL_GO →
    let busy := s.chain.enumBusy || s.chain.measuring
    let answer (op r : Nat) (t : State) : Prop := t.rd MSC R.MSC_CTRL_OP = op ∧ t.rd MSC R.MSC_CTRL_RESULT = r
      ∧ t.rd MSC R.MSC_CTRL_GO = 0
    let refused (t : State) : Prop := Frame s t [.reco] (words (reqWords MSC R.MSC_CTRL_GO))
    let e := firstOf [(busy, 5), (!s.isHead, 2)]
    let r := firstOf [(busy, 5), (!(s.is MSC R.MSC_STAT_UPLINK && decide (C_ALIGNED ≤ s.chSt) && !s.isHead && s.chain.measured), 6)]
    Next (exec (.mscEnum src) s) (fun t => answer 0 e t ∧ (e ≠ 0 → refused t)
      ∧ (e = 0 → t.chain.enumBusy = s.dnOpen ∧ (s.dnOpen = true → s.txOn false = true → t.sends false 1 (isEnum 1 s.refHz) = true)
        ∧ Frame s t [.reco, .chain, .free] (words ((MSC + R.MSC_CHAIN_LEN.off) :: reqWords MSC R.MSC_CTRL_GO))))
    ∧ Next (exec (.mscRemeasure src) s) (fun t => answer 1 r t ∧ (r ≠ 0 → refused t)
      ∧ (r = 0 → t.chain = { s.chain with measuring := true, exN := 0, exTh := 0, exRt := 0 }
        ∧ Frame s t [.reco, .chain] (words (reqWords MSC R.MSC_CTRL_GO))))
    ∧ Next (exec (.mscSched src) s) (fun t => answer 2 s.schedResult t ∧ (s.schedResult ≠ 0 → refused t)
      ∧ (s.schedResult = 0 → t.chain = { s.chain with newSched := some (s.chain.newBase, s.rd MSC R.MSC_MS_INT, 0), shortNow := false }
        ∧ Frame s t [.reco, .chain] (words (reqWords MSC R.MSC_CTRL_GO))))
    ∧ ∀ op : Fin 5, Next (exec (.mscReservedOp src op) s) fun t => answer (3 + op) 1 t ∧ refused t

/-- MB reads wide values and writes NEWBASE only; a rejoin slews or waits and ends ALIGNED; messages are sent by position
and popped in order (R168, R169, R163, R166). -/
def Obligations.ChainMailboxRejoinAndMessages : Prop :=
  (∀ (s : State) (src : Src) (sel : BitVec 3), s.Takes src MSC R.MSC_MB_CTRL_GO →
    let done (w r : Nat) (t : State) : Prop := t.rd MSC R.MSC_MB_CTRL_SEL = sel.toNat ∧ t.rd MSC R.MSC_MB_CTRL_WR = w
      ∧ t.rd MSC R.MSC_MB_CTRL_RESULT = r ∧ t.rd MSC R.MSC_MB_CTRL_GO = 0 ∧ t.rd MSC R.MSC_MB_CTRL_VALID = 1
    Next (exec (.mbRead src sel) s) (fun t =>
      done 0 (if sel.toNat = 7 then 1 else 0) t
      ∧ (sel.toNat ≠ 7 → [t.word (MSC + R.MSC_MB_Q0.off), t.word (MSC + R.MSC_MB_Q1.off)] = s.mbWords sel.toNat)
      ∧ Frame s t [.reco] (words ((if sel.toNat = 7 then [] else [MSC + R.MSC_MB_Q0.off, MSC + R.MSC_MB_Q1.off])
          ++ reqWords MSC R.MSC_MB_CTRL_GO)))
    ∧ Next (exec (.mbWriteNewbase src sel) s) (fun t =>
      done 1 (if sel.toNat = 6 then 0 else 1) t
      ∧ t.chain = (if sel.toNat = 6 then
          { s.chain with newBase := s.rd MSC R.MSC_MB_D0 + s.rd MSC R.MSC_MB_D1 % 2 ^ 16 * 2 ^ 32 } else s.chain)
      ∧ Frame s t [.reco, .chain] (words (reqWords MSC R.MSC_MB_CTRL_GO))))
  ∧ (∀ (s : State) (delta : BitVec 48) (late : Bool),
    let ok := s.chSt == C_SEGHEAD && s.chain.rejoin == 1 && (late || s.noneAway)
    (ok = false → Next (exec (.rejoinSlewStart delta late) s) fun t => Frame s t [] noWords)
    ∧ (ok = true → Next (exec (.rejoinSlewStart delta late) s) fun t =>
      t.chain = { s.chain with rejoin := if s.chain.linkRef then 2 else 3, delta := toSigned 48 delta.toNat }
      ∧ t.rd MSC R.MSC_STAT_SLEWING = (if s.chain.linkRef then 1 else s.rd MSC R.MSC_STAT_SLEWING)
      ∧ Frame s t [.chain] (words [MSC + R.MSC_STAT_SLEWING.off]))
    ∧ (s.chSt ≠ C_SEGHEAD ∨ s.chain.rejoin ≠ 2 → Next (exec .rejoinSlewEnd s) fun t => Frame s t [] noWords)
    ∧ (s.chSt = C_SEGHEAD → s.chain.rejoin = 2 → Next (exec .rejoinSlewEnd s) fun t =>
      t.chSt = C_ALIGNED ∧ t.rd MSC R.MSC_STAT_SLEWING = 0 ∧ t.rd MSC R.MSC_CHAIN_SEGHD = 0
      ∧ t.chain = { s.chain with rejoin := 0, delta := 0 }
      ∧ Frame s t [.chain] (words [MSC + R.MSC_STAT_STATE.off, MSC + R.MSC_CHAIN_SEGHD.off])))
  ∧ (∀ (s : State) (src : Src) (dest : BitVec 12) (all soon : Bool), s.Takes src MSC R.MSC_MSG_TX_GO →
    let ports := s.msgPorts dest.toNat all
    let self := !all && s.hasPos && decide (dest.toNat = s.rd MSC R.MSC_STAT_POS)
    let res := firstOf [(!(ports.1 || ports.2 || self), 1), (!s.hasPos, 2), (soon, 3)]
    let m := isMessage (s.rd MSC R.MSC_STAT_POS + dest.toNat * 4096 + b2n all * 2 ^ 24)
      [s.rd MSC R.MSC_MSG_TD0, s.rd MSC R.MSC_MSG_TD1, s.rd MSC R.MSC_MSG_TD2, s.rd MSC R.MSC_MSG_TD3]
    Next (exec (.messageSend src dest all soon) s) fun t =>
      t.rd MSC R.MSC_MSG_TX_RESULT = res ∧ t.rd MSC R.MSC_MSG_TX_GO = 0 ∧ t.rd MSC R.MSC_MSG_TX_DEST = dest.toNat
      ∧ t.rd MSC R.MSC_MSG_TX_ALL = b2n all
      ∧ (t.sends true 0 m = true ↔ res = 0 ∧ ports.1 = true) ∧ (t.sends false 0 m = true ↔ res = 0 ∧ ports.2 = true)
      ∧ Frame s t [.reco, .chain, .free] (words (reqWords MSC R.MSC_MSG_TX_GO)))
  ∧ ∀ (s : State) (src : Src), s.Takes src MSC R.MSC_MSG_RX_POP → Next (exec (.messagePop src) s) fun t =>
    t.chain = { s.chain with rx := s.chain.rx.drop 1 } ∧ t.rd MSC R.MSC_MSG_RX_POP = 0
    ∧ t.rd MSC R.MSC_MSG_RX_COUNT = (s.chain.rx.length - 1) % 32
    ∧ (∀ m, s.chain.rx[1]? = some m → t.rd MSC R.MSC_MSG_RX_SRC = m.1 % 4096
        ∧ t.word (MSC + R.MSC_MSG_RD0.off) = m.2.getD 0 0 ∧ t.word (MSC + R.MSC_MSG_RD3.off) = m.2.getD 3 0)
    ∧ Frame s t [.reco, .chain] (words ([MSC + R.MSC_MSG_RD0.off, MSC + R.MSC_MSG_RD1.off, MSC + R.MSC_MSG_RD2.off, MSC + R.MSC_MSG_RD3.off] ++ reqWords MSC R.MSC_MSG_RX_POP))

/-- Written channel and site settings take effect only while no step executes and when legal; a pin swing hands over to
the spare and back (R175, R180, R181, R336). -/
def Obligations.ChannelAndSiteSettings : Prop :=
  (∀ (s : State) (c : Fin 528) (g : Nat), g = (if c.val < 512 then c.val / 32 else c.val - 512) →
    (s.rd (CH c) R.CH_CSTAT_PEND = 0 ∨ s.stepOn g = true ∨ (512 ≤ c.val ∧ (s.chan c).serves ≠ none) →
      Next (exec (.channelSettingsApply c) s) fun t => Frame s t [] noWords)
    ∧ (s.rd (CH c) R.CH_CSTAT_PEND = 1 → s.stepOn g = false → c.val < 512 ∨ (s.chan c).serves = none →
      let ok := s.chanLegal c (s.written c) (s.lockedServing g)
      Next (exec (.channelSettingsApply c) s) fun t =>
        t.rd (CH c) R.CH_CSTAT_PEND = 0 ∧ t.rd (CH c) R.CH_CSTAT_ILLEG = (if ok then 0 else 1)
        ∧ (ok = true → (∀ o ∈ chanOffs, t.infWord c o = s.word (CH c + o))
          ∧ Frame s t [.chan c, .chan (512 + g)] (words [CH c + R.CH_CSTAT_PEND.off]))
        ∧ (ok = false → Frame s t [] (words [CH c + R.CH_CSTAT_PEND.off]))))
  ∧ (∀ (s : State) (g : Fin 16),
    ((s.grp g).on = false ∨ s.stepOn g = true → Next (exec (.siteSettingsApply g) s) fun t => Frame s t [] noWords)
    ∧ ((s.grp g).on = true → s.stepOn g = false → Next (exec (.siteSettingsApply g) s) fun t =>
      t.rd (GS g) R.GS_PSTAT_OVL = b2n (s.sitesOverlap g)
      ∧ (g.val < s.variant.groups → s.bankMode = true → s.groupOwned g = true →
        (t.grp g).siteMap = (List.range 4).map (fun i => s.rd (GS g + 4 * i) R.GS_SITE_MAP)
        ∧ (t.grp g).siteCfg = (List.range 4).map fun i => (s.word (GS g + 4 * i + R.GS_SITE_CFG_EN.off)).toNat)
      ∧ Frame s t s.bankParts bankRegs))
  ∧ ∀ (s : State) (c : Fin 512) (tight : Bool),
    ((s.chan c).swing = none → Next (exec (.pinSwingHandover c tight) s) fun t => Frame s t [] noWords)
    ∧ ((s.chan c).swing = none ∨ s.stepOn (c / 32) = false → Next (exec (.pinSwingTimeout c) s) fun t => Frame s t [] noWords)
    ∧ ((s.chan c).swing = some true → (s.roll (c / 32)).step = 0 →
      let done (t : State) : Prop := t.rd (CH c) R.CH_CSTAT_SPARE = 1 ∧ t.rd (CH c) R.CH_CSTAT_SHADOW = 0
        ∧ t.chan c = { s.chan c with swing := none, iso := true }
        ∧ Frame s t [.chan c, .grp (c / 32)] (words [CH c + R.CH_CSTAT_SPARE.off])
      (s.stepOn (c / 32) = true → Next (exec (.pinSwingTimeout c) s) done)
      ∧ (s.stepOn (c / 32) = false → Next (exec (.pinSwingHandover c tight) s) done))
    ∧ ((s.chan c).swing = some false → (s.roll (c / 32)).step = 0 → s.stepOn (c / 32) = false →
      Next (exec (.pinSwingHandover c tight) s) fun t =>
        t.rd (CH c) R.CH_CSTAT_SPARE = 0 ∧ (t.chan c).swing = none ∧ (t.chan c).iso = false ∧ (t.chan c).cause = 0)

/-- A sample of a powered converter enters its live engine with value, phase word and flags; with 64 held it is dropped
and counted (R19, R177, R204, R207, R221). -/
def Obligations.SamplesEnterTheFifo : Prop :=
  ∀ (s : State) (c : Fin 512) (code : BitVec 18) (n : BitVec 48) (susp settled pclamp : Bool),
    let g := c.val / 32
    let x := s.grp g
    let p := s.physEng c
    let y := s.eng p
    let src := s.infF c R.CH_CMODE_ADCSRC
    let set := (s.setsOn g).testBit (c % 32)
    let conv := s.infF c R.CH_CMODE_MODE != 0 && s.infF c R.CH_CMODE_ADCEN != 0
    let clamp := CH c + R.CH_CSTAT_PCLAMP.off
    let first := s.wordsRun g && x.rstWord
    let v : Int := if src = 1 then toSigned 18 code.toNat else (code.toNat : Int) - 131072
    let frame (t : State) (parts : List Part) (rs : List Nat) : Prop :=
      Frame s t (parts ++ [.grp g] ++ if x.pwEn then [] else [.free]) (words (rs ++ [clamp, OUT g + R.OUT_PWRST.off]))
    (set = false → Next (exec (.adcSampleEntry c code n susp settled pclamp) s) fun t => Frame s t [] noWords)
    ∧ (set = true → Next (exec (.adcSampleEntry c code n susp settled pclamp) s) fun t =>
      t.rd (CH c) R.CH_CSTAT_PCLAMP = b2n (pclamp && s.infF c R.CH_CMODE_MODE == 4)
      ∧ (conv = false → Frame s t [] (words [clamp])))
    ∧ (set = true → conv = true → Next (exec (.adcSampleEntry c code n susp settled pclamp) s) fun t =>
      t.grp g = { x with settling := x.settling && !settled, gapSusp := x.gapSusp && !settled, rstWord := x.rstWord && !first }
      ∧ t.rd (OUT g) R.OUT_PWRST = (s.rd (OUT g) R.OUT_PWRST + b2n first) % 2 ^ R.OUT_PWRST.width
      ∧ t.freeCtr = s.freeCtr + (if x.pwEn then 0 else 1)
      ∧ (y.live = false → t.chan c = { s.chan c with rstSeen := x.rstGen } ∧ frame t [.chan c] [])
      ∧ (y.live = true → (y.fifo.filter fun e => !e.mark).length < 64 →
        ((t.eng p).fifo.map fun e => (e.mark, e.s, e.phase, e.rst, e.cont, e.lost)) = (y.fifo.map fun e => (e.mark, e.s, e.phase, e.rst, e.cont, e.lost))
          ++ [(false, v, if x.pwEn then s.phaseWord g n.toNat else (Config.idlePhase s.freeCtr).toNat,
               y.rstNext || (s.chan c).rstSeen != x.rstGen, s.contNow g, y.lostNext)]
        ∧ t.eng p = { y with fifo := (t.eng p).fifo, rstNext := false, lostNext := false } ∧ (t.chan c).rstSeen = x.rstGen
        ∧ frame t [.eng p, .chan c] [])
      ∧ (y.live = true → 64 ≤ (y.fifo.filter fun e => !e.mark).length →
        t.eng p = { y with rstNext := true, lostNext := true } ∧ t.rd (CH c) R.CH_OVFCNT = (s.rd (CH c) R.CH_OVFCNT + 1) % 2 ^ 32
        ∧ (t.chan c).ovfSeen = true ∧ frame t [.eng p, .chan c] [CH c + R.CH_OVFCNT.off]))

/-- A ready test step starts the stream and RUN; one that fails a check of R192 ends its command SETUP; HALT ends the step
with its outcome (R189, R191, R192, R193, R27). -/
def Obligations.TestStepsStartAndEnd : Prop :=
  (∀ (s : State) (g : Fin 16),
    (s.stepOn g = true ∨ (s.grp g).on = false ∨ (s.grp g).replay ≠ [] ∨ (s.grp g).steps = [] →
      Next (exec (.testStepStart g) s) fun t => Frame s t [] noWords)
    ∧ ∀ u, (s.grp g).steps = [u] → s.stepOn g = false → (s.grp g).on = true → (s.grp g).replay = [] →
      (s.stepReady g u = true → s.throttle < 2 → Next (exec (.testStepStart g) s) fun t =>
        ((t.grp g).cur.map fun x => (x.line, x.vcnt, x.rep, x.matched, x.norpl, x.hopped)) = some (u.line0, 0, none, 0, none, false)
        ∧ ((t.grp g).cur.map fun x => x.steps.map fun v => (v.handle, v.sites)) = some [(u.handle, u.sites)]
        ∧ (t.grp g).steps = [] ∧ t.rd (GS g) R.GS_STEPCNT = (s.rd (GS g) R.GS_STEPCNT + 1) % 2 ^ 32
        ∧ t.rd (GS g) R.GS_PSTAT_STEP = 1 ∧ t.rd (GS g) R.GS_PSTAT_LINE = u.line0 % 2 ^ R.GS_PSTAT_LINE.width
        ∧ (∀ k ∈ (s.grp g).members u.sites, t.rd (CH (32 * g + k)) R.CH_FAILCNT = 0
            ∧ t.rd (CH (32 * g + k)) R.CH_FIRSTFAIL = 0xFFFFFFFF)
        ∧ t.mode = MODE_RUN
        ∧ (∀ i < 4, (s.grp g).siteEn i = true → ∀ c ∈ s.patCols g i, let idle := s.infF (32 * g + c.2) R.CH_CMODE_IDLE
            (t.chan (32 * g + c.2)).drvOn = (idle == 1 || idle == 2) ∧ (t.chan (32 * g + c.2)).drvLvl = (idle == 2))
        ∧ Frame s t (.grp g :: .reco :: (List.range 32).map fun k => .chan (32 * g + k))
            (oneOf [fun a => (List.range 32).any fun k => a == CH (32 * g + k) + R.CH_FAILCNT.off || a == CH (32 * g + k) + R.CH_FIRSTFAIL.off, words [GS g + R.GS_STEPCNT.off, GS g + R.GS_PSTAT_STEP.off, GLB + R.GLB_MODE_CUR.off]]))
      ∧ (s.stepWaits g u = true → s.throttle < 3 → s.t2Waits g u.sites = false → Next (exec (.testStepStart g) s) fun t =>
        (t.grp g).steps = [u] ∧ Frame s t [] noWords)
      ∧ (s.stepWaits g u = false → s.stepSetup g u = true → Next (exec (.testStepStart g) s) fun t =>
        (t.grp g).steps = [] ∧ (t.grp g).cur = none
        ∧ (∀ c, s.cmd? u.handle = some c → c.phase = .running → c.status = 0 → ∀ d ∈ t.cmds, d.handle = u.handle → d.status = ST_SETUP)
        ∧ Frame s t [.grp g, .cmds, .modRecs] noWords))
  ∧ ∀ (s : State) (g : Fin 16) (fails clips : Word) (settled : Bool),
    ((s.grp g).cur = none → Next (exec (.patHalt g fails clips settled) s) fun t => Frame s t [] noWords)
    ∧ ∀ st, (s.grp g).cur = some st → lineOp ((s.grp g).line st.line) = 10 → s.is (GS g) R.GS_PSTAT_FHOLD = false →
      (s.grp g).cmp.length < 512 → Next (exec (.patHalt g fails clips settled) s) fun t =>
        (t.grp g).cur = none ∧ t.rd (GS g) R.GS_PSTAT_STEP = 0
        ∧ (s.power.reqPending = false →
          (∀ h c, s.cmd? h = some c → (∀ u ∈ st.steps, u.handle ≠ h) → t.cmd? h = some c)
          ∧ (s.mode = MODE_RUN → (∀ g' < s.variant.groups, (s.stepOn g' = true → g' = g) ∧ (s.grp g').replay = [] ∧ (s.grp g').steps = []) →
            (∀ u ∈ st.steps, s.replays g st u = false) → t.mode = MODE_ARMED)
          ∧ ∀ u c, st.steps = [u] → s.cmd? u.handle = some c → u.abort = false → s.replays g st u = false →
            ∀ d ∈ t.cmds, d.handle = u.handle → d.steps = c.steps + 1
              ∧ (fails = 0 → u.failed = 0 → u.unmatched = 0 → d.status = c.status)
              ∧ (u.failed ≠ 0 → c.status = 0 → d.status = ST_FAIL))

/-- Each vector counts and moves the stream by its micro-operation; compares that fail count; a held or foreign line
issues nothing (R184, R187, R188, R189, R194, R195). -/
def Obligations.PatternMicroOperations : Prop :=
  (∀ (s : State) (g : Fin 16) (f c : Word) (st : Bool) (i : Instr) (op : Nat), (i, op) ∈ [(Instr.patNext g f c st, 0), (.patRepeat g f c st, 1),
      (.patLset g f c st, 2), (.patLend g f c st, 3), (.patJump g f c st, 4), (.patMatch g f c st, 5), (.patRadv g f c st, 6), (.patMark g f c st, 7),
      (.patWait g f c st, 8), (.patNorpl g f c st, 9), (.patHalt g f c st, 10)] →
    ((s.grp g).cur = none ∨ s.is (GS g) R.GS_PSTAT_FHOLD = true ∨ 512 ≤ (s.grp g).cmp.length
      ∨ (∀ x, (s.grp g).cur = some x → lineOp ((s.grp g).line x.line) ≠ op) →
      Next (exec i s) fun t => Frame s t [] noWords))
  ∧ ∀ (s : State) (g : Fin 16) (st : Stream), (s.grp g).cur = some st → st.line < 0x1FFFF →
      s.is (GS g) R.GS_PSTAT_FHOLD = false → (s.grp g).cmp.length < 512 →
    let l := (s.grp g).line st.line
    let arg := lineArg l
    let at_ (t : State) (line : Nat) (rep : Option Nat) (l0 l1 : Nat) (nr : Option Nat) : Prop :=
      ((t.grp g).cur.map fun x => (x.line, x.vcnt, x.rep, x.loop0, x.loop1, x.norpl)) = some (line, st.vcnt + 1, rep, l0, l1, nr)
    let pins : List Part := .grp g :: (List.range 32).map fun k => .chan (32 * g + k)
    let fr (t : State) : Prop := Frame s t pins (words [GS g + R.GS_PSTAT_LINE.off])
    let nxt (t : State) : Prop := at_ t (st.line + 1) none st.loop0 st.loop1 st.norpl ∧ fr t
    (lineOp l = 0 → Next (exec (.patNext g 0 0 false) s) nxt)
    ∧ (lineOp l = 1 → Next (exec (.patRepeat g 0 0 false) s) fun t =>
      (st.rep.getD arg = 0 → nxt t)
      ∧ (st.rep.getD arg ≠ 0 → at_ t st.line (some (st.rep.getD arg - 1)) st.loop0 st.loop1 st.norpl ∧ fr t))
    ∧ (lineOp l = 2 → Next (exec (.patLset g 0 0 false) s) fun t =>
      at_ t (st.line + 1) none (if bitOf arg 23 then st.loop0 else arg % 2 ^ 23) (if bitOf arg 23 then arg % 2 ^ 23 else st.loop1)
        st.norpl ∧ fr t)
    ∧ (lineOp l = 3 → Next (exec (.patLend g 0 0 false) s) fun t =>
      let k := if bitOf arg 23 then st.loop1 else st.loop0
      at_ t (if k ≤ 1 then st.line + 1 else arg % 2 ^ 17) none (if bitOf arg 23 then st.loop0 else k - 1)
        (if bitOf arg 23 then k - 1 else st.loop1) st.norpl ∧ fr t)
    ∧ (lineOp l = 4 → Next (exec (.patJump g 0 0 false) s) fun t =>
      at_ t (arg % 2 ^ 17) none st.loop0 st.loop1 st.norpl ∧ fr t)
    ∧ (lineOp l = 5 → Next (exec (.patMatch g 0 0 false) s) nxt)
    ∧ (∀ f : Word, let en := (s.grp g).enabled
      lineOp l = 5 → (st.matched ||| s.matchedNow g en l f.toNat) &&& en ≠ en →
      st.rep.getD arg ≠ 0 → Next (exec (.patMatch g f 0 false) s) fun t =>
        at_ t st.line (some (st.rep.getD arg - 1)) st.loop0 st.loop1 st.norpl ∧ fr t)
    ∧ (lineOp l = 6 → (s.grp g).route = none → Next (exec (.patRadv g 0 0 false) s) fun t =>
      at_ t (st.line + 1) none st.loop0 st.loop1 st.norpl
      ∧ t.rd (GS g) R.GS_TRIGDROP = (s.rd (GS g) R.GS_TRIGDROP + 1) % 2 ^ 32
      ∧ Frame s t pins (words [GS g + R.GS_PSTAT_LINE.off, GS g + R.GS_TRIGDROP.off]))
    ∧ (lineOp l = 7 → Next (exec (.patMark g 0 0 false) s) fun t =>
      at_ t (st.line + 1) none st.loop0 st.loop1 st.norpl
      ∧ Frame s t (pins ++ (s.siteEngines g (s.grp g).enabled).map fun e => .eng (s.physEng e))
          (fun a => a == GS g + R.GS_PSTAT_LINE.off || (List.range 32).any fun k => a == CH (32 * g + k) + R.CH_OVFCNT.off))
    ∧ (lineOp l = 8 → Next (exec (.patWait g 0 0 false) s) fun t =>
      let on := if bitOf arg 0 then s.is (GS g) R.GS_RSTAT_RUN else s.is (GS g) R.GS_RSTAT_HOPPING || s.is (GS g) R.GS_RSTAT_HELD
      (on = true → at_ t st.line st.rep st.loop0 st.loop1 st.norpl ∧ fr t) ∧ (on = false → nxt t))
    ∧ (lineOp l = 9 → Next (exec (.patNorpl g 0 0 false) s) fun t =>
      at_ t (st.line + 1) none st.loop0 st.loop1 (some (st.norpl.getD st.vcnt)) ∧ fr t)
    ∧ (lineOp l = 0 → ∀ (f : Word) (i : Fin 4) (j k : Nat), (j, k) ∈ s.compares g i l → bitOf st.sites i = true →
      bitOf f.toNat k = true → Next (exec (.patNext g f 0 false) s) fun t =>
        t.rd (CH (32 * g + k)) R.CH_FAILCNT = (s.rd (CH (32 * g + k)) R.CH_FAILCNT + 1) % 2 ^ 32
        ∧ (t.grp g).cmp.length ≤ (s.grp g).cmp.length + 4)

/-- The capture FIFO holds the sequencer at 512 and feeds the lead in order; the pattern mailbox stores legal lines and
posts its outcome (R190, R195, R236, R276, R285). -/
def Obligations.CompareFifoAndPatternMailbox : Prop :=
  (∀ (s : State) (g : Fin 16),
    let full := s.stepOn g && decide (512 ≤ (s.grp g).cmp.length) && !s.is (GS g) R.GS_PSTAT_FHOLD
    (full = false → Next (exec (.compareFifoHold g) s) fun t => Frame s t [] noWords)
    ∧ (full = true → Next (exec (.compareFifoHold g) s) fun t =>
      t.rd (GS g) R.GS_PSTAT_FHOLD = 1 ∧ t.rd (GS g) R.GS_HOLDCNT = (s.rd (GS g) R.GS_HOLDCNT + 1) % 2 ^ 32
      ∧ Frame s t [] (words [GS g + R.GS_PSTAT_FHOLD.off, GS g + R.GS_HOLDCNT.off]))
    ∧ Next (exec (.compareFifoRelease g) s) (fun t =>
      t.rd (GS g) R.GS_PSTAT_FHOLD = (if (s.grp g).cmp.length < 512 then 0 else s.rd (GS g) R.GS_PSTAT_FHOLD)
      ∧ Frame s t [] (words [GS g + R.GS_PSTAT_FHOLD.off]))
    ∧ ((s.grp g).cmp = [] → Next (exec (.failCaptureDelivery g) s) fun t => Frame s t [] noWords)
    ∧ ∀ r rest, (s.grp g).cmp = r :: rest →
      let p := s.physEng (32 * g + (s.grp g).siteLead r.site)
      let y := s.eng p
      (y.live = false ∨ 512 < y.inboxWords + 5 → Next (exec (.failCaptureDelivery g) s) fun t => Frame s t [] noWords)
      ∧ (y.live = true → y.inboxWords + 5 ≤ 512 → Next (exec (.failCaptureDelivery g) s) fun t =>
        t.grp g = { s.grp g with cmp := rest }
        ∧ t.eng p = { y with inbox := y.inbox ++ [moduleRecord 0x80 [BitVec.ofNat 32 (4 * g + r.site + r.index * 65536),
            BitVec.ofNat 32 r.vector, BitVec.ofNat 32 (r.vector / 2 ^ 32 % 65536), BitVec.ofNat 32 r.fails]] }
        ∧ Frame s t [.grp g, .eng p] noWords))
  ∧ (∀ (s : State) (p : Fin 528), Next (exec (.comparatorWordsEnter p) s) fun t =>
    let n := (16 - (s.eng p).cfifo.length) / 2 * 2
    t.eng p = { s.eng p with cfifo := (s.eng p).cfifo ++ (s.eng p).cwait.take n, cwait := (s.eng p).cwait.drop n }
    ∧ Frame s t [.eng p] noWords)
  ∧ (∀ (s : State) (src : Src) (g : Fin 16) (inc : Bool), s.Takes src (GS g) R.GS_PMB_CTRL_GO →
    let n := s.rd (GS g) R.GS_PMB_ADDR
    let l : List Word := (List.range 4).map fun j => s.word (GS g + R.GS_PMB_D0.off + 4 * j)
    let res := s.lineResult g l
    let held (op r : Nat) (q : List Word) (t : State) : Prop := t.rd (GS g) R.GS_PMB_CTRL_GO = 1
      ∧ t.rd (GS g) R.GS_PMB_CTRL_VALID = 0 ∧ t.box (GS g + R.GS_PMB_CTRL_GO.off) = { busy := true, result := r, q := q, op := op, aux := b2n inc }
    Next (exec (.pmbRead src g inc) s) (fun t =>
      held 0 (if (s.grp g).on then 0 else 2) (if (s.grp g).on then (s.grp g).line n else []) t
      ∧ Frame s t [.reco, .box (GS g + R.GS_PMB_CTRL_GO.off)] (words (reqWords (GS g) R.GS_PMB_CTRL_GO)))
    ∧ (res = 0 → Next (exec (.pmbWrite src g inc) s) fun t =>
      held 1 0 l t ∧ (t.grp g).line n = l ∧ (∀ m, m ≠ n → (t.grp g).line m = (s.grp g).line m)
      ∧ { t.grp g with pat := (s.grp g).pat } = s.grp g ∧ t.rd (GS g) R.GS_PSTAT_CLEARED = 0
      ∧ Frame s t [.reco, .box (GS g + R.GS_PMB_CTRL_GO.off), .grp g] (words ((GS g + R.GS_PSTAT_CLEARED.off) :: reqWords (GS g) R.GS_PMB_CTRL_GO)))
    ∧ (res ≠ 0 → Next (exec (.pmbWrite src g inc) s) fun t =>
      held 1 res (if (s.grp g).on then (s.grp g).line n else []) t
      ∧ Frame s t [.reco, .box (GS g + R.GS_PMB_CTRL_GO.off)] (words (reqWords (GS g) R.GS_PMB_CTRL_GO))))
  ∧ ∀ (s : State) (g : Fin 16) (x : Box), s.box (GS g + R.GS_PMB_CTRL_GO.off) = x →
    (x.busy = false → Next (exec (.pmbComplete g none) s) fun t => Frame s t [] noWords)
    ∧ (x.busy = true → x.q.length ≤ 4 →
      let adv := decide (x.aux = 1) && decide (x.result = 0)
      let post (t : State) : Prop := t.rd (GS g) R.GS_PMB_CTRL_RESULT = x.result % 2 ^ R.GS_PMB_CTRL_RESULT.width
        ∧ t.rd (GS g) R.GS_PMB_CTRL_GO = 0 ∧ t.rd (GS g) R.GS_PMB_CTRL_VALID = 1 ∧ t.box (GS g + R.GS_PMB_CTRL_GO.off) = {}
        ∧ ∀ k < x.q.length, t.word (GS g + R.GS_PMB_Q0.off + 4 * k) = x.q.getD k 0
      let regs := [GS g + R.GS_PMB_CTRL_GO.off, GS g + R.GS_PMB_ADDR.off] ++ (List.range 4).map fun k => GS g + R.GS_PMB_Q0.off + 4 * k
      Next (exec (.pmbComplete g none) s) (fun t =>
        post t ∧ t.rd (GS g) R.GS_PMB_ADDR = (s.rd (GS g) R.GS_PMB_ADDR + b2n adv) % 2 ^ R.GS_PMB_ADDR.width
        ∧ Frame s t [.box (GS g + R.GS_PMB_CTRL_GO.off)] (words regs))
      ∧ ∀ src w, Next (exec (.pmbComplete g (some (src, w))) s) fun t =>
        post t ∧ t.rd (GS g) R.GS_PMB_ADDR = w.toNat % 2 ^ R.GS_PMB_ADDR.width
        ∧ t.rd GLB R.GLB_LOSTUPD = (s.rd GLB R.GLB_LOSTUPD + b2n adv) % 2 ^ 32
        ∧ Frame s t [.box (GS g + R.GS_PMB_CTRL_GO.off), .reco] (words (regs ++ [GLB + R.GLB_LOSTUPD.off, PROT + R.PROT_CFGWA.off, PROT + R.PROT_CFGWK.off])))

/-- Each arithmetic, logic, shift, float and register-reading instruction writes its result to gd, with g0 reading 0, and
changes nothing else (R214, R223, R228, R229, R231). -/
def Obligations.EngineRegisterResults : Prop :=
  let table (p : Fin 528) : List (Instr × Nat × Nat × (Word → Engine → Word)) := [
    (.engAdd p, 0x01, 0x3FFF, fun w x => x.gr (fieldA w) + x.gr (fieldB w)),
    (.engSub p, 0x02, 0x3FFF, fun w x => x.gr (fieldA w) - x.gr (fieldB w)),
    (.engAnd p, 0x03, 0x3FFF, fun w x => x.gr (fieldA w) &&& x.gr (fieldB w)),
    (.engOr p, 0x04, 0x3FFF, fun w x => x.gr (fieldA w) ||| x.gr (fieldB w)),
    (.engShl p, 0x05, 0x3FFE0, fun w x => x.gr (fieldA w) <<< getBits w 0 5),
    (.engShr p, 0x06, 0x3FFE0, fun w x => x.gr (fieldA w) >>> getBits w 0 5),
    (.engSra p, 0x07, 0x3FFE0, fun w x => (x.gr (fieldA w)).sshiftRight (getBits w 0 5)),
    (.engMul p, 0x08, 0x3FFF, fun w x => x.gr (fieldA w) * x.gr (fieldB w)),
    (.engAddi p, 0x09, 0, fun w x => x.gr (fieldA w) + BitVec.ofInt 32 (toSigned 18 (getBits w 0 18))),
    (.engOri p, 0x0A, 0, fun w x => x.gr (fieldA w) ||| BitVec.ofNat 32 (getBits w 0 18)),
    (.engLui p, 0x0B, 0x3C0000, fun w _ => BitVec.ofNat 32 (getBits w 0 18 * 2 ^ 14)),
    (.engHrd p, 0x21, 0x3FFFF, fun w x => BitVec.ofNat 32 (Tab.get 0 x.hist ((x.gr (fieldA w)).toNat % 256))),
    (.engFadd p, 0x28, 0x3FFF, fun w x => fAdd (x.gr (fieldA w)) (x.gr (fieldB w))),
    (.engFsub p, 0x29, 0x3FFF, fun w x => fSub (x.gr (fieldA w)) (x.gr (fieldB w))),
    (.engFmul p, 0x2A, 0x3FFF, fun w x => fMul (x.gr (fieldA w)) (x.gr (fieldB w))),
    (.engFmac p, 0x2B, 0x1FFF, fun w x => fMac (getBits w 13 1 == 1) (x.gr (fieldD w)) (x.gr (fieldA w)) (x.gr (fieldB w))),
    (.engFdiv p, 0x2C, 0x3FFF, fun w x => fDiv (x.gr (fieldA w)) (x.gr (fieldB w))),
    (.engFsqrt p, 0x2D, 0x3FFFF, fun w x => fSqrt (x.gr (fieldA w))),
    (.engFatn p, 0x2E, 0x3FFF, fun w x => fAtan (x.gr (fieldA w)) (x.gr (fieldB w))),
    (.engFcvt p, 0x2F, 0x3FFFF, fun w x => fOfInt (x.gr (fieldA w)).toInt),
    (.engFint p, 0x30, 0x3FFFF, fun w x => fToInt (x.gr (fieldA w)))]
  (∀ (s : State) (p : Fin 528) (x : Engine), s.eng p = x → ∀ r ∈ table p, x.Issues r.2.1 r.2.2.1 → x.fall.pc < 1024 →
    let d := fieldD x.insn
    let v := r.2.2.2 x.insn x
    Next (exec r.1 s) fun t =>
      (d ≠ 0 → (t.eng p).gr d = v) ∧ (t.eng p).gr 0 = 0 ∧ (∀ j, j ≠ d → (t.eng p).gr j = x.gr j)
      ∧ (t.eng p).pc = x.fall.pc ∧ { t.eng p with g := x.g } = x.after ∧ Frame s t [.eng p] noWords)
  ∧ (∀ (s : State) (p : Fin 528) (x : Engine), s.eng p = x → x.Issues 0x1B 0x3FFFF → x.fall.pc < 1024 →
    (fieldA x.insn ≤ 3 → Next (exec (.engAfl p) s) fun t =>
      t.eng p = (x.setG (fieldD x.insn) (fOfInt (x.ac (fieldA x.insn)))).after ∧ Frame s t [.eng p] noWords)
    ∧ (3 < fieldA x.insn → Next (exec (.engAfl p) s) fun t => s.Traps t p 1))
  ∧ ∀ (s : State) (p : Fin 528) (cycle : Word) (x : Engine), s.eng p = x → x.Issues 0x16 0x3FFFC0 → x.fall.pc < 1024 →
    let n := getBits x.insn 0 6
    (n ≤ 20 → Next (exec (.engMfs p cycle) s) fun t =>
      t.eng p = (x.setG (fieldD x.insn) (s.special p n cycle)).after
      ∧ Frame s t (.eng p :: if n = 18 ∨ n = 10 then [.free] else []) noWords)
    ∧ (20 < n → Next (exec (.engMfs p cycle) s) fun t => s.Traps t p 1)

/-- Compares and LIM write a predicate, branches go to their target, CALL and RET use a stack of four, loops turn at their
end; HALT stops (R228, R229, R232, R234). -/
def Obligations.EngineComparesBranchesAndLoops : Prop :=
  (∀ (s : State) (p : Fin 528) (x : Engine), s.eng p = x → x.fall.pc < 1024 →
    (x.Issues 0x00 0x3FFFFFF → Next (exec (.engNop p) s) fun t => t.eng p = x.after ∧ Frame s t [.eng p] noWords)
    ∧ (∀ r ∈ ([(.engCmp p, 0x0C, 0x1FFF, 5, fun c a w x => intCond c a (x.gr (getBits w 13 4))),
        (.engCmpi p, 0x0D, 0, 5, fun c a w _ => intCond c a (BitVec.ofInt 32 (toSigned 17 (getBits w 0 17)))),
        (.engFcmp p, 0x31, 0x1FFF, 3, fun c a w x => fCmp c a (x.gr (getBits w 13 4)))]
          : List (Instr × Nat × Nat × Nat × (Nat → Word → Word → Engine → Bool))), x.Issues r.2.1 r.2.2.1 →
      let c := getBits x.insn 21 3
      let q := getBits x.insn 24 2
      (r.2.2.2.1 < c ∨ q = 3 → Next (exec r.1 s) fun t => s.Traps t p 1)
      ∧ (c ≤ r.2.2.2.1 → q < 3 → Next (exec r.1 s) fun t =>
        t.eng p = (x.setP q (r.2.2.2.2 c (x.gr (getBits x.insn 17 4)) x.insn x)).after ∧ Frame s t [.eng p] noWords))
    ∧ (x.Issues 0x23 0xE1FFFF → let q := getBits x.insn 24 2
      let v := (x.gr (getBits x.insn 17 4)).toInt
      let ok := decide (toSigned 32 x.limLo ≤ v) && decide (v ≤ toSigned 32 x.limHi)
      (q = 3 → Next (exec (.engLim p) s) fun t => s.Traps t p 1)
      ∧ (q < 3 → Next (exec (.engLim p) s) fun t =>
        t.eng p = ({ x with limCnt := if ok then x.limCnt else min 0xFFFFFFFF (x.limCnt + 1) }.setP q ok).after
        ∧ Frame s t [.eng p] noWords))
    ∧ (x.Issues 0x10 0x3FFC00 → let a := getBits x.insn 22 1
      let go := a = 1 ∨ x.pred (getBits x.insn 24 2) = (getBits x.insn 23 1 == 1)
      (a = 1 → getBits x.insn 23 3 ≠ 0 → Next (exec (.engBr p) s) fun t => s.Traps t p 1)
      ∧ (a = 0 ∨ getBits x.insn 23 3 = 0 → Next (exec (.engBr p) s) fun t =>
        (go → (t.eng p).pc = getBits x.insn 0 10
          ∧ t.eng p = { x.at_ (getBits x.insn 0 10) with
              loop0 := loopKept x.loop0 x.pc (getBits x.insn 0 10), loop1 := loopKept x.loop1 x.pc (getBits x.insn 0 10) })
        ∧ (¬ go → t.eng p = x.after) ∧ Frame s t [.eng p] noWords)))
  ∧ (∀ (s : State) (p : Fin 528) (x : Engine), s.eng p = x →
    (x.Issues 0x11 0x3FFFC00 → Next (exec (.engCall p) s) fun t =>
      (4 ≤ x.ret.length → s.Traps t p 4)
      ∧ (x.ret.length < 4 → t.eng p = { x.at_ (getBits x.insn 0 10) with ret := (x.pc + 1) :: x.ret } ∧ Frame s t [.eng p] noWords))
    ∧ (x.Issues 0x12 0x3FFFFFF → (x.ret = [] → Next (exec (.engRet p) s) fun t => s.Traps t p 4)
      ∧ ∀ a r, x.ret = a :: r → a < 1024 → Next (exec (.engRet p) s) fun t =>
        t.eng p = { x.at_ a with ret := r } ∧ Frame s t [.eng p] noWords)
    ∧ (∀ r ∈ [(Instr.engLoop p, 0x13, 0x1C3FC00, (x.gr (fieldA x.insn)).toNat), (.engLoopi p, 0x14, 0, getBits x.insn 10 15)],
      x.Issues r.2.1 r.2.2.1 →
      let c := getBits x.insn 25 1
      let e := getBits x.insn 0 10
      let used := if c = 0 then x.loop0.isSome else x.loop1.isSome
      let y := if c = 0 then { x with loop0 := some (x.pc + 1, e, r.2.2.2) } else { x with loop1 := some (x.pc + 1, e, r.2.2.2) }
      (used = true ∨ e ≤ x.pc → Next (exec r.1 s) fun t => s.Traps t p 5)
      ∧ (used = false → x.pc < e → r.2.2.2 = 0 → e < 1023 → Next (exec r.1 s) fun t =>
        t.eng p = x.at_ (e + 1) ∧ Frame s t [.eng p] noWords)
      ∧ (used = false → x.pc < e → r.2.2.2 ≠ 0 → y.fall.pc < 1024 → Next (exec r.1 s) fun t =>
        t.eng p = y.after ∧ Frame s t [.eng p] noWords))
    ∧ (x.Issues 0x15 0x3FFFFFF → Next (exec (.engHalt p) s) fun t =>
      t.eng p = { x with st := E_HALTED, waitOn := 0, stepOne := false }
      ∧ Frame s t (.eng p :: if x.handle = none then [] else [.cmds]) noWords))
  ∧ ∀ (x : Engine) (a e n : Nat), x.loop1 = none →
    (x.loop0 = none → x.fall = { x with pc := x.pc + 1 })
    ∧ (x.loop0 = some (a, x.pc, n) → x.fall = if 1 < n then { x with loop0 := some (a, x.pc, n - 1), pc := a }
        else { x with loop0 := none, pc := x.pc + 1 })
    ∧ (x.loop0 = some (a, e, n) → e ≠ x.pc → x.fall = { x with pc := x.pc + 1 })

/-- LD and ST move a data word or trap ADDR; MAC, STA and CLR work on accumulators of 56 bits; MTS, HST and MMX set their
special registers (R217, R220, R223, R228, R230, R234). -/
def Obligations.EngineMemoryAndAccumulators : Prop :=
  ∀ (s : State) (p : Fin 528) (x : Engine), s.eng p = x → x.fall.pc < 1024 →
    let w := x.insn
    let a := x.gr (fieldA w) + BitVec.ofInt 32 (toSigned 18 (getBits w 0 18))
    let okA := a.toNat % 4 = 0 ∧ a.toNat ≤ 0x1FFC
    (x.Issues 0x0E 0 →
      (okA → ∀ ms, Next (exec (.engLd p false ms) s) fun t =>
        t.eng p = (x.setG (fieldD w) (Tab.get 0 x.data (a.toNat / 4))).after ∧ Frame s t [.eng p] noWords)
      ∧ (¬ okA → ∀ ms, Next (exec (.engLd p false ms) s) fun t => s.Traps t p 2)
      ∧ ∀ ms, Next (exec (.engLd p true ms) s) fun t =>
        t.rd FLT R.FLT_PARERR = (s.rd FLT R.FLT_PARERR + 1) % 2 ^ 32 ∧ t.rd (ENG p) R.ENG_EXCINFO_CODE = 8
        ∧ t.rd (ENG p) R.ENG_EXCCNT = (s.rd (ENG p) R.ENG_EXCCNT + 1) % 2 ^ 32)
    ∧ (x.Issues 0x0F 0 →
      (okA → Next (exec (.engSt p) s) fun t =>
        (t.eng p).dm (a.toNat / 4) = x.gr (fieldD w) ∧ (∀ i, i ≠ a.toNat / 4 → (t.eng p).dm i = x.dm i)
        ∧ { t.eng p with data := x.data } = x.after ∧ Frame s t [.eng p] noWords)
      ∧ (¬ okA → Next (exec (.engSt p) s) fun t => s.Traps t p 2))
    ∧ (x.Issues 0x19 0x3FFF → let k := fieldD w
      let v := x.ac k + (x.gr (fieldA w)).toInt * (x.gr (fieldB w)).toInt
      (3 < k → Next (exec (.engMac p) s) fun t => s.Traps t p 1)
      ∧ (k ≤ 3 → Next (exec (.engMac p) s) fun t =>
        (-(2 ^ 55) ≤ v ∧ v ≤ 2 ^ 55 - 1 → t.eng p = (x.setA k v).after)
        ∧ (2 ^ 55 ≤ v → t.eng p = ({ x.setA k (2 ^ 55 - 1) with rflg := x.rflg ||| (RF_AOV + RF_SUSPECT) }).after)
        ∧ (v < -(2 ^ 55) → t.eng p = ({ x.setA k (-(2 ^ 55)) with rflg := x.rflg ||| (RF_AOV + RF_SUSPECT) }).after)
        ∧ Frame s t [.eng p] noWords))
    ∧ (x.Issues 0x1A 0 → let k := fieldD w
      (3 < k → Next (exec (.engSta p) s) fun t => s.Traps t p 1)
      ∧ (k ≤ 3 → ¬ (a.toNat % 4 = 0 ∧ a.toNat ≤ 0x1FF8) → Next (exec (.engSta p) s) fun t => s.Traps t p 2)
      ∧ (k ≤ 3 → a.toNat % 4 = 0 → a.toNat ≤ 0x1FF8 → Next (exec (.engSta p) s) fun t =>
        ((t.eng p).dm (a.toNat / 4)).toNat + ((t.eng p).dm (a.toNat / 4 + 1)).toNat * 2 ^ 32 = ofSigned 64 (x.ac k)
        ∧ (∀ i, i ≠ a.toNat / 4 → i ≠ a.toNat / 4 + 1 → (t.eng p).dm i = x.dm i)
        ∧ { t.eng p with data := x.data } = x.after ∧ Frame s t [.eng p] noWords))
    ∧ (x.Issues 0x18 0x3F0001 → Next (exec (.engClr p) s) fun t =>
      (∀ i < 16, (t.eng p).gr i = if bitOf w.toNat i then 0 else x.gr i)
      ∧ (∀ k < 4, (t.eng p).ac k = if bitOf w.toNat (22 + k) then 0 else x.ac k)
      ∧ { t.eng p with g := x.g, acc := x.acc } = x.after ∧ Frame s t [.eng p] noWords)
    ∧ (x.Issues 0x17 0x3C3FFC0 → let n := getBits w 0 6
      let v := (x.gr (fieldA w)).toNat
      (20 < n → Next (exec (.engMts p) s) fun t => s.Traps t p 1)
      ∧ (n ≤ 20 → Next (exec (.engMts p) s) fun t =>
        Frame s t [.eng p] noWords
        ∧ (n = 5 → t.eng p = ({ x with rflg := 0, nsmp := 0 }).after) ∧ (n = 7 → t.eng p = ({ x with harm := v % 65536 }).after)
        ∧ (n = 11 → t.eng p = ({ x with armed := true }).after) ∧ (n = 13 → t.eng p = ({ x with limLo := v }).after)
        ∧ (n = 14 → t.eng p = ({ x with limHi := v }).after) ∧ (n = 15 → t.eng p = ({ x with limCnt := 0 }).after)
        ∧ (n = 16 → t.eng p = ({ x with hbase := v }).after) ∧ (n = 17 → t.eng p = ({ x with hshift := v % 32 }).after)
        ∧ (n = 18 → t.eng p = ({ x with hist := [] }).after)
        ∧ (n ∉ [5, 7, 11, 13, 14, 15, 16, 17, 18] → t.eng p = x.after)))
    ∧ (x.Issues 0x20 0x3C3FFFF → Next (exec (.engHst p) s) fun t =>
      let d := (BitVec.ofInt 32 ((x.gr (fieldA w)).toInt - toSigned 32 x.hbase)).toInt / 2 ^ x.hshift
      let i := if d < 0 then 0 else if 255 < d then 255 else d.toNat
      Tab.get 0 (t.eng p).hist i = min 0xFFFFFFFF (Tab.get 0 x.hist i + 1)
      ∧ (∀ j, j ≠ i → Tab.get 0 (t.eng p).hist j = Tab.get 0 x.hist j)
      ∧ { t.eng p with hist := x.hist } = x.after ∧ Frame s t [.eng p] noWords)
    ∧ (x.Issues 0x22 0x3C3FFFF → Next (exec (.engMmx p) s) fun t =>
      let v := (x.gr (fieldA w)).toInt
      t.eng p = ({ x with minV := if x.armed then v else min x.minV v, maxV := if x.armed then v else max x.maxV v,
                          armed := false }).after
      ∧ Frame s t [.eng p] noWords)

/-- POP, LKI, SKIP and WMK consume the sample FIFO, RECV and CFP their own FIFOs, each waiting when there is nothing; RADV
is an engine trigger (R218, R219, R220, R222, R225, R228). -/
def Obligations.EngineStreams : Prop :=
  ∀ (s : State) (p : Fin 528) (x : Engine), s.eng p = x → x.fall.pc < 1024 →
    let w := x.insn
    let fr (t : State) : Prop := Frame s t [.eng p] noWords
    let waits (on : Nat) (y : Engine) (t : State) : Prop := t.eng p = { y with st := E_WAIT, waitOn := on } ∧ fr t
    let lki := fieldD w ≤ 1 ∧ s.variant.coh = true
    (∀ i, (i = Instr.engPop p ∧ x.Issues 0x1C 0x3FFFFF) ∨ (i = Instr.engLki p ∧ x.Issues 0x1D 0x3FFFFF ∧ lki) →
      (x.fifo = [] → Next (exec i s) (waits 1 x))
      ∧ ∀ e l, x.fifo = e :: l → (e.mark = true → Next (exec i s) fun t => t.eng p = x.after ∧ fr t)
        ∧ (e.mark = false → Next (exec i s) fun t => (t.eng p).fifo = l ∧ (t.eng p).nsmp = x.nsmp + 1 ∧ fr t))
    ∧ (x.Issues 0x1C 0x3FFFFF → ∀ e l, x.fifo = e :: l → e.mark = false → Next (exec (.engPop p) s) fun t =>
      t.eng p = ({ (x.consume e s.debugD2).setG (fieldD w) (BitVec.ofInt 32 e.s) with pw := e.phase }).after ∧ fr t)
    ∧ (x.Issues 0x1D 0x3FFFFF → ¬ lki → Next (exec (.engLki p) s) fun t => s.Traps t p 1)
    ∧ (x.Issues 0x1D 0x3FFFFF → lki → ∀ e l, x.fifo = e :: l → e.mark = false → Next (exec (.engLki p) s) fun t =>
      let n := fieldD w
      let th := (if x.harm = 0 then 1 else x.harm) * e.phase % 2 ^ 32
      let y := x.consume e s.debugD2
      t.eng p = ((y.accTo (2 * n) (x.ac (2 * n) + e.s * lkiCos th)).accTo (2 * n + 1)
        (x.ac (2 * n + 1) - e.s * lkiSin th)).after ∧ fr t)
    ∧ (x.Issues 0x1E 0x3C3FFFF → let n := x.skipLeft.getD (x.gr (fieldA w)).toNat
      (n ≤ beforeMark x.fifo ∨ beforeMark x.fifo < x.fifo.length → Next (exec (.engSkip p) s) fun t =>
        t.eng p = ({ x with fifo := x.fifo.drop (min n (beforeMark x.fifo)) }).after ∧ fr t)
      ∧ (beforeMark x.fifo = x.fifo.length → x.fifo.length < n → Next (exec (.engSkip p) s)
          (waits 1 { x with fifo := [], skipLeft := some (n - x.fifo.length) })))
    ∧ (x.Issues 0x1F 0x3FFFFF → let k := beforeMark x.fifo
      let cnt (t : State) : Prop := t.rd (ENG p) R.ENG_DISCCNT = (s.rd (ENG p) R.ENG_DISCCNT + k) % 2 ^ 32
        ∧ Frame s t [.eng p] (words [ENG p + R.ENG_DISCCNT.off])
      (k = x.fifo.length → Next (exec (.engWmk p) s) fun t => t.eng p = { x with fifo := [], st := E_WAIT, waitOn := 1 } ∧ cnt t)
      ∧ ∀ e, x.fifo[k]? = some e → Next (exec (.engWmk p) s) fun t =>
        t.eng p = (({ x with fifo := x.fifo.drop (k + 1) }.takeMark e).setG (fieldD w) (BitVec.ofNat 32 e.code)).after ∧ cnt t)
    ∧ (x.Issues 0x24 0x3FFFF → (x.inbox = [] → Next (exec (.engRecv p) s) (waits 2 x))
      ∧ ∀ r l, x.inbox = r :: l → Next (exec (.engRecv p) s) fun t =>
        (dataBlock (x.gr (fieldA w)) r.length = none → s.Traps t p 2)
        ∧ ∀ i, dataBlock (x.gr (fieldA w)) r.length = some i →
          t.eng p = (({ x with inbox := l }.putDm i r).setG (fieldD w) (r.getD 0 0 &&& 0xFF)).after ∧ fr t
          ∧ ∀ j < r.length, (t.eng p).dm (i + j) = r.getD j 0)
    ∧ (x.Issues 0x27 0x3FFFFF → (x.cfifo = [] → Next (exec (.engCfp p) s) (waits 3 x))
      ∧ ∀ v l, x.cfifo = v :: l → Next (exec (.engCfp p) s) fun t =>
        t.eng p = ({ x with cfifo := l }.setG (fieldD w) v).after ∧ fr t)
    ∧ (x.Issues 0x26 0x3FFFFFF → let g := s.logEng p / 32
      (s.grp g).route = none → Next (exec (.engRadv p) s) fun t =>
        t.eng p = x.after ∧ t.rd (GS g) R.GS_TRIGDROP = (s.rd (GS g) R.GS_TRIGDROP + 1) % 2 ^ 32
        ∧ Frame s t [.eng p] (words [GS g + R.GS_TRIGDROP.off]))

/-- A program start clears the registers, accumulators, predicates and RFLG, idles the loops, empties the stack and sets
PC; data memory stays but for arguments (R215). -/
def Obligations.ProgramStartSetsTheEngine : Prop :=
  ∀ (s : State) (p : Fin 528) (x : Engine) (q : StartReq), s.eng p = x → x.req = some q → x.crcBusy = false → s.imageOk p = true →
    (q.handle.isSome = true → q.args.length = 8) →
    (q.handle = none → (s.mode = MODE_CONFIGURE ∨ s.mode = MODE_ARMED) ∧ x.live = false ∧ s.cmdOn (s.logEng p / 32) = false) →
    Next (exec (.engineStartAccepted p) s) fun t =>
      let y := t.eng p
      (∀ i, y.gr i = 0) ∧ (∀ k, y.ac k = 0) ∧ y.p0 = false ∧ y.p1 = false ∧ y.p2 = false ∧ y.rflg = 0
      ∧ y.loop0 = none ∧ y.loop1 = none ∧ y.ret = [] ∧ y.pc = q.entry ∧ y.st = E_RUN
      ∧ (∀ i, y.dm i = if q.handle.isSome = true ∧ i < 8 then q.args.getD i 0 else x.dm i)
      ∧ y.handle = q.handle ∧ y.req = none
      ∧ { y with g := x.g, acc := x.acc, p0 := x.p0, p1 := x.p1, p2 := x.p2, rflg := x.rflg, nsmp := x.nsmp, loop0 := x.loop0,
                 loop1 := x.loop1, ret := x.ret, pc := x.pc, st := x.st, waitOn := x.waitOn, req := x.req, handle := x.handle,
                 skipLeft := x.skipLeft, data := x.data, badCopy := x.badCopy, lostSeen := x.lostSeen } = x
      ∧ Frame s t (.eng p :: if q.handle.isSome = true ∧ x.badCopy = true then [.cmds] else [])
          (words [ENG p + R.ENG_ECTL_START.off])

/-- POP, LKI and SKIP consume samples only and do nothing at a mark; WMK discards to the first mark and consumes it,
counting what it discards, not into RFLG (R219). -/
def Obligations.StreamInstructionsStopAtMarks : Prop :=
  ∀ (s : State) (p : Fin 528) (x : Engine), s.eng p = x → x.fall.pc < 1024 →
    (∀ r ∈ [(Instr.engPop p, 0x1C, 0x3FFFFF), (.engLki p, 0x1D, 0x3FFFFF), (.engSkip p, 0x1E, 0x3C3FFFF)],
      x.Issues r.2.1 r.2.2 →
      Next (exec r.1 s) fun t =>
        (∃ k ≤ x.fifo.length, (t.eng p).fifo = x.fifo.drop k ∧ (x.fifo.take k).all (fun e => !e.mark) = true)
        ∧ (x.pred 3 = true → (r.2.1 = 0x1D → fieldD x.insn ≤ 1 ∧ s.variant.coh = true) →
            t.eng p = x.after ∧ Frame s t [.eng p] noWords))
    ∧ (x.Issues 0x1F 0x3FFFFF → Next (exec (.engWmk p) s) fun t =>
        (t.eng p).fifo = x.fifo.drop (beforeMark x.fifo + 1)
        ∧ (∀ e, x.fifo[beforeMark x.fifo]? = some e → (t.eng p).mark = e.code)
        ∧ t.rd (ENG p) R.ENG_DISCCNT = (s.rd (ENG p) R.ENG_DISCCNT + beforeMark x.fifo) % 2 ^ 32
        ∧ (t.eng p).rflg = x.rflg ∧ Frame s t [.eng p] (words [ENG p + R.ENG_DISCCNT.off]))

/-- ECTL and memory writes, the image CRC, refused starts; EMIT, delivery and writing of records; resumed and starved
waits; illegal opcodes (R216, R217, R224, R225, R226, R227, R233, R234, R237, R238, R239). -/
def Obligations.EngineRequestsRecordsAndWaits : Prop :=
  (∀ (s : State) (src : Src) (e : Fin 528) (entry : BitVec 10), s.Takes src (ENG (s.physEng e)) R.ENG_ECTL_START →
    let p := s.physEng e
    let no := firstOf [(!(s.mode == MODE_CONFIGURE || s.mode == MODE_ARMED), 3), ((s.eng p).live || s.cmdOn (s.logEng p / 32), 1)]
    Next (exec (.ectlStart src e entry) s) fun t =>
      (no ≠ 0 → (s.eng p).crcBusy = false → t.rd (ENG p) R.ENG_ECTL_RESULT = no ∧ t.is (ENG p) R.ENG_ECTL_START = false
          ∧ t.eng p = { s.eng p with req := none })
      ∧ Frame s t [.reco, .eng p] (words (reqWords (ENG p) R.ENG_ECTL_START))
      ∧ ((s.eng p).crcBusy = true → t.is (ENG p) R.ENG_ECTL_START = true
          ∧ t.eng p = { s.eng p with req := some { entry := entry.toNat } })
      ∧ (no = 0 → (s.eng p).crcBusy = false → s.imageOk p = true →
          t.is (ENG p) R.ENG_ECTL_START = false ∧ t.rd (ENG p) R.ENG_ECTL_RESULT = 0 ∧ t.eng p = (s.eng p).begin { entry := entry.toNat })
      ∧ (no = 0 → (s.eng p).crcBusy = false → s.imageOk p = false → t.is (ENG p) R.ENG_ECTL_START = false
          ∧ t.rd (ENG p) R.ENG_ECTL_RESULT = 2 ∧ t.eng p = { s.eng p with req := none, st := E_IDLE }))
  ∧ (∀ (s : State) (p : Fin 528) (x : Engine) (q : StartReq), s.eng p = x → x.req = some q →
    let no := firstOf [(!(s.mode == MODE_CONFIGURE || s.mode == MODE_ARMED), 3), (x.live || s.cmdOn (s.logEng p / 32), 1)]
    (x.crcBusy = true → Next (exec (.engineStartAccepted p) s) fun t => Frame s t [] noWords)
    ∧ (x.crcBusy = false → q.handle = none → no ≠ 0 → Next (exec (.engineStartAccepted p) s) fun t =>
      t.rd (ENG p) R.ENG_ECTL_RESULT = no ∧ t.is (ENG p) R.ENG_ECTL_START = false ∧ t.eng p = { x with req := none }
      ∧ Frame s t [.eng p] (words [ENG p + R.ENG_ECTL_START.off])))
  ∧ (∀ (s : State) (src : Src) (e : Fin 528) (entry : BitVec 10),
      s.access src = true → s.blockOn (ENG (s.physEng e) + R.ENG_ECTL_STOP.off) = true →
    (s.is (ENG (s.physEng e)) R.ENG_ECTL_START = true → s.rd (ENG (s.physEng e)) R.ENG_ECTL_ENTRY ≠ entry.toNat →
      Next (exec (.ectlStop src e entry) s) fun t =>
        t.rd GLB R.GLB_REFUSED = (s.rd GLB R.GLB_REFUSED + 1) % 2 ^ 32 ∧ t.rd GLB R.GLB_LASTREF_CAUSE = RC_GOPEND
        ∧ Frame s t [.reco] (words [GLB + R.GLB_REFUSED.off, GLB + R.GLB_LASTREF_OFFSET.off]))
    ∧ (s.is (ENG (s.physEng e)) R.ENG_ECTL_START = false ∨ s.rd (ENG (s.physEng e)) R.ENG_ECTL_ENTRY = entry.toNat →
     Next (exec (.ectlStop src e entry) s) fun t => let p := s.physEng e
      t.rd (ENG p) R.ENG_ECTL_ENTRY = entry.toNat
      ∧ ((s.eng p).live = false → Frame s t [.reco] (words (reqWords (ENG p) R.ENG_ECTL_STOP)))
      ∧ ((s.eng p).live = true → t.eng p = (s.eng p).trapped ∧ t.rd (ENG p) R.ENG_EXCINFO_CODE = 9
          ∧ t.rd (ENG p) R.ENG_EXCCNT = (s.rd (ENG p) R.ENG_EXCCNT + 1) % 2 ^ 32)))
  ∧ (∀ (s : State) (src : Src) (e : Fin 528) (i : Fin 3072) (v : Word),
      let p := s.physEng e
      let a := ENG p + if i.val < 1024 then 0x1000 + 4 * i.val else 0x2000 + 4 * (i.val - 1024)
      let x := s.eng p
      let old := if i.val < 1024 then Tab.get 0 x.prog i else x.dm (i - 1024)
      s.access src = true → s.blockOn a = true →
      (x.live = true → v = old → Next (exec (.engineMemoryWrite src e i v) s) fun t => Frame s t [] noWords)
      ∧ (x.live = false → Next (exec (.engineMemoryWrite src e i v) s) fun t =>
        (i.val < 1024 → Tab.get 0 (t.eng p).prog i = v ∧ (t.eng p).crcBusy = true ∧ (∀ j, j ≠ i.val → Tab.get 0 (t.eng p).prog j = Tab.get 0 x.prog j)
          ∧ { t.eng p with prog := x.prog, crcBusy := x.crcBusy } = x)
        ∧ (1024 ≤ i.val → (t.eng p).dm (i - 1024) = v ∧ (∀ j, j ≠ i.val - 1024 → (t.eng p).dm j = x.dm j) ∧ { t.eng p with data := x.data } = x)
        ∧ Frame s t [.eng p, .reco] (words [PROT + R.PROT_CFGWA.off, PROT + R.PROT_CFGWK.off]))
      ∧ (x.live = true → v ≠ old → Next (exec (.engineMemoryWrite src e i v) s) fun t =>
        t.rd GLB R.GLB_REFUSED = (s.rd GLB R.GLB_REFUSED + 1) % 2 ^ 32 ∧ t.rd GLB R.GLB_LASTREF_CAUSE = RC_BOLT
        ∧ t.rd GLB R.GLB_LASTREF_OFFSET = ENG e + (a - ENG p)
        ∧ Frame s t [.reco] (words [GLB + R.GLB_REFUSED.off, GLB + R.GLB_LASTREF_OFFSET.off])))
  ∧ (∀ (s : State) (p : Fin 528), (s.eng p).on = true → (s.eng p).crcBusy = true → Next (exec (.imgcrcDone p) s) fun t =>
      t.eng p = { s.eng p with crcBusy := false, imgcrc := crc32 ((List.range 1024).map fun i => Tab.get 0 (s.eng p).prog i) }
      ∧ Frame s t [.eng p] noWords)
  ∧ (∀ (s : State) (p : Fin 528) (x : Engine), s.eng p = x →
      (x.Issues (opcodeOf x.insn) 0 → 0x32 ≤ opcodeOf x.insn → Next (exec (.engIllegalOpcode p) s) fun t => s.Traps t p 1)
      ∧ (∀ (host : Bool), x.Issues 0x25 0x3FFF → x.fall.pc < 1024 →
        let i : Instr := if host then .engEmitHost p else .engEmitLead p
        let e := s.logEng p
        let n := (x.gr (fieldB x.insn)).toNat
        let site := (s.grp (e / 32)).siteOf (e % 32)
        let badLen : Bool := decide (n < 2) || decide ((if host then 512 else 16) < n) || (!host && site.isNone)
        let ws (a : Nat) := emitHeader (x.dm a) n e x.rflg :: (List.range (n - 1)).map fun j => x.dm (a + 1 + j)
        (fieldD x.insn ≠ b2n host → (host = true ∨ fieldD x.insn = 1) → Next (exec i s) fun t => Frame s t [] noWords)
        ∧ (fieldD x.insn = b2n host → badLen = true → Next (exec i s) fun t => s.Traps t p 6)
        ∧ (fieldD x.insn = b2n host → badLen = false → dataBlock (x.gr (fieldA x.insn)) n = none → Next (exec i s) fun t => s.Traps t p 2)
        ∧ ∀ a, fieldD x.insn = b2n host → badLen = false → dataBlock (x.gr (fieldA x.insn)) n = some a →
          (x.emitter.isSome = true → Next (exec i s) fun t => t.eng p = { x with st := E_WAIT, waitOn := 3 } ∧ Frame s t [.eng p] noWords)
          ∧ (x.emitter = none → host = true → (x.handle = none ∨ ∃ h ∈ x.handle, s.bufRoom h n = false) → Next (exec i s) fun t => s.Traps t p 6)
          ∧ (x.emitter = none → host = false → x.handle = none → Next (exec i s) fun t =>
              t.eng p = ({ x with emitter := some { words := ws a } }).after ∧ t.rd (ENG p) R.ENG_EMITCNT = (s.rd (ENG p) R.ENG_EMITCNT + 1) % 2 ^ 32
              ∧ Frame s t [.eng p] (words [ENG p + R.ENG_EMITCNT.off]))
          ∧ ∀ h c, x.emitter = none → host = true → x.handle = some h → s.cmd? h = some c → s.bufRoom h n = true → Next (exec i s) fun t =>
              t.eng p = ({ x with emitter := some { host := true, words := ws a, handle := h, off := c.rbytes } }).after
              ∧ t.rd (ENG p) R.ENG_EMITCNT = (s.rd (ENG p) R.ENG_EMITCNT + 1) % 2 ^ 32
              ∧ (c.phase ≠ .done → ∀ c', t.cmd? h = some c' → c'.rbytes = c.rbytes + (4 * n + 15) / 16 * 16)
              ∧ Frame s t [.eng p, .cmds, .grp (e / 32)] (words [ENG p + R.ENG_EMITCNT.off])))
  ∧ (∀ (s : State) (p : Fin 528) (m : Emit) (i : Nat), let e := s.logEng p
      let l := s.physEng (32 * (e / 32) + (s.grp (e / 32)).siteLead i)
      (s.eng p).emitter = some m → m.host = false → (s.grp (e / 32)).siteOf (e % 32) = some i →
      ((s.eng l).live = true → (s.eng l).inboxWords + m.words.length ≤ 512 → Next (exec (.emitDelivery p) s) fun t =>
        (t.eng p).emitter = none ∧ (t.eng l).inbox = (s.eng l).inbox ++ [m.words]
        ∧ { t.eng p with emitter := some m, inbox := (s.eng p).inbox } = s.eng p ∧ Frame s t [.eng p, .eng l] noWords)
      ∧ ((s.eng l).live = false ∨ 512 < (s.eng l).inboxWords + m.words.length →
        Next (exec (.emitDelivery p) s) fun t => Frame s t [] noWords))
  ∧ (∀ (s : State) (p : Fin 528) (m : Emit), s.paused = false → (s.eng p).emitter = some m → m.host = true →
      Next (exec (.resultRecordWrite (some p)) s) fun t => t.eng p = { s.eng p with emitter := none } ∧ Frame s t [.eng p] noWords)
  ∧ (∀ (s : State) h off ws rest, s.paused = false → s.modRecs = (h, off, ws) :: rest →
      Next (exec (.resultRecordWrite none) s) fun t => t.modRecs = rest ∧ Frame s t [.modRecs] noWords)
  ∧ ∀ (s : State) (p : Fin 528) (x : Engine), s.eng p = x →
      (x.st ≠ E_WAIT → Next (exec (.engineResume p) s) fun t => Frame s t [] noWords)
      ∧ (∀ v l, x.st = E_WAIT → x.on = true → x.gated = false → x.brk = none → opcodeOf x.insn = 0x27 → x.insn.toNat &&& 0x3FFFFF = 0 →
        x.fall.pc < 1024 → x.cfifo = v :: l → Next (exec (.engineResume p) s) fun t =>
          t.eng p = ({ x with cfifo := l }.setG (fieldD x.insn) v).after ∧ Frame s t [.eng p] noWords)
      ∧ (s.starves p = true → Next (exec (.engineStarve p) s) fun t => s.Traps t p 7)
      ∧ (s.starves p = false → Next (exec (.engineStarve p) s) fun t => Frame s t [] noWords)

/-- RSET operations have the result of R246 and move the ring; doorbells move an index in range and are counted otherwise;
a fetch appends a command (R245, R246, R247, R248, R249, R250). -/
def Obligations.RingSetUpDoorbellsAndFetch : Prop :=
  (∀ (s : State) (src : Src) (r : BitVec 5) (op : Fin 3), s.Takes src HIF R.HIF_RSET_CTRL_GO →
    let n := r.toNat
    let d := s.rsetWords n
    let st := s.rstate n
    let boxed (t : State) (o res : Nat) : Prop := t.is HIF R.HIF_RSET_CTRL_GO = true ∧ t.is HIF R.HIF_RSET_CTRL_VALID = false
      ∧ t.box (HIF + R.HIF_RSET_CTRL_GO.off) = { busy := true, op := o, result := res, q := if n ≤ 16 then (t.ring n).d else [] }
    let still (t : State) : Prop := Frame s t [.box (HIF + R.HIF_RSET_CTRL_GO.off), .reco] (words (reqWords HIF R.HIF_RSET_CTRL_GO))
    (∀ i, i = Instr.rsetRead src r ∨ i = .rsetConfigure src r ∨ i = .rsetEnable src r ∨ i = .rsetStop src r ∨ i = .rsetDisable src r →
      16 < n → Next (exec i s) fun t => (t.box (HIF + R.HIF_RSET_CTRL_GO.off)).result = 1 ∧ still t)
    ∧ Next (exec (.rsetReservedOp src op r) s) (fun t => boxed t (5 + op) 1 ∧ still t)
    ∧ (n ≤ 16 →
      Next (exec (.rsetRead src r) s) (fun t => boxed t 0 0 ∧ still t)
      ∧ Next (exec (.rsetConfigure src r) s) (fun t =>
          let res := if 0 < getBits (d.getD 4 0) 11 5 ∨ getBits (d.getD 4 0) 0 4 < 6 ∨ 12 < getBits (d.getD 4 0) 0 4 then 1
            else if st ≠ RS_DISABLED then 2 else if s.siteConflict n d = true then 3
            else if getBits (d.getD 0 0) 0 12 ≠ 0 ∨ getBits (d.getD 2 0) 0 12 ≠ 0 then 4 else 0
          boxed t 1 res ∧ (res ≠ 0 → still t)
          ∧ (res = 0 → (t.ring n).stored = true ∧ (t.ring n).d = d
            ∧ Frame s t [.ring n, .box (HIF + R.HIF_RSET_CTRL_GO.off), .reco] (words (reqWords HIF R.HIF_RSET_CTRL_GO))))
      ∧ Next (exec (.rsetEnable src r) s) (fun t =>
          let ok := st = RS_STOPPED ∨ st = RS_DISABLED ∧ (s.ring n).stored = true
          (¬ ok → boxed t 2 2 ∧ still t)
          ∧ (ok → t.rstate n = RS_ACTIVE ∧ (t.ring n).d = (s.ring n).d ∧ (n < 16 → boxed t 2 0)
            ∧ (n < 16 → st = RS_DISABLED → t.rd (RB n) R.HIF_RSTAT_SQHEAD = 0 ∧ t.rd (RB n) R.HIF_RSTAT_CQTAIL = 0
              ∧ t.rd (RB n) R.HIF_RNEXT_ISSUE = 0 ∧ t.rd (RB n) R.HIF_RNEXT_SQTAIL = 0 ∧ (t.ring n).cqHead = 0 ∧ (t.ring n).phase = true)
            ∧ (n < 16 → st = RS_STOPPED → t.rd (RB n) R.HIF_RSTAT_SQHEAD = s.rd (RB n) R.HIF_RSTAT_SQHEAD
              ∧ t.rd (RB n) R.HIF_RNEXT_ISSUE = s.rd (RB n) R.HIF_RNEXT_ISSUE ∧ (t.ring n).phase = (s.ring n).phase)))
      ∧ Next (exec (.rsetStop src r) s) (fun t =>
          (st ≠ RS_ACTIVE → boxed t 3 2 ∧ still t)
          ∧ (st = RS_ACTIVE → boxed t 3 0 ∧ t.rstate n = (if (s.ringCmds n).isEmpty then RS_STOPPED else RS_STOPPING)
            ∧ Frame s t [.box (HIF + R.HIF_RSET_CTRL_GO.off), .reco] (words ((RB n + R.HIF_RSTAT_STATE.off) :: reqWords HIF R.HIF_RSET_CTRL_GO))))
      ∧ Next (exec (.rsetDisable src r) s) (fun t =>
          (st = RS_DISABLED → boxed t 4 2 ∧ still t)
          ∧ (st ≠ RS_DISABLED → boxed t 4 0 ∧ t.rstate n = RS_DISABLED ∧ (t.ring n).waiting = [] ∧ (t.ring n).d = (s.ring n).d
            ∧ (t.holds.all fun h => h.ring != n) = true))))
  ∧ (∀ (s : State), let a := HIF + R.HIF_RSET_CTRL_GO.off
      let x := s.box a
      x.busy = true → x.q.length ≤ 7 → x.result < 8 → Next (exec .rsetComplete s) fun t =>
        t.rd HIF R.HIF_RSET_CTRL_RESULT = x.result ∧ t.is HIF R.HIF_RSET_CTRL_GO = false ∧ t.is HIF R.HIF_RSET_CTRL_VALID = true
        ∧ (∀ k < x.q.length, t.word (HIF + R.HIF_RSET_Q0.off + 4 * k) = x.q.getD k 0) ∧ t.box a = {}
        ∧ Frame s t [.box a] (words (a :: (List.range 7).map fun k => HIF + R.HIF_RSET_Q0.off + 4 * k)))
  ∧ (∀ (s : State) (r : Fin 16) (v : Word) (whole : Bool), s.access .pcie = true →
      let n := (s.ring r).depth
      let old := s.rd (RB r) R.HIF_RNEXT_SQTAIL
      let free := (s.rd (RB r) R.HIF_RSTAT_SQHEAD + 2 * n - 1 - old) % n
      let posted := (s.rd (RB r) R.HIF_RSTAT_CQTAIL + n - (s.ring r).cqHead) % n
      let up := s.rstate r = RS_ACTIVE ∨ s.rstate r = RS_STOPPING
      let bad (t : State) : Prop := t.rd (RB r) R.HIF_DBERR = (s.rd (RB r) R.HIF_DBERR + 1) % 2 ^ 32
        ∧ Frame s t [] (words [RB r + R.HIF_DBERR.off])
      (up → whole = true → v.toNat < n → (v.toNat + n - old % n) % n ≤ free → v.toNat < 4096 →
        Next (exec (.sqTailDoorbell r v whole) s) fun t =>
          t.rd (RB r) R.HIF_RNEXT_SQTAIL = v.toNat ∧ Frame s t [] (words [RB r + R.HIF_RNEXT_SQTAIL.off]))
      ∧ (¬ up ∨ whole = false ∨ n ≤ v.toNat ∨ free < (v.toNat + n - old % n) % n →
        Next (exec (.sqTailDoorbell r v whole) s) bad)
      ∧ (up → whole = true → v.toNat < n → (v.toNat + n - (s.ring r).cqHead % n) % n ≤ posted →
        Next (exec (.cqHeadDoorbell r v whole) s) fun t =>
          (t.ring r).cqHead = v.toNat ∧ { t.ring r with cqHead := (s.ring r).cqHead, waiting := (s.ring r).waiting } = s.ring r
          ∧ Frame s t [.ring r] noWords)
      ∧ (¬ up ∨ whole = false ∨ n ≤ v.toNat ∨ posted < (v.toNat + n - (s.ring r).cqHead % n) % n →
        Next (exec (.cqHeadDoorbell r v whole) s) bad))
  ∧ (∀ (s : State) (src : Src) (v : Word), s.access src = true →
      let n := (s.ring 16).depth
      let old := s.rd HIF R.HIF_EVHEAD
      let fits := (s.rstate 16 = RS_ACTIVE ∨ s.rstate 16 = RS_STOPPING) ∧ v.toNat < n
        ∧ (v.toNat + n - old % n) % n ≤ (s.rd (RB 16) R.HIF_RSTAT_CQTAIL + n - old) % n
      (fits → v.toNat < 4096 → Next (exec (.evheadWrite src v) s) fun t => t.rd HIF R.HIF_EVHEAD = v.toNat
        ∧ Frame s t [.reco] (words [HIF + R.HIF_EVHEAD.off, PROT + R.PROT_CFGWA.off, PROT + R.PROT_CFGWK.off]))
      ∧ (¬ fits → Next (exec (.evheadWrite src v) s) fun t =>
        t.rd (RB 16) R.HIF_DBERR = (s.rd (RB 16) R.HIF_DBERR + 1) % 2 ^ 32 ∧ Frame s t [] (words [RB 16 + R.HIF_DBERR.off])))
  ∧ ∀ (s : State) (d : List Word),
      (s.paused = true ∨ s.fetchStopped = true ∨ s.fetchRing = none → Next (exec (.descriptorFetch d) s) fun t => Frame s t [] noWords)
      ∧ ∀ r, s.paused = false → s.fetchStopped = false → s.fetchRing = some r →
        let slot := s.rd (RB r) R.HIF_RSTAT_SQHEAD
        let issue := s.rd (RB r) R.HIF_RNEXT_ISSUE
        let c := cmdOf r slot issue d
        let no := s.submission c (getBits (d.getD 0 0) 16 16)
        let cut := (s.enders 3 c.handle).isEmpty = false ∨ c.op = 5 ∧ (s.enders 6 c.handle).isEmpty = false
        s.cmd? c.handle = none → Next (exec (.descriptorFetch d) s) fun t =>
          s.rstate r = RS_ACTIVE ∧ t.fetchNext = (r + 1) % 16
          ∧ t.rd (RB r) R.HIF_RSTAT_SQHEAD = (slot + 1) % (s.ring r).depth % 4096 ∧ t.rd (RB r) R.HIF_RNEXT_ISSUE = (issue + 1) % 65536
          ∧ (∃ y, t.cmd? c.handle = some y
            ∧ { y with status := 0, phase := .waiting, cflags := 0 } = c
            ∧ y.cflags = (if 1 ≤ s.throttle then 2 ^ CF_THROTTLED else 0)
            ∧ (y.status, y.phase) = (if no ≠ 0 then (no, .done) else if s.mode = MODE_SAFE ∨ (s.ring r).safeLeft ≠ 0 then (ST_SAFE, .done)
                else if cut then (ST_ABORTED, .done) else (0, .waiting)))
          ∧ Frame s t [.cmds, .fetch] (words [RB r + R.HIF_RSTAT_SQHEAD.off, RB r + R.HIF_RNEXT_ISSUE.off])

/-- A completion is written at the CQ tail in order and its command leaves; the coalescing timer fires the vector; an
error stops the ring or marks a command (R244, R247, R257, R258, R263, R269). -/
def Obligations.CompletionsTimersAndBusErrors : Prop :=
  (∀ (s : State) (r : Fin 16),
    (s.paused = true ∨ s.ringUp r = false ∨ s.cqFull r = true ∨ (s.ring r).waiting = [] →
      Next (exec (.completionPost r) s) fun t => Frame s t [] noWords)
    ∧ ∀ h rest c, s.paused = false → s.ringUp r = true → s.cqFull r = false → (s.ring r).waiting = h :: rest → s.cmd? h = some c →
      let x := s.ring r
      let tail := s.rd (RB r) R.HIF_RSTAT_CQTAIL
      Next (exec (.completionPost r) s) fun t =>
        t.cmd? c.handle = none
        ∧ t.rd (RB r) R.HIF_RSTAT_CQTAIL = (tail + 1) % x.depth % 4096
        ∧ (t.ring r).phase = (if tail + 1 = x.depth then !x.phase else x.phase) ∧ (t.ring r).d = x.d
        ∧ Out.mem false (x.cqBase + 32 * tail) (c.completion x.phase (s.rd (RB r) R.HIF_RSTAT_SQHEAD)) ∈ t.out
        ∧ (s.rstate r = RS_STOPPING → (s.cmds.all fun y => y.ring != r || y.handle == c.handle) = true → t.rstate r = RS_STOPPED)
        ∧ Frame s t [.cmds] (words [RB r + R.HIF_RSTAT_CQTAIL.off]))
  ∧ (∀ (s : State) (r : Fin 17), let x := s.ring r
    (s.rstate r = RS_DISABLED ∨ x.ctime = 0 ∨ x.unsig = 0 → Next (exec (.coalesceTimer r) s) fun t => Frame s t [] noWords)
    ∧ (s.rstate r ≠ RS_DISABLED → x.ctime ≠ 0 → x.unsig ≠ 0 → Next (exec (.coalesceTimer r) s) fun t =>
      (r.val < 16 → (t.ring r).unsig = 0)
      ∧ (x.ien = true → s.msixEn = true → s.msixMask = false → s.is (MSIXT x.vec) R.HIF_MSIX_CTRL = false → s.paused = false →
        Out.msix x.vec ∈ t.out)
      ∧ (x.ien = true → s.msixEn = true → s.msixMask = true ∨ s.is (MSIXT x.vec) R.HIF_MSIX_CTRL = true →
        t.is HIF (pbaFld x.vec) = true)
      ∧ Frame s t [] noWords))
  ∧ ∀ (s : State),
    (∀ r : Fin 17, (s.ringUp r = true → Next (exec (.dmaErrorResponse r none) s) fun t => t.rstate r = RS_ERROR)
      ∧ (s.ringUp r = false → Next (exec (.dmaErrorResponse r none) s) fun t => Frame s t [] noWords))
    ∧ ∀ (r : Fin 17) (h : Word),
      (s.cmd? h.toNat = none → Next (exec (.dmaErrorResponse r (some h)) s) fun t => Frame s t [] noWords)
      ∧ ∀ c, s.cmd? h.toNat = some c → s.rstate c.ring ≠ RS_DISABLED → Next (exec (.dmaErrorResponse r (some h)) s) fun t =>
        t.cmd? h.toNat = some (if c.op = 4 then { c with status := max c.status ST_DMAERR, groupsLeft := 0, phase := .done }
          else { c with status := max c.status ST_DMAERR })
        ∧ Frame s t [.cmds] noWords

/-- Event and MSI-X masks take their words and pending messages go; the link follows its operands; PERST, FLR and 100 ms
down disable the rings (R35, R244, R247, R269, R403, R408, R409, R418). -/
def Obligations.EventMasksLinkAndFunctionResets : Prop :=
  (∀ (s : State) (src : Src) (v : Word), s.access src = true →
    (∀ i : Fin 80, Next (exec (.eventMaskWrite src i v) s) fun t =>
      t.word (evMaskAddr i) = v ∧ t.power = { s.power with cfgWritten := true }
      ∧ Frame s t [.reco, .power] (words [evMaskAddr i, PROT + R.PROT_CFGWA.off, PROT + R.PROT_CFGWK.off]))
    ∧ Next (exec (.pseenWrite src v) s) fun t => t.word (EVT + R.EVT_PSEEN.off) = v
      ∧ Frame s t [.reco] (words [EVT + R.EVT_PSEEN.off, PROT + R.PROT_CFGWA.off, PROT + R.PROT_CFGWK.off]))
  ∧ (∀ (s : State) (w : Word), s.access .pcie = true →
    (∀ v : Fin 64, Next (exec (.msixMaskWrite (some v) w) s) fun t =>
      t.is (MSIXT v) R.HIF_MSIX_CTRL = bitOf w.toNat 0
      ∧ (s.msixEn = true → s.msixMask = false → bitOf w.toNat 0 = false → s.is HIF (pbaFld v) = true → s.paused = false →
          Out.msix v ∈ t.out)
      ∧ Frame s t [.reco] (words [MSIXT v + R.HIF_MSIX_CTRL.off, PROT + R.PROT_CFGWA.off, PROT + R.PROT_CFGWK.off]))
    ∧ Next (exec (.msixMaskWrite none w) s) fun t => t.msixEn = bitOf w.toNat 15 ∧ t.msixMask = bitOf w.toNat 14
      ∧ (bitOf w.toNat 15 = true → bitOf w.toNat 14 = false → s.paused = false →
          ∀ v < 64, s.is HIF (pbaFld v) = true → s.is (MSIXT v) R.HIF_MSIX_CTRL = false → Out.msix v ∈ t.out)
      ∧ Frame s t [.msix] noWords)
  ∧ (∀ s : State, s.power.host = true → s.power.perst = false →
    (s.mode = MODE_BOOT → Next (exec .configRequestRetry s) fun t => Out.retry ∈ t.out ∧ Frame s t [] noWords))
  ∧ (∀ (s : State) (up : Bool) (speed : BitVec 4) (width : BitVec 5) (bme : Bool),
    (s.power.host = true → s.power.perst = false → up = false ∨ s.extest = false →
      Next (exec (.linkStateChange up speed width bme) s) fun t =>
        t.is HIF R.HIF_LINK_UP = up ∧ t.rd HIF R.HIF_LINK_SPEED = (if up then speed.toNat else 0)
        ∧ t.rd HIF R.HIF_LINK_WIDTH = (if up then width.toNat else 0) ∧ t.is HIF R.HIF_LINK_BME = bme
        ∧ t.linkLost = (!up && (s.is HIF R.HIF_LINK_UP || s.linkLost))
        ∧ (up = true → bme = true → t.held = [] ∧ (∀ o ∈ s.held, (∀ v < 64, o ≠ .msix v) → o ∈ t.out)
            ∧ ∀ v < 64, Out.msix v ∈ s.held → s.msixEn = true →
              (s.msixMask = false → s.is (MSIXT v) R.HIF_MSIX_CTRL = false → Out.msix v ∈ t.out)
              ∧ (s.msixMask = true ∨ s.is (MSIXT v) R.HIF_MSIX_CTRL = true → t.is HIF (pbaFld v) = true))
        ∧ (up = false ∨ bme = false → s.held <+: t.held)
        ∧ Frame s t [.link] (words [HIF + R.HIF_LINK_UP.off]))
    ∧ (s.power.host = false ∨ s.power.perst = true ∨ up = true ∧ s.extest = true →
      Next (exec (.linkStateChange up speed width bme) s) fun t => Frame s t [] noWords))
  ∧ (∀ s : State, Next (exec .perstDeassert s) fun t => t.power = { s.power with perst := false } ∧ Frame s t [.power] noWords)
  ∧ ∀ s : State, s.power.host = true →
    let cleared (t : State) : Prop := ∀ r < 17, t.rstate r = RS_DISABLED ∧ (t.ring r).stored = false ∧ (t.ring r).d = ({} : Ring).d
    (s.is HIF R.HIF_LINK_UP = false → s.linkLost = true → Next (exec .linkDownTimeout s) fun t => cleared t ∧ t.holds = [])
    ∧ (s.is HIF R.HIF_LINK_UP = true ∨ s.linkLost = false → Next (exec .linkDownTimeout s) fun t => Frame s t [] noWords)
    ∧ (Next (exec .perst s) fun t => cleared t ∧ t.power.perst = true ∧ t.is HIF R.HIF_LINK_UP = false
      ∧ t.linkLost = (s.is HIF R.HIF_LINK_UP || s.linkLost) ∧ t.msixEn = false)
    ∧ (s.is HIF R.HIF_LINK_UP = true → Next (exec .functionLevelReset s) fun t => cleared t ∧ t.msixEn = false
      ∧ t.is HIF R.HIF_LINK_UP = true ∧ t.rd HIF R.HIF_LINK_SPEED = s.rd HIF R.HIF_LINK_SPEED ∧ t.is HIF R.HIF_LINK_BME = false)

/-- NOP, EXEC, HOP, CANCEL, LOAD, HOLD and RELEASE run when their ring lets them; guarantees are granted and lapse; a
deadline ends what waits (R89, R250, R252, R253, R254, R255, R256, R264, R267, R268). -/
def Obligations.CommandsOfTheRings : Prop :=
  (∀ (s : State) (h left : Word) (rem : List (Word × Word)) (ws : List Word),
    ∀ r ∈ [(Instr.cmdNop h, 0), (.exec h left rem, 1), (.hop h left rem, 2), (.cancel h, 3), (.load h ws, 4), (.hold h left rem, 5),
      (.release h, 6)],
    (s.startable h.toNat r.2 = none → Next (exec r.1 s) fun t => Frame s t [] noWords)
    ∧ (s.testMode = false → r.2 = 1 ∨ r.2 = 2 → Next (exec r.1 s) fun t => Frame s t [] noWords)
    ∧ ∀ c, s.startable h.toNat r.2 = some c →
      (r.2 = 0 → Next (exec r.1 s) fun t => t.cmd? h.toNat = some { c with phase := .done, groupsLeft := 0 } ∧ Frame s t [.cmds] noWords)
      ∧ (r.2 = 1 ∨ r.2 = 2 → s.testMode = true → (r.2 = 2 ∧ s.slewWaits c = false) ∨ s.execWaits c = false → s.anyDown c = true →
        Next (exec r.1 s) fun t => t.cmd? h.toNat = some { c with phase := .done, groupsLeft := 0, status := max c.status ST_FAULT }
          ∧ Frame s t [.cmds] noWords))
  ∧ (∀ (s : State) (h left : Word) (rem : List (Word × Word)) (c : Cmd), s.cmd? h.toNat = some c → s.testMode = true → s.anyDown c = false → s.holds = [] →
      let gs := s.groupsOf c.sites
      let parts (ps : List Nat) : Nat := partsOf gs ps
      (s.startable h.toNat 1 = some c → s.execWaits c = false → c.rte = false → c.stp = true →
        Next (exec (.exec h left rem) s) fun t =>
          (c.engs = false → (∀ g ∈ gs, t.grp g = { s.grp g with
              steps := (s.grp g).steps ++ [{ handle := c.handle, sites := groupSites c.sites g, line0 := getBits (c.arg 1) 0 17 }] })
            ∧ (gs ≠ [] → t.cmd? h.toNat = some { c with phase := .running, groupsLeft := parts [1] })
            ∧ Frame s t (.cmds :: gs.map .grp) noWords)
          ∧ (c.engs = true → s.sealed = false → ∀ g ∈ gs, ∀ e ∈ s.execEngines c g, let y := t.eng (s.physEng e)
              y.st = E_RUN ∧ y.pc = getBits (c.arg 1) 17 10 ∧ y.handle = some c.handle ∧ y.req = none
              ∧ (∀ k < 7, y.dm k = c.arg (2 + k)) ∧ y.dm 7 = BitVec.ofNat 32 c.handle))
      ∧ (∀ r ∈ [(Instr.hop h left rem, 2), (.exec h left rem, 1)], s.startable h.toNat r.2 = some c →
        r.2 = 2 ∧ s.slewWaits c = false ∨ s.execWaits c = false ∧ c.rte = true → ∀ g ∈ gs,
        let e : QEntry := if r.2 = 2 then { handle := c.handle, start := getBits (c.arg 0) 0 12, staged := getBits (c.arg 0) 12 1 == 1 }
          else { handle := c.handle, isRoute := true, start := getBits (c.arg 0) 0 12, atMilestone := bitOf c.flags 3,
                 hoplim := getBits (c.arg 0) 12 16 }
        let ep := (s.epoch + 2) % 2 ^ 48
        let rt : Route := { holder := c.handle, start := e.start, atMilestone := e.atMilestone, hoplim := e.hoplim, due := !e.atMilestone, dueEpoch := ep }
        Next (exec r.1 s) fun t =>
          (s.queueFree g = false → (r.2 = 2 ∨ s.joins c g = false) → (t.grp g).queue = (s.grp g).queue ++ [e])
          ∧ (s.queueFree g = true → (s.grp g).queue = [] → (t.grp g).queue = []
            ∧ (r.2 = 2 → (t.grp g).hop = some { src := .cmd c.handle, index := e.start, staged := e.staged, dueEpoch := ep })
            ∧ (r.2 = 1 → s.pingPong g = false → c.engs = false → (t.grp g).route = some rt
                ∧ t.rd (GS g) R.GS_RSTAT_RUN = 1 ∧ t.rd (GS g) R.GS_RSTAT_RING = c.ring % 32 ∧ t.rd (GS g) R.GS_RSTAT_ORIGIN = 2))
          ∧ ∀ k, k ∉ gs → t.grp k = s.grp k))
  ∧ (∀ (s : State) (h : Word) (ws : List Word) (c : Cmd), s.startable h.toNat 4 = some c → c.legal = true →
      let unitOn := if c.target ≤ 3 then (s.grp c.unit).on else (s.eng (s.physEng c.unit)).on
      let p := s.physEng c.unit
      (unitOn = false ∨ s.paused = true ∨ s.slewWaits c = true → Next (exec (.load h ws) s) fun t => Frame s t [] noWords)
      ∧ (unitOn = true → s.paused = false → s.slewWaits c = false →
        (c.toHost = true → Next (exec (.load h ws) s) fun t =>
          Out.mem false c.rbuf ((List.range c.count).flatMap fun i => s.loadRead c.target c.unit (c.first + i)) ∈ t.out
          ∧ t.cmd? h.toNat = some { c with rbytes := c.count * c.entryBytes, phase := .done, groupsLeft := 0 } ∧ Frame s t [.cmds] noWords)
        ∧ (c.toHost = false → c.target = 5 → (s.eng p).live = false → Next (exec (.load h ws) s) fun t =>
          (∀ i, (t.eng p).dm i = if c.first ≤ i ∧ i < c.first + c.count then ws.getD (i - c.first) 0 else (s.eng p).dm i)
          ∧ { t.eng p with data := (s.eng p).data } = s.eng p
          ∧ t.cmd? h.toNat = some { c with phase := .done, groupsLeft := 0 } ∧ Frame s t [.eng p, .cmds] noWords)
        ∧ (∀ r, c.toHost = false → (s.loadWrite c.target c.unit c.first (ws.take (c.entryBytes / 4))).1 = some r →
          Next (exec (.load h ws) s) fun t => t.cmd? h.toNat = some { c with
              aux := c.first, detail := r, status := max c.status ST_REFUSED, phase := .done, groupsLeft := 0 }
            ∧ Frame s t [.cmds] noWords)))
  ∧ (∀ (s : State) (h left : Word) (rem : List (Word × Word)) (c : Cmd), s.startable h.toNat 5 = some c → s.holds = [] →
      getBits (c.arg 0) 0 1 = 0 →
      Next (exec (.hold h left rem) s) fun t =>
        t.holds.length = 1 ∧ ∀ x ∈ t.holds, x.handle = h.toNat ∧ x.ring = c.ring ∧ x.guarded = false ∧ x.length = (c.arg 1).toNat
          ∧ (∀ g < 16, bitOf x.groups g = (s.groupsOf c.sites).contains g)
          ∧ x.granted = (s.groupsOf c.sites).all fun g => s.phaseFree x g
          ∧ (x.granted = true → ∀ y ∈ t.cmds, y.handle = h.toNat → y.phase = .done))
  ∧ (∀ (s : State) (h : Word) (rem : List (Word × Word)), let mine (x : Hold) : Bool := x.handle == h.toNat && !x.granted
      (s.holds.find? mine = none → Next (exec (.guaranteeGrant h rem) s) fun t => Frame s t [] noWords)
      ∧ ∀ x, s.holds.find? mine = some x → x.guarded = false →
        let ok := ((List.range 16).filter fun g => bitOf x.groups g).all fun g => s.phaseFree x g
        Next (exec (.guaranteeGrant h rem) s) fun t =>
          (ok = true → t.holds = s.holds.map (fun y => if y.handle = h.toNat then { y with granted := true } else y)
            ∧ Frame s t [.holds, .cmds] noWords)
          ∧ (ok = false → Frame s t [] noWords))
  ∧ (∀ (s : State) (h : Word), Next (exec (.phaseHoldLapse h) s) fun t =>
      t.holds = s.holds.filter (fun x => !(x.handle == h.toNat && x.granted && !x.guarded))
      ∧ (∀ g < 16, (s.grp g).deferRet = true → t.phaseHeld g = false → (t.grp g).deferRet = false ∧ t.rd (GS g) R.GS_HOLDSTAT_DEFER = 0)
      ∧ Frame s t (.holds :: (List.range 16).map .grp) (words ((List.range 16).map fun g => GS g + R.GS_HOLDSTAT_DEFER.off)))
  ∧ (∀ (s : State) (h : Word) (c : Cmd), s.cmd? h.toNat = some c →
      let x := (c.arg 0).toNat
      let gone (t : State) (st : Nat) : Prop := t.cmd? h.toNat = some { c with status := max c.status st, phase := .done, groupsLeft := 0 }
      (s.startable h.toNat 6 = some c →
        (s.heldBy x = true → x / 2 ^ 28 = c.ring → Next (exec (.release h) s) fun t => gone t 0 ∧ t.heldBy x = false)
        ∧ (x / 2 ^ 28 ≠ c.ring ∨ s.heldBy x = false ∧ (s.cmd? x = none ∧ s.unfetched c.ring x = false ∨ ∃ y, s.cmd? x = some y ∧ y.op ≠ 5) → Next (exec (.release h) s) fun t =>
            gone t ST_NOTFOUND ∧ Frame s t [.cmds] noWords))
      ∧ (s.startable h.toNat 3 = some c →
        (x / 2 ^ 28 ≠ c.ring ∨ s.cmd? x = none ∧ s.unfetched c.ring x = false → s.holds = [] → Next (exec (.cancel h) s) fun t =>
            gone t ST_NOTFOUND ∧ Frame s t [.cmds] noWords)
        ∧ ∀ y, x / 2 ^ 28 = c.ring → x ≠ c.handle → s.holds = [] → s.cmd? x = some y → y.phase = .waiting → s.stepping x = false →
          (s.groupsOf y.sites).all (fun g => !s.onRoute x g) = true → s.engines = [] →
          Next (exec (.cancel h) s) fun t => t.cmd? x = some { y with status := max y.status ST_ABORTED, phase := .done, groupsLeft := 0 }
            ∧ t.cmd? h.toNat = some { c with phase := .queued }))
  ∧ ∀ (s : State) (h : Word) (rem : List (Word × Word)) (tie : Bool),
      (s.cmd? h.toNat = none → Next (exec (.deadlineExpiry h rem tie) s) fun t => Frame s t [] noWords)
      ∧ ∀ c, s.cmd? h.toNat = some c →
        (c.deadline = 0 ∨ c.phase = .done → Next (exec (.deadlineExpiry h rem tie) s) fun t => Frame s t [] noWords)
        ∧ (c.deadline ≠ 0 → c.phase ≠ .done →
          (s.blockers c rem = [] ∨ tie = true → Next (exec (.deadlineExpiry h rem tie) s) fun t =>
            t.cmd? h.toNat = some { c with late := decide (c.op = 2) && !tie, expired := true } ∧ Frame s t [.cmds] noWords)
          ∧ (s.blockers c rem ≠ [] → tie = false → s.rstate c.ring ≠ RS_DISABLED → Next (exec (.deadlineExpiry h rem tie) s) fun t =>
            ∀ y, t.cmd? h.toNat = some y → y.phase = .done ∧ y.status = max c.status ST_BLOCKED ∧ y.detail = blockName (s.blockers c rem)
              ∧ bitOf y.cflags CF_BLOCKED = true))

/-- CAL.CTRL answers READ, RECORD, STORE and CHECKREF; an item is accepted or rejected by R315; a run ends in ARMED;
rolling calibration and trims (R311, R312, R313, R315, R317, R318, R322, R323, R325, R326, R327, R329). -/
def Obligations.CalibrationMailboxItemsAndTrims : Prop :=
  (∀ (s : State) (src : Src) (index : BitVec 10) (calv ppm : Word) (op : Fin 4), s.Takes src CAL R.CAL_CTRL_GO →
    let a := CAL + R.CAL_CTRL_GO.off
    let k := index.toNat
    let taken (t : State) (b : Box) (more : List Part) (regs : List Nat) : Prop :=
      t.is CAL R.CAL_CTRL_GO = true ∧ t.is CAL R.CAL_CTRL_VALID = false ∧ t.rd CAL R.CAL_CTRL_INDEX = k ∧ t.box a = b
      ∧ Frame s t (.box a :: .reco :: more) (words (reqWords CAL R.CAL_CTRL_GO ++ regs))
    let slot := if s.is CAL R.CAL_SLOT_ACT = true then s.reco.die.calB else s.reco.die.calA
    let w (i : Nat) : Word := match slot with | some x => x.words.getD i 0 | none => 0
    let no := if s.mode = MODE_BOOT ∨ s.mode = MODE_SAFE then 4 else if s.cal.storing.isSome = true ∨ s.cal.run = true then 2
      else if s.sealed = true then 3 else 0
    Next (exec (.calRead src index) s) (fun t => taken t { busy := true, op := 0, result := if 561 < k then 1 else 0,
                                                           q := if 561 < k then [] else s.calWords k } [] [])
    ∧ Next (exec (.calRecord src index) s) (fun t => taken t { busy := true, op := 1, result := if 3 < k then 1 else 0,
                                                               q := if 3 < k then [] else [w (4 * k), w (4 * k + 1), w (4 * k + 2), w (4 * k + 3)] } [] [])
    ∧ Next (exec (.calCheckref src index calv ppm) s) (fun t => taken t { busy := true, op := 3, result := 0,
                                                                          q := [calv, ppm, BitVec.ofNat 32 (b2n (s.calvOk calv.toNat) + 2 * b2n (s.caltOk ppm.toInt))],
                                                                          aux := b2n (s.calvOk calv.toNat) } [] [])
    ∧ Next (exec (.calReservedOp src index op) s) (fun t => taken t { busy := true, op := 4 + op, result := 1 } [] [])
    ∧ Next (exec (.calStore src index) s) fun t =>
      (no ≠ 0 → taken t { busy := true, op := 2, result := no } [] [])
      ∧ (no = 0 → taken t { busy := true, op := 2 } [.cal] [CAL + R.CAL_STAT_STOREBUSY.off, REC + R.REC_STAT_STATE.off]
          ∧ t.is CAL R.CAL_STAT_STOREBUSY = true ∧ t.cal.storing.isSome = true ∧ t.cal.copy.trims = s.store))
  ∧ (∀ s : State, let a := CAL + R.CAL_CTRL_GO.off
      let x := s.box a
      x.busy = true → x.q.length ≤ 4 → x.result < 8 → Next (exec .calCtrlComplete s) fun t =>
        t.rd CAL R.CAL_CTRL_RESULT = x.result ∧ t.is CAL R.CAL_CTRL_GO = false ∧ t.is CAL R.CAL_CTRL_VALID = true
        ∧ (∀ k < x.q.length, t.word (CAL + R.CAL_Q0.off + 4 * k) = x.q.getD k 0)
        ∧ (x.op = 3 → t.rd CAL R.CAL_STAT_REFOK = x.aux % 2) ∧ t.box a = {}
        ∧ Frame s t [.box a] (words ([a, CAL + R.CAL_STAT_REFOK.off] ++ (List.range 4).map fun k => CAL + R.CAL_Q0.off + 4 * k)))
  ∧ (∀ (s : State) (ok : Bool),
      (s.cal.storing = none → Next (exec (.calStoreEnd ok) s) fun t => Frame s t [] noWords)
      ∧ ∀ b, s.cal.storing = some b → s.reco.erase ≠ some (.calSlot b) → s.reco.eraseQ.contains (.calSlot b) = false → s.power.downStep ≠ 2 →
        Next (exec (.calStoreEnd ok) s) fun t =>
          t.cal.storing = none ∧ t.is CAL R.CAL_STAT_STOREBUSY = false ∧ t.rd CAL R.CAL_STORES = (s.rd CAL R.CAL_STORES + 1) % 2 ^ 32
          ∧ (if b then t.reco.die.calB else t.reco.die.calA) = (if ok then some s.cal.copy else none)
          ∧ (ok = true → t.is CAL R.CAL_SLOT_ACT = b ∧ t.rd CAL R.CAL_SLOT_LASTSTORE = 1) ∧ (ok = false → t.rd CAL R.CAL_SLOT_LASTSTORE = 3)
          ∧ Frame s t [.cal, .reco] (words [CAL + R.CAL_STAT_STOREBUSY.off, CAL + R.CAL_SLOT_ACT.off, CAL + R.CAL_STORES.off]))
  ∧ (∀ (s : State) (u : Fin 578) (item : Fin 16) (o : Fin 36) (pass coast moved : Bool) (parts : List CalPart),
      (s.calDue u item o = false → Next (exec (.calItemMeasured u item o pass coast moved parts) s) fun t => Frame s t [] noWords)
      ∧ (s.calDue u item o = true → item.val = 0 → pass = false → Next (exec (.calItemMeasured u item o pass coast moved parts) s) fun t =>
          t.rd CAL R.CAL_PRECONDS = (s.rd CAL R.CAL_PRECONDS + 1) % 2 ^ 32 ∧ (t.calUnit u).status = 1 ∧ t.cal.todo = s.cal.todo.filter (· != u.val)
          ∧ t.cal.fresh = s.cal.fresh ∧ Frame s t [.cal] (words [CAL + R.CAL_PRECONDS.off]))
      ∧ ∀ c, s.calDue u item o = true → item.val ≠ 0 → s.itemCause u item o coast moved parts = c → u.val < 528 →
          let last := (unitItems s.cal.items u).all fun i => decide (i ≤ item.val)
        (c ≠ 0 → Next (exec (.calItemMeasured u item o pass coast moved parts) s) fun t =>
          t.rd CAL R.CAL_REJECTS = (s.rd CAL R.CAL_REJECTS + 1) % 2 ^ 32
          ∧ (last = false → (t.workUnit u).status = 2 ∧ bitOf (t.workUnit u).rej (item - 1) = true
              ∧ ((s.workUnit u).rej = 0 → (t.workUnit u).cause = c) ∧ t.cal.fresh = s.cal.fresh
              ∧ Frame s t [.cal] (words [CAL + R.CAL_REJECTS.off]))
          ∧ (last = true → t.cal.todo = s.cal.todo.filter (· != u.val) ∧ (t.calUnit u).status = 2))
        ∧ (c = 0 → last = true → item.val ≤ 6 → s.cal.fresh = [] → ∀ f ∈ trimParts u item o, ∀ p ∈ parts.head?,
          Next (exec (.calItemMeasured u item o pass coast moved parts) s) fun t =>
            t.rd f.1 f.2 = p.1.toNat % 2 ^ f.2.width ∧ t.cal.todo = s.cal.todo.filter (· != u.val)
            ∧ (t.calUnit u).accepted = true ∧ (t.calUnit u).cqAt (item - 1) = parts.foldl (fun m p => max m p.cq) 0
            ∧ Frame s t [.cal, .trims, .config] (words [f.1 + f.2.off, CAL + R.CAL_STAT_CQMOD.off])))
  ∧ (∀ s : State, let due := s.cal.run && s.mode == MODE_CALIBRATE && s.cal.todo.all fun u => s.unitGone u
      (due = false → Next (exec .calibrationRunEnd s) fun t => Frame s t [] noWords)
      ∧ (due = true → Next (exec .calibrationRunEnd s) fun t => t.mode = MODE_ARMED ∧ t.rd GLB R.GLB_MODE_PREV = MODE_CALIBRATE ∧ t.cal.run = false
          ∧ t.rd CAL R.CAL_STAT_LASTRUN = 1 ∧ t.rd CAL R.CAL_RUNS = (s.rd CAL R.CAL_RUNS + 1) % 2 ^ 32))
  ∧ (∀ (s : State) (g : Fin 16) (calv : Word),
      let en := bitOf (s.rd CAL R.CAL_ROLL_EN) g && (s.mode == MODE_ARMED || s.mode == MODE_RUN)
      (en = false ∨ (s.roll g).step ≠ 0 ∨ s.spareFree g = false ∨ s.rollNext g = none →
        Next (exec (.rollingCalStart g calv) s) fun t => Frame s t [] noWords)
      ∧ ∀ k, en = true → (s.roll g).step = 0 → s.spareFree g = true → s.rollNext g = some k →
        Next (exec (.rollingCalStart g calv) s) fun t =>
          t.is CAL R.CAL_STAT_REFOK = s.calvOk calv.toNat
          ∧ (s.calvOk calv.toNat = false → Frame s t [] (words [CAL + R.CAL_STAT_REFOK.off]))
          ∧ (s.calvOk calv.toNat = true → t.roll g = { s.roll g with step := 1, ch := k, last := k, abandoned := false }
              ∧ (t.chan (512 + g)).serves = some k ∧ (t.chan (512 + g)).inf = (s.chan (32 * g + k)).inf
              ∧ (t.chan (32 * g + k)).swing = some true ∧ t.is CAL R.CAL_STAT_ROLLACT = true ∧ t.is (CH (32 * g + k)) R.CH_CSTAT_SHADOW = true
              ∧ Frame s t [.cal, .chan (512 + g), .chan (32 * g + k), .grp g]
                  (words [CAL + R.CAL_STAT_REFOK.off, CH (32 * g + k) + R.CH_CSTAT_SHADOW.off])))
  ∧ (∀ (s : State) (g : Fin 16) (pass coast : Bool) (items : List RollItem) (ms : Fin 1000), let r := s.roll g
      (r.step ≠ 2 → Next (exec (.rollingCalItemsDone g pass coast items ms) s) fun t => Frame s t [] noWords)
      ∧ (r.step = 2 → r.ch < 32 → pass = false → Next (exec (.rollingCalItemsDone g pass coast items ms) s) fun t =>
          t.rd CAL R.CAL_PRECONDS = (s.rd CAL R.CAL_PRECONDS + 1) % 2 ^ 32)
      ∧ (r.step = 2 → r.ch < 32 → pass = true → Next (exec (.rollingCalItemsDone g pass coast items ms) s) fun t =>
          t.roll g = { r with step := 3 } ∧ t.chan (32 * g + r.ch) = { s.chan (32 * g + r.ch) with cal := false, swing := some false }
          ∧ Frame s t [.cal, .trims, .config, .chan (32 * g + r.ch)] (oneOf [block (CH (32 * g + r.ch) + 0x200) 0x100,
              words [CAL + R.CAL_REJECTS.off, CAL + R.CAL_STAT_CQMOD.off]])))
  ∧ ∀ (s : State) (c : Fin 528), let due := s.trimPend (CH c + 0x200) 0x100 && !s.siteStep c
      (due = false → Next (exec (.trimApply c) s) fun t => Frame s t [] noWords)
      ∧ (due = true → Next (exec (.trimApply c) s) fun t => Frame s t [.trims] noWords
          ∧ (Tab.wf (fun a => resetWord s.variant a) s.regs = true → Tab.wf (fun a => resetWord s.variant a) s.trims = true →
            t.trimPend (CH c + 0x200) 0x100 = false))

/-- Set faults are recorded, retried and retire on the third; engines copy to a spare and back; image stores, replay and
un-retiring end as R340 to R346 say (R334, R335, R336, R337, R338, R340, R342, R346). -/
def Obligations.FaultsRetriesStoresAndReplay : Prop :=
  (∀ (s : State) (c : Fin 528) (ms : Fin 1000),
    let g := if c.val < 512 then c.val / 32 else c - 512
    let taken := decide (c.val < 512) && s.is (FLT + 4 * g) R.FLT_SPMAP_SERVES && s.rd (FLT + 4 * g) R.FLT_SPMAP_CH == c % 32
    let hit := s.setOn c && !taken && (s.chan c).cause == 0
    let u := setUnit c
    let now := s.opMs ms
    let times := (Tab.get [] s.flt.hist u ++ [now]).drop ((Tab.get [] s.flt.hist u).length - 2)
    let n := (times.filter fun x => now ≤ x + 10000).length
    let fault (o : Host.Outcome State Fault Refusal) (k : Nat) : Prop :=
      (hit = false → Next o fun t => Frame s t [] noWords)
      ∧ (hit = true → n < 3 → Next o fun t =>
          t.rd FLT R.FLT_LAST_UNIT = u ∧ t.rd FLT R.FLT_LAST_CAUSE = k ∧ t.rd FLT R.FLT_LAST_OUTCOME = 1
          ∧ t.rd FLT R.FLT_LAST_OCC = n ∧ (t.chan c).cause = k
          ∧ Tab.get [] t.flt.hist u = times)
      ∧ (hit = true → 3 ≤ n → c.val < 512 → Next o fun t =>
          t.rd FLT R.FLT_PERMCNT = (s.rd FLT R.FLT_PERMCNT + 1) % 2 ^ 32 ∧ t.rd FLT R.FLT_LAST_UNIT = u ∧ t.rd FLT R.FLT_LAST_CAUSE = k)
    fault (exec (.timingServoLoss c ms) s) FC_TIMING ∧ fault (exec (.supplyOvercurrent c ms) s) FC_SUPPLY)
  ∧ (∀ (s : State) (c : Fin 528) (pass : Bool), let x := s.chan c
      (x.cause = 0 ∨ x.iso = false ∨ x.swing.isSome = true → Next (exec (.setRetry c pass) s) fun t => Frame s t [] noWords)
      ∧ (x.cause ≠ 0 → x.iso = true → x.swing = none →
        (pass = true → Next (exec (.setRetry c pass) s) fun t =>
          t.rd FLT R.FLT_TRANSCNT = (s.rd FLT R.FLT_TRANSCNT + 1) % 2 ^ 32 ∧ t.rd FLT R.FLT_LAST_UNIT = setUnit c
          ∧ t.rd FLT R.FLT_LAST_OUTCOME = 0
          ∧ t.chan c = (if c.val < 512 ∧ s.is (CH c) R.CH_CSTAT_SPARE = true then { x with swing := some false }
              else { x with cause := 0, tries := 0, iso := false })
          ∧ Frame s t [.chan c] (words [FLT + R.FLT_TRANSCNT.off, FLT + R.FLT_LAST_UNIT.off]))
        ∧ (pass = false → x.tries < 2 → Next (exec (.setRetry c pass) s) fun t =>
          t.chan c = { x with tries := x.tries + 1 } ∧ Frame s t [.chan c] noWords)
        ∧ (pass = false → 2 ≤ x.tries → c.val < 512 → Next (exec (.setRetry c pass) s) fun t =>
          t.rd FLT R.FLT_PERMCNT = (s.rd FLT R.FLT_PERMCNT + 1) % 2 ^ 32 ∧ t.rd FLT R.FLT_LAST_UNIT = setUnit c
          ∧ t.rd FLT R.FLT_LAST_CAUSE = x.cause % 16 ∧ 2 ≤ t.rd FLT R.FLT_LAST_OUTCOME)))
  ∧ (∀ (s : State) (c : Fin 528) (pass : Bool) (ms : Fin 1000), let due := s.setOn c && (s.chan c).testing
      (due = false → Next (exec (.setSelftestDone c pass ms) s) fun t => Frame s t [] noWords)
      ∧ (due = true → pass = true → Next (exec (.setSelftestDone c pass ms) s) fun t =>
          t.chan c = { s.chan c with testing := false } ∧ Frame s t [.chan c] noWords)
      ∧ (due = true → pass = false → c.val < 512 → Next (exec (.setSelftestDone c pass ms) s) fun t =>
          t.rd FLT R.FLT_PERMCNT = (s.rd FLT R.FLT_PERMCNT + 1) % 2 ^ 32 ∧ t.rd FLT R.FLT_LAST_UNIT = setUnit c
          ∧ t.rd FLT R.FLT_LAST_CAUSE = FC_SELFTEST))
  ∧ (∀ (s : State) (p : Fin 528) (pass : Bool) (ms : Fin 1000), let x := s.eng p
      (x.on = false ∨ x.testing = false → Next (exec (.engineSelftestDone p pass ms) s) fun t => Frame s t [] noWords)
      ∧ (x.on = true → x.testing = true →
        (pass = true → x.failing = false → Next (exec (.engineSelftestDone p pass ms) s) fun t =>
          t.eng p = { x with testing := false } ∧ Frame s t [.eng p] noWords)
        ∧ (pass = true → x.failing = true → Next (exec (.engineSelftestDone p pass ms) s) fun t =>
          t.eng p = { x with testing := false, failing := false, tries := 0 }
          ∧ t.rd FLT R.FLT_TRANSCNT = (s.rd FLT R.FLT_TRANSCNT + 1) % 2 ^ 32 ∧ t.rd FLT R.FLT_LAST_OUTCOME = 0
          ∧ Frame s t [.eng p] (words [FLT + R.FLT_TRANSCNT.off, FLT + R.FLT_LAST_UNIT.off]))
        ∧ (pass = false → x.failing = true → x.tries < 2 → Next (exec (.engineSelftestDone p pass ms) s) fun t =>
          t.eng p = { x with tries := x.tries + 1 } ∧ Frame s t [.eng p] noWords)
        ∧ (pass = false → x.failing = false ∨ 2 ≤ x.tries → p.val < 512 → Next (exec (.engineSelftestDone p pass ms) s) fun t =>
          t.rd FLT R.FLT_PERMCNT = (s.rd FLT R.FLT_PERMCNT + 1) % 2 ^ 32
          ∧ t.rd FLT R.FLT_LAST_CAUSE = if x.failing then FC_PARITY else FC_SELFTEST)))
  ∧ (∀ (s : State) (sp : Fin 16) (prog : Option (Fin 1024 × Word)) (bad : List (Fin 2048)), let q := 512 + sp.val
      ((s.eng q).copyFrom = none → Next (exec (.engineCopyDone sp prog bad) s) fun t => Frame s t [] noWords)
      ∧ ∀ src, (s.eng q).copyFrom = some src → src ≠ q → src < 528 → Next (exec (.engineCopyDone sp prog bad) s) fun t =>
          t.rd FLT R.FLT_PARERR = (s.rd FLT R.FLT_PARERR + bad.length) % 2 ^ 32
          ∧ t.is (ENG q) R.ENG_SERVES_VALID = true ∧ (512 ≤ src → t.is (ENG src) R.ENG_SERVES_VALID = false)
          ∧ ((s.eng q).on = true → (t.eng q).on = true →
            (∀ i : Fin 2048, (t.eng q).dm i = if i ∈ bad then 0 else (s.eng src).dm i)
            ∧ (∀ i : Fin 1024, prog.map (·.1) ≠ some i → Tab.get 0 (t.eng q).prog i = Tab.get 0 (s.eng src).prog i)
            ∧ (t.eng q).copyFrom = none ∧ (t.eng q).st = E_IDLE ∧ (t.eng q).crcBusy = true ∧ (t.eng q).badCopy = !bad.isEmpty))
  ∧ (∀ (s : State) (p : Fin 528), let e := s.logEng p
      let q := s.physEng e
      ((s.eng p).returning = false ∨ (s.eng p).failing = true ∨ s.siteBusy e = true → Next (exec (.engineReturn p) s) fun t => Frame s t [] noWords)
      ∧ ((s.eng p).returning = true → (s.eng p).failing = false → s.siteBusy e = false → q ≠ p → s.flt.freed = [] → Next (exec (.engineReturn p) s) fun t =>
          (t.eng p).prog = (s.eng q).prog ∧ (t.eng p).data = (s.eng q).data ∧ (t.eng p).st = E_IDLE ∧ (t.eng p).crcBusy = true
          ∧ (t.eng p).returning = false ∧ t.is (ENG q) R.ENG_SERVES_VALID = false ∧ (t.eng q).st = E_IDLE
          ∧ (512 ≤ p.val → t.is (ENG p) R.ENG_SERVES_VALID = true)
          ∧ Frame s t [.eng p, .eng q] (words [ENG q + R.ENG_SERVES_VALID.off, ENG p + R.ENG_SERVES_VALID.off])))
  ∧ (∀ (s : State) (ok : Bool),
      let st := if s.flt.store.isSome then s.flt.store else s.prot.store
      (st = none → Next (exec (.configStoreEnd ok) s) fun t => Frame s t [] noWords)
      ∧ ∀ b, st = some b → s.reco.erase ≠ some (.cfgSlot b) → s.reco.eraseQ.contains (.cfgSlot b) = false → s.prot.storeNext = false →
        s.flt.storeAgain = false → s.power.downStep ≠ 2 → Next (exec (.configStoreEnd ok) s) fun t =>
          (if b then t.reco.die.slotB else t.reco.die.slotA) = (if ok then some (s.reco.die.nextGen, s.imageWithMaps)
            else if b then s.reco.die.slotB else s.reco.die.slotA)
          ∧ (if s.flt.store.isSome then t.flt.store = none ∧ t.prot = s.prot else t.prot.store = none ∧ t.flt = s.flt)
          ∧ t.rd FLT R.FLT_STOREFAIL = (s.rd FLT R.FLT_STOREFAIL + if s.flt.store.isSome && !ok then 1 else 0) % 2 ^ 32
          ∧ Frame s t [.reco, .flt, .prot] (words [FLT + R.FLT_STOREFAIL.off]))
  ∧ (∀ (s : State) (g : Fin 16),
      ((s.grp g).replay = [] ∨ s.stepOn g = true ∨ (s.grp g).on = false → Next (exec (.replayStart g) s) fun t => Frame s t [] noWords)
      ∧ ∀ r c, (s.grp g).replay = [r] → (s.grp g).on = true → s.stepOn g = false → s.stepReady g r = true → s.cmd? r.handle = some c →
          c.engs = false → Next (exec (.replayStart g) s) fun t =>
        t.rd FLT R.FLT_REPLAYCNT = (s.rd FLT R.FLT_REPLAYCNT + 1) % 2 ^ 32 ∧ (t.grp g).replay = []
        ∧ (t.grp g).cur.any (fun x => x.line == r.line0 && x.vcnt == 0
            && x.steps.map (fun y => (y.handle, y.sites, y.replays)) == [(r.handle, r.sites, r.replays + 1)]) = true
        ∧ t.rd (GS g) R.GS_STEPCNT = (s.rd (GS g) R.GS_STEPCNT + 1) % 2 ^ 32 ∧ t.rd (GS g) R.GS_PSTAT_LINE = r.line0 % 2 ^ 17
        ∧ (∀ y, c.phase ≠ .done → t.cmd? r.handle = some y → y.rbytes = r.bufMark ∧ y.replays = c.replays + 1 ∧ bitOf y.cflags CF_REPLAYED = true))
  ∧ (∀ (s : State),
      (s.flt.unret = none ∨ s.flt.unretTest = true → Next (exec .unretireStart s) fun t => Frame s t [] noWords)
      ∧ ∀ u, s.flt.unret = some u → s.flt.unretTest = false →
        (s.unitFree u = false → Next (exec .unretireStart s) fun t => Frame s t [] noWords)
        ∧ (s.unitFree u = true → Next (exec .unretireStart s) fun t => t.flt = { s.flt with unretTest := true }
          ∧ (u < 528 ∨ 562 ≤ u → Frame s t [.flt] noWords)))
  ∧ ∀ (s : State) (pass : Bool),
      (s.flt.unret = none ∨ s.flt.unretTest = false → Next (exec (.unretireDone pass) s) fun t => Frame s t [] noWords)
      ∧ ∀ u, s.flt.unret = some u → u < 1090 → s.flt.unretTest = true →
        let leaf := 528 ≤ u ∧ u < 562
        (pass = false ∨ leaf ∧ (s.leaf (u - 528)).on = true ∧ s.lst (u - 528) ≠ L_LOCKED → Next (exec (.unretireDone pass) s) fun t =>
          t.rd FLT R.FLT_UNRES = 3 ∧ t.flt.unret = none ∧ t.rd FLT R.FLT_LAST_UNIT = u ∧ t.rd FLT R.FLT_LAST_CAUSE = FC_SELFTEST
          ∧ t.rd FLT R.FLT_LAST_OUTCOME = 5
          ∧ (¬ leaf → Frame s t [.flt] (words [FLT + R.FLT_UNRES.off, FLT + R.FLT_LAST_UNIT.off])))
        ∧ (pass = true → ¬ leaf ∨ s.lst (u - 528) = L_LOCKED → Next (exec (.unretireDone pass) s) fun t =>
          t.rd FLT R.FLT_UNRES = 1 ∧ t.flt.unret = none ∧ t.rd FLT R.FLT_LAST_UNIT = u ∧ t.rd FLT R.FLT_LAST_OUTCOME = 4
          ∧ Tab.get [] t.flt.hist u = []
          ∧ (528 ≤ u → u < 560 → bitOf (t.rd FLT R.FLT_LEAFRET) (u - 528) = false)
          ∧ (560 ≤ u → u < 562 → bitOf (t.rd FLT R.FLT_SYSRET) (u - 560) = false))

/-- An evaluation shows readings, temperatures and levels, and enters SAFE when it must; seconds and lease count; records
are triggered, written or lost (R283, R334, R349, R352, R353, R355, R358, R363, R369, R370, R375, R381). -/
def Obligations.HousekeepingAndTheRecorder : Prop :=
  (∀ (s : State) (r : Round) (levels : List (Fin 528)) (ms : Fin 1000),
    let ready := s.power.aon && (s.mode != MODE_BOOT || decide (4 ≤ s.power.bootPhase))
    (ready = false → Next (exec (.hkEvaluation r [] levels ms) s) fun t => Frame s t [] noWords)
    ∧ (ready = true → Next (exec (.hkEvaluation r [] [] ms) s) fun t =>
      let ns := (List.range 24).filter s.hasSensor
      let ok := ns.filter t.sensorOk
      let bad := ns.filter fun n => !t.sensorOk n
      let trep := maxInt 0 (ok.map r.read)
      let tctl := maxInt trep (bad.map fun n => (Tab.get {} t.therm.sens n).subst)
      let entry (k : Nat) : Int := t.thr R.HK_TCFG_THROTTLE + [0, 32, 56].getD k 0
      let reached := if entry 2 ≤ tctl then 3 else if entry 1 ≤ tctl then 2 else if entry 0 ≤ tctl then 1 else 0
      let shut := t.thr R.HK_TCFG_SHUTDOWN ≤ tctl
      let running := 2 ≤ s.mode ∧ s.mode ≤ 6
      (∀ n ∈ ns, t.rd (HK + 4 * n) R.HK_SENS_READ = (r.reads.getD n 0).toNat) ∧ t.rd HK R.HK_TSTAT_NFAIL = bad.length
      ∧ (ok ≠ [] → t.rd HK R.HK_TEMP_TREP = ofSigned 8 (-(-trep / 8)) ∧ t.rd HK R.HK_TEMP_TCTL = ofSigned 8 (-(-tctl / 8))
          ∧ max reached (min 2 (s.rd HK R.HK_TFLOOR)) ≤ t.throttle ∧ s.throttle ≤ t.throttle + 1
          ∧ (s.throttle < t.throttle → t.throttle = max reached (min 2 (s.rd HK R.HK_TFLOOR))
              ∧ t.rd HK R.HK_THRCNT = (s.rd HK R.HK_THRCNT + 1) % 2 ^ 32)
          ∧ (t.throttle ≤ s.throttle → t.rd HK R.HK_THRCNT = s.rd HK R.HK_THRCNT)
          ∧ t.is HK R.HK_TSTAT_SHUT = decide shut ∧ (t.thr R.HK_TCFG_WARN ≤ tctl → t.is HK R.HK_TSTAT_WARN = true)
          ∧ (shut → running → t.mode = MODE_SAFE ∧ t.rd GLB R.GLB_MODE_SAFE_CAUSE = SC_SHUTDOWN)
          ∧ (¬ shut → 3 ≤ bad.length → running → t.mode = MODE_SAFE ∧ t.rd GLB R.GLB_MODE_SAFE_CAUSE = SC_SENSORS)
          ∧ (¬ shut → bad.length < 3 → Frame s t [.therm, .reco, .cmds] (block HK 0x200)))
      ∧ (ok = [] → t.freeCtr = s.freeCtr + 1))
    ∧ (ready = true → ∀ c : Fin 528, let u := setUnit c
        s.setOn c = true → (s.chan c).cause = 0 → Tab.get [] s.flt.hist u = [] → s.is (SPM (u / 33)) R.FLT_SPMAP_SERVES = false →
        Next (exec (.hkEvaluation r [] [c] ms) s) fun t => t.rd FLT R.FLT_LAST_UNIT = u ∧ t.rd FLT R.FLT_LAST_CAUSE = FC_LEVEL)
    ∧ ∀ x y : Word, ready = true → getBits x 0 2 ≠ getBits y 0 2 →
        Next (exec (.hkEvaluation r [(BitVec.ofNat 24 (HK + R.HK_TFLOOR.off), x, y, x)] [] ms) s) fun t =>
          t.rd HK R.HK_TFLOOR = getBits x 0 2 ∧ t.rd GLB R.GLB_TMBDIS = (s.rd GLB R.GLB_TMBDIS + 1) % 2 ^ 32)
  ∧ (∀ s : State,
      (s.power.aon = false → Next (exec .operatingSecond s) fun t => Frame s t [] noWords)
      ∧ (s.power.aon = true → Next (exec .operatingSecond s) fun t =>
        let lease := s.rd PROT R.PROT_STATE_PSTATE = 2 ∧ s.is PROT R.PROT_STATE_LEASE = true
        t.reco = { s.reco with opsec := s.reco.opsec + 1 }
        ∧ (lease → s.prot.leaseSec < 59 → t.prot = { s.prot with leaseSec := s.prot.leaseSec + 1 } ∧ Frame s t [.reco, .prot] noWords)
        ∧ (lease → 59 ≤ s.prot.leaseSec → t.rd PROT R.PROT_STATE_LEASE = s.rd PROT R.PROT_STATE_LEASE - 1
            ∧ t.prot = { s.prot with leaseSec := 0 } ∧ Frame s t [.reco, .prot] (words [PROT + R.PROT_STATE_LEASE.off]))
        ∧ (¬ lease → Frame s t [.reco] noWords))
      ∧ (let spent := s.rd PROT R.PROT_STATE_PSTATE = 2 ∧ s.is PROT R.PROT_STATE_LEASE = false
        (¬ spent → Next (exec .leaseExpiry s) fun t => Frame s t [] noWords)
        ∧ (spent → Next (exec .leaseExpiry s) fun t => t.rd PROT R.PROT_STATE_PSTATE = 1 ∧ t.rd PROT R.PROT_STATE_DBGLVL ≤ 1
            ∧ Frame s t [] (words [PROT + R.PROT_STATE_PSTATE.off])))
      ∧ (let m := if s.rd REC R.REC_CFG = 0 then 60 else min 1440 (s.rd REC R.REC_CFG)
        let due := s.power.aon = true ∧ s.reco.lastTrigSec + 60 * m ≤ s.reco.opsec
        (¬ due → Next (exec .recordPeriodic s) fun t => Frame s t [] noWords)
        ∧ (due → Next (exec .recordPeriodic s) fun t => t.reco.waiting.length = s.reco.waiting.length + 1
            ∧ t.reco.waiting.getLast?.any (fun d => d.seq == s.reco.nextSeq && d.typ == 0 && d.opsec == s.reco.opsec) = true
            ∧ t.reco.nextSeq = s.reco.nextSeq + 1 ∧ t.reco.lastTrigSec = s.reco.opsec ∧ t.reco.die = s.reco.die
            ∧ Frame s t [.reco] (words [REC + R.REC_STAT_STATE.off]))))
  ∧ (∀ (s : State) (ok : Bool), let r := s.reco
      let lost (t : State) (d : RecData) (rest : List RecData) : Prop :=
        t.rd REC R.REC_FAILCNT = (s.rd REC R.REC_FAILCNT + 1) % 2 ^ 32 ∧ t.reco.unrecorded = true ∧ t.reco.waiting = rest
        ∧ t.reco.die.used = r.die.used + 1 ∧ t.reco.die.recs = r.die.recs ∧ (d.typ ≠ 1 → Frame s t [.reco] (block REC 0x200))
      let mapped (t : State) : Prop := let n := sectorOf r.die.used
        t.reco.attempts = r.attempts + 1 ∧ t.reco.die = { r.die with maps := r.die.maps ++ [(n, r.die.maps.length)] }
        ∧ t.reco.pageDone = false ∧ t.rd REC R.REC_REMAPS = (s.rd REC R.REC_REMAPS + 1) % 2 ^ 32 ∧ Frame s t [.reco] (block REC 0x200)
      (r.page = false → Next (exec (.recordPageDone ok) s) (fun t => Frame s t [] noWords)
        ∧ Next (exec (.recordStored ok) s) (fun t => Frame s t [] noWords) ∧ Next (exec .recordDieTimeout s) fun t => Frame s t [] noWords)
      ∧ (r.page = true →
        (r.pageDone = true → Next (exec (.recordPageDone ok) s) fun t => Frame s t [] noWords)
        ∧ (r.pageDone = false → Next (exec (.recordStored ok) s) fun t => Frame s t [] noWords)
        ∧ (r.pageDone = false → ok = true → Next (exec (.recordPageDone ok) s) fun t =>
            t.reco = { r with pageDone := true } ∧ Frame s t [.reco] noWords)
        ∧ (r.attempts < 2 → r.die.maps.length < 256 → ok = false →
            (r.pageDone = false → Next (exec (.recordPageDone ok) s) mapped)
            ∧ (r.pageDone = true → Next (exec (.recordStored ok) s) mapped))
        ∧ ∀ d rest, r.waiting = d :: rest →
          Next (exec .recordDieTimeout s) (fun t => lost t d rest)
          ∧ (2 ≤ r.attempts → ok = false → r.pageDone = false → Next (exec (.recordPageDone ok) s) fun t => lost t d rest)
          ∧ (ok = true → r.pageDone = true → Next (exec (.recordStored ok) s) fun t =>
              t.reco.waiting = rest ∧ t.reco.unrecorded = false ∧ t.reco.die.used = r.die.used + 1
              ∧ t.rd REC R.REC_WRITES = (s.rd REC R.REC_WRITES + 1) % 2 ^ 32
              ∧ (sectorOf r.die.used < 64 → t.reco.die.recs.dropLast = r.die.recs ∧ t.reco.die.recs.getLast?.any (fun x =>
                  x.pos == r.die.used && x.data.seq == d.seq && x.data.typ == d.typ && x.data.opsec == d.opsec && x.data.thist == d.thist) = true)
              ∧ (d.typ = 0 ∨ d.typ = 4 → Frame s t [.reco] (block REC 0x200)))))
  ∧ (∀ s : State,
      (s.reco.erase = none → Next (exec .sectorEraseDone s) fun t => Frame s t [] noWords)
      ∧ (∀ e, s.reco.erase = some e → s.reco.eraseQ = [] → Next (exec .sectorEraseDone s) fun t =>
          t.reco.erase = none ∧ t.reco.die = s.reco.die.erased e ∧ t.reco.die.journal = none ∧ Frame s t [.reco] (block REC 0x200))
      ∧ (s.reco.recovering = false → Next (exec .recoverDone s) fun t => Frame s t [] noWords)
      ∧ (s.reco.recovering = true → Next (exec .recoverDone s) fun t =>
          t.reco.recovering = false ∧ t.reco.gapOf = none ∧ Frame s t [.reco] (block REC 0x200)
          ∧ (s.reco.gapOf = none → t.reco.die.recs = (match s.reco.die.journal with | some e => s.reco.die.erased e | none => s.reco.die).recs)
          ∧ (∀ g, s.reco.gapOf = some g → t.rd REC R.REC_GAPS = (s.rd REC R.REC_GAPS + 1) % 2 ^ 32 ∧ t.reco.die.used = s.reco.die.used + 1)))
  ∧ (∀ (s : State) (src : Src) (soon : Bool) (op : Fin 3), s.Takes src REC R.REC_CTRL_GO →
      let a := REC + R.REC_CTRL_GO.off
      let taken (o : Host.Outcome State Fault Refusal) (k res : Nat) (more : List Nat) : Prop := Next o fun t =>
        t.is REC R.REC_CTRL_GO = true ∧ t.is REC R.REC_CTRL_VALID = false
        ∧ t.box a = { busy := true, op := k, result := res, q := [s.word (REC + R.REC_D0.off), s.word (REC + R.REC_D1.off)] }
        ∧ Frame s t [.box a, .reco] (words (reqWords REC R.REC_CTRL_GO ++ more))
      let r := s.reco
      let busy := r.page || !r.waiting.isEmpty || r.erase.isSome || r.recovering || (soon && r.trigSeen)
      taken (exec (.recRead src) s) 0 0 [] ∧ taken (exec (.recLive src) s) 1 0 [] ∧ taken (exec (.recTime src) s) 2 0 []
      ∧ taken (exec (.recSetepoch src) s) 3 0 [] ∧ taken (exec (.recReservedOp src op) s) (5 + op) 1 []
      ∧ taken (exec (.recWrite src soon) s) 4 (if busy then 2 else 0) [REC + R.REC_STAT_STATE.off]
      ∧ Next (exec (.recWrite src soon) s) fun t => t.reco.nextSeq = r.nextSeq + if busy then 0 else 1)
  ∧ ∀ (s : State), let a := REC + R.REC_CTRL_GO.off
      let x := s.box a
      let r := s.reco
      x.busy = true → x.result < 8 → x.q.length ≤ 2 → Next (exec .recCtrlComplete s) fun t =>
        t.is REC R.REC_CTRL_GO = false ∧ t.is REC R.REC_CTRL_VALID = true ∧ t.box a = {}
        ∧ (x.op ≠ 0 → t.rd REC R.REC_CTRL_RESULT = x.result)
        ∧ (x.op = 0 → (r.die.answers = false → t.rd REC R.REC_CTRL_RESULT = 4)
            ∧ (r.die.answers = true → ∀ d, r.die.recs.find? (fun r => r.data.seq == (x.q.getD 0 0).toNat) = some d →
                t.rd REC R.REC_CTRL_RESULT = x.result ∧ t.word (REC + R.REC_Q0.off) = BitVec.ofNat 32 (r.die.addr d.pos)
                ∧ ∀ i < 64, t.word (REC + R.REC_WIN.off + 4 * i) = d.data.words.getD i 0)
            ∧ (r.die.answers = true → r.die.recs.find? (fun r => r.data.seq == (x.q.getD 0 0).toNat) = none → t.rd REC R.REC_CTRL_RESULT = 3))
        ∧ (x.op = 2 → t.word (REC + R.REC_Q0.off + 4) = BitVec.ofNat 32 r.opsec)
        ∧ (x.op = 3 → t.reco.hostEpochNext = some ((x.q.getD 0 0).toNat + (x.q.getD 1 0).toNat * 2 ^ 32))
        ∧ Frame s t (.box a :: if x.op = 3 then [.reco] else []) (block REC 0x200)

/-- ARM publishes a challenge or is refused; a key over its own interface is taken once; the second correct key applies
the change; every other end applies nothing (R383, R384, R386, R387, R388, R389, R390, R391, R395). -/
def Obligations.TwoKeyCommit : Prop :=
  ∀ (s : State) (src : Src) (v : Word) (ms : Fin 1000),
    let live := s.is PROT R.PROT_CTRL_LIVE
    let chal := s.rd PROT R.PROT_CHAL
    let p := s.prot
    let pst := s.rd PROT R.PROT_STATE_PSTATE
    let now := s.opMs ms
    let cfgw := [PROT + R.PROT_CFGWA.off, PROT + R.PROT_CFGWK.off]
    let ctrl := [PROT + R.PROT_CTRL_RESULT.off, PROT + R.PROT_CHAL.off, PROT + R.PROT_KEYA.off, PROT + R.PROT_KEYB.off]
    let passes (k a u : Nat) : Bool :=
      match k with
      | 1 => pst == 0
      | 2 => (pst == 1 || pst == 3) && decide (1 ≤ a) && decide (a ≤ 240)
      | 3 => pst == 2
      | 4 => decide (u ≤ 1089)
      | 5 => true
      | 6 => true
      | _ => false
    let ended (t : State) (res : Nat) : Prop :=
      t.rd PROT R.PROT_CTRL_RESULT = res ∧ t.is PROT R.PROT_CTRL_LIVE = false ∧ t.is PROT R.PROT_CTRL_AOK = false
      ∧ t.is PROT R.PROT_CTRL_BOK = false ∧ t.rd PROT R.PROT_CHAL = 0 ∧ t.rd PROT R.PROT_KEYA = 0 ∧ t.rd PROT R.PROT_KEYB = 0
      ∧ t.prot.prevChal = chal
    let failed (t : State) (res : Nat) : Prop :=
      ended t res ∧ t.rd PROT R.PROT_FAILCNT = (s.rd PROT R.PROT_FAILCNT + 1) % 2 ^ 32
      ∧ t.prot = { p with prevChal := chal, failRun := p.failRun + 1, lockUntil := if 3 ≤ p.failRun then now + 60000 else p.lockUntil }
      ∧ Frame s t [.prot, .reco] (words (ctrl ++ cfgw ++ [PROT + R.PROT_FAILCNT.off]))
    let key (o : Host.Outcome State Fault Refusal) (own : Src) (f ok other : Fld) : Prop :=
      (s.access src = false → Next o fun t => Frame s t [] noWords)
      ∧ (s.access src = true →
        (src ≠ own ∨ live = false ∨ s.is PROT ok = true → Next o fun t =>
          t.rd GLB R.GLB_LASTREF_CAUSE = RC_BOLT ∧ t.rd GLB R.GLB_LASTREF_OFFSET = PROT + f.off
          ∧ t.rd GLB R.GLB_REFUSED = (s.rd GLB R.GLB_REFUSED + 1) % 2 ^ 32
          ∧ Frame s t [.reco] (words [GLB + R.GLB_REFUSED.off, GLB + R.GLB_LASTREF_OFFSET.off]))
        ∧ (src = own → live = true → s.is PROT ok = false →
          (v.toNat ≠ chal → Next o fun t => failed t 3)
          ∧ (v.toNat = chal → s.is PROT other = false → Next o fun t =>
              t.rd PROT f = v.toNat ∧ t.is PROT ok = true ∧ t.is PROT other = false ∧ t.is PROT R.PROT_CTRL_LIVE = true
              ∧ t.rd PROT R.PROT_CHAL = chal ∧ Frame s t [.reco] (words ([PROT + f.off, PROT + ok.off] ++ cfgw)))
          ∧ (v.toNat = chal → s.is PROT other = true →
            (passes p.kind p.arg p.unit = false → Next o fun t => ended t 5 ∧ t.prot = { p with prevChal := chal }
              ∧ Frame s t [.prot, .reco] (words (ctrl ++ cfgw)))
            ∧ (passes p.kind p.arg p.unit = true → Next o fun t => ended t 2
              ∧ t.rd PROT R.PROT_COMMITS = (s.rd PROT R.PROT_COMMITS + 1) % 2 ^ 32 ∧ t.prot.failRun = 0 ∧ t.prot.lockUntil = 0
              ∧ t.rd PROT R.PROT_FAILCNT = s.rd PROT R.PROT_FAILCNT
              ∧ (p.kind = 1 → t.rd PROT R.PROT_STATE_PSTATE = 1 ∧ t.rd PROT R.PROT_STATE_DBGLVL ≤ 1)
              ∧ (p.kind = 2 → t.rd PROT R.PROT_STATE_PSTATE = 2 ∧ t.rd PROT R.PROT_STATE_LEASE = p.arg ∧ t.prot.leaseSec = 0
                  ∧ t.image = s.image)
              ∧ (p.kind = 3 → t.rd PROT R.PROT_STATE_PSTATE = 1 ∧ t.rd PROT R.PROT_STATE_LEASE = 0 ∧ t.rd PROT R.PROT_STATE_DBGLVL ≤ 1)
              ∧ (p.kind = 5 → t.word (PROT + R.PROT_DIG.off + 4 * (p.arg % 16)) = p.dval)
              ∧ (p.kind = 6 → t.rd PROT R.PROT_STATE_DBGMAX = p.arg % 4 ∧ t.rd PROT R.PROT_STATE_PSTATE = pst
                  ∧ t.rd PROT R.PROT_STATE_DBGLVL ≤ p.arg % 4)
              ∧ (p.kind = 2 ∨ p.kind = 3 → Frame s t [.prot, .reco]
                  (words (ctrl ++ cfgw ++ [PROT + R.PROT_STATE_PSTATE.off, PROT + R.PROT_COMMITS.off])))
              ∧ (p.kind = 1 ∨ p.kind = 5 ∨ p.kind = 6 → s.flt.store = none → p.store = none →
                  t.prot.store = some s.reco.die.storeB ∧ Frame s t [.prot, .reco, .config]
                  (oneOf [block PROT 0x200, block REC 0x200]))))))
    (s.Takes src PROT R.PROT_CTRL_ARM → s.is PROT R.PROT_CTRL_ABORT = false →
      let k := s.rd PROT R.PROT_STAGE_KIND
      let a := s.rd PROT R.PROT_STAGE_ARG
      let u := s.rd FLT R.FLT_UNRET
      let res := if passes k a u = false then 5 else if s.mode = MODE_BOOT then 9 else if live = true then 8
        else if now < p.lockUntil then 7 else 1
      Next (exec (.arm src ms) s) fun t => t.rd PROT R.PROT_CTRL_RESULT = res ∧ t.is PROT R.PROT_CTRL_ARM = false
        ∧ (res ≠ 1 → t.rd PROT R.PROT_FAILCNT = (s.rd PROT R.PROT_FAILCNT + if res = 7 then 1 else 0) % 2 ^ 32
            ∧ Frame s t [.reco] (words ([PROT + R.PROT_CTRL_RESULT.off, PROT + R.PROT_FAILCNT.off] ++ cfgw)))
        ∧ (res = 1 → t.is PROT R.PROT_CTRL_LIVE = true ∧ t.rd PROT R.PROT_CHAL ≠ 0 ∧ t.rd PROT R.PROT_CHAL ≠ p.prevChal
            ∧ t.prot = { p with kind := k, arg := a, dval := s.word (PROT + R.PROT_DVAL.off), unit := u }
            ∧ Frame s t [.prot, .reco, .free] (words ([PROT + R.PROT_CTRL_RESULT.off, PROT + R.PROT_CHAL.off] ++ cfgw))))
    ∧ (s.Takes src PROT R.PROT_CTRL_ABORT →
      (live = true → Next (exec (.abort src) s) fun t => ended t 6 ∧ t.prot = { p with prevChal := chal }
        ∧ Frame s t [.prot, .reco] (words (ctrl ++ cfgw)))
      ∧ (live = false → Next (exec (.abort src) s) fun t => Frame s t [.reco] (words cfgw)))
    ∧ key (exec (.keyaWrite src v ms) s) .pcie R.PROT_KEYA R.PROT_CTRL_AOK R.PROT_CTRL_BOK
    ∧ key (exec (.keybWrite src v ms) s) .keyway R.PROT_KEYB R.PROT_CTRL_BOK R.PROT_CTRL_AOK
    ∧ (let half := live = true ∧ (s.is PROT R.PROT_CTRL_AOK = true ∨ s.is PROT R.PROT_CTRL_BOK = true)
      let none_ := live = true ∧ s.is PROT R.PROT_CTRL_AOK = false ∧ s.is PROT R.PROT_CTRL_BOK = false
      (half → Next (exec (.keyWindowExpiry ms) s) fun t => failed t 4)
      ∧ (¬ half → Next (exec (.keyWindowExpiry ms) s) fun t => Frame s t [] noWords)
      ∧ (none_ → Next (exec (.armWindowExpiry ms) s) fun t => failed t 4)
      ∧ (¬ none_ → Next (exec (.armWindowExpiry ms) s) fun t => Frame s t [] noWords))

/-- The test access port: what each instruction selects and shows, what is not allowed selects BYPASS, and the debug
levels gate accesses and engine control (R392, R393, R394, R395, R396, R397, R398, R441). -/
def Obligations.TestAccessPort : Prop :=
  ∀ s : State,
    let up := s.power.aon = true ∧ (s.mode = MODE_BOOT → 4 ≤ s.power.bootPhase)
    let lvl := s.rd PROT R.PROT_STATE_DBGLVL
    let pst := s.rd PROT R.PROT_STATE_PSTATE
    let power := if s.mode = MODE_SAFE then 2 else if MODE_CONFIGURE ≤ s.mode then 1 else 0
    let ir := Out.tdo (1 + (if s.tap.refused = true then 4 else 0) + 8 * lvl + 32 * power)
    let absent (i : Nat) : Bool := (s.variant == .vl256f && decide (768 ≤ i) && decide (i < 1536))
      || (!s.variant.mc && decide (1545 ≤ i) && decide (i < 1550))
    let num (o : Option Out) : Nat := match o with | some (.tdo n) => n | some (.pins n) => n | _ => 0
    let cells (x : BitVec 1560) (n : Nat) : Prop := n < 2 ^ 1560 ∧ ∀ i < 1560, n.testBit i = (x.getLsbD i && !absent i)
    let pins (o : Option Out) (x : BitVec 1560) : Prop := o = some (.pins (num o)) ∧ cells x (num o)
    let tdo (o : Option Out) (x : BitVec 1560) : Prop := o = some (.tdo (num o)) ∧ cells x (num o)
    let quiet (o : Host.Outcome State Fault Refusal) : Prop :=
      ¬ up → Next o fun t => Frame s t [] noWords
    let refused (o : Host.Outcome State Fault Refusal) : Prop :=
      Next o fun t => t.tap = { s.tap with ir := 0xFF, refused := true } ∧ t.out.take 1 = [ir] ∧ Frame s t [.tap] noWords
    let taken (c : Nat) (t : State) : Prop := t.tap.ir = c ∧ t.tap.refused = false ∧ t.out.take 1 = [ir]
    let linkOff (t : State) : Prop := t.is HIF R.HIF_LINK_UP = false
      ∧ (t.linkLost = true ↔ s.is HIF R.HIF_LINK_UP = true ∨ s.linkLost = true) ∧ Frame s t [.tap, .link] (words [HIF + R.HIF_LINK_UP.off])
    (∀ cap load : BitVec 1560,
      let drive (o : Host.Outcome State Fault Refusal) (c : Nat) : Prop := quiet o ∧ (up → power ≠ 0 → refused o) ∧ (up → power = 0 →
        Next o fun t => taken c t ∧ t.tap = { s.tap with ir := c, refused := false, boundary := load } ∧ linkOff t
          ∧ pins t.out[1]? s.tap.boundary ∧ tdo t.out[2]? cap ∧ pins t.out[3]? load)
      drive (exec (.extest cap load) s) 0 ∧ drive (exec (.extestPulse cap load) s) 5 ∧ drive (exec (.extestTrain cap load) s) 6
      ∧ quiet (exec (.samplePreload cap load) s)
      ∧ (up → Next (exec (.samplePreload cap load) s) fun t => taken 1 t
          ∧ t.tap = { s.tap with ir := 1, refused := false, boundary := load }
          ∧ Frame s t [.tap] noWords ∧ tdo t.out[1]? cap))
    ∧ quiet (exec .clamp s) ∧ quiet (exec .highz s) ∧ quiet (exec .idcode s)
    ∧ (up → power ≠ 0 → refused (exec .clamp s) ∧ refused (exec .highz s))
    ∧ (up → power = 0 → Next (exec .clamp s) (fun t => taken 3 t ∧ t.tap = { s.tap with ir := 3, refused := false } ∧ linkOff t
            ∧ pins t.out[1]? s.tap.boundary)
        ∧ Next (exec .highz s) fun t => taken 4 t ∧ t.tap = { s.tap with ir := 4, refused := false } ∧ linkOff t
            ∧ t.out.take 2 = [ir, .pins (2 ^ 1553)])
    ∧ (up → Next (exec .idcode s) fun t => taken 2 t ∧ t.tap = { s.tap with ir := 2, refused := false } ∧ Frame s t [.tap] noWords
        ∧ (let n := num t.out[1]?
          t.out[1]? = some (.tdo n) ∧ n < 2 ^ 32 ∧ n / 2 ^ 12 % 2 ^ 16 = 0x0512 ∧ n % 2 = 1))
    ∧ (∀ c : BitVec 8, 0x12 < c.toNat → quiet (exec (.bypass c) s) ∧ (up → Next (exec (.bypass c) s) fun t =>
        taken 0xFF t ∧ t.tap = { s.tap with ir := 0xFF, refused := false } ∧ Frame s t [.tap] noWords))
    ∧ (s.power.aon = false → Next (exec .tapReset s) fun t => Frame s t [] noWords)
    ∧ (s.power.aon = true → Next (exec .tapReset s) fun t => t.tap = { s.tap with ir := 2, refused := false }
        ∧ t.word (PROT + R.PROT_STATE_DBGLVL.off) = putBits (s.word (PROT + R.PROT_STATE_DBGLVL.off)) R.PROT_STATE_DBGLVL.lsb 2 0
        ∧ Frame s t [.tap] (words [PROT + R.PROT_STATE_DBGLVL.off]))
    ∧ (∀ req : BitVec 2, quiet (exec (.dbgLevel req) s) ∧ (up → Next (exec (.dbgLevel req) s) fun t => taken 0x10 t
        ∧ t.word (PROT + R.PROT_STATE_DBGLVL.off) = putBits (s.word (PROT + R.PROT_STATE_DBGLVL.off)) R.PROT_STATE_DBGLVL.lsb 2
            (min (min req.toNat (s.rd PROT R.PROT_STATE_DBGMAX)) (if pst = 1 ∨ pst = 3 then 1 else 2))
        ∧ (t.rd PROT R.PROT_STATE_DBGLVL ≠ 2 → Frame s t [.tap] (words [PROT + R.PROT_STATE_DBGLVL.off]))
        ∧ Frame s t (.tap :: (List.range 16).map .grp) (words [PROT + R.PROT_STATE_DBGLVL.off])
        ∧ (t.rd PROT R.PROT_STATE_DBGLVL = 2 → ∀ g < s.variant.groups, let hit := (s.grp g).sitesOf 0xFFFFFFFF
          t.grp g = { s.grp g with
            cur := (s.grp g).cur.map fun st => { st with steps := st.steps.map fun x =>
              if x.sites &&& hit = 0 then x else { x with suspect := true } } })))
    ∧ (∀ (wr : Bool) (waddr : BitVec 22) (data : Word) (late : Bool) (m : Meas),
      let a := 4 * waddr.toNat
      let shown (t : State) : Prop := taken 0x11 t ∧ t.out.take 2 = [ir, .tdo (s.tap.data.toNat + s.tap.stat * 2 ^ 56)]
      let program := wr = false ∧ (pst = 1 ∨ pst = 3) ∧ programWindow a = true
      quiet (exec (.dbgAccess wr waddr data late m) s)
      ∧ (up → s.kwReady (a / 0x1000 * 0x1000) = true →
        (lvl = 0 → refused (exec (.dbgAccess wr waddr data late m) s))
        ∧ (1 ≤ lvl → (wr = true ∧ lvl = 1) ∨ program → Next (exec (.dbgAccess wr waddr data late m) s) fun t =>
            shown t ∧ t.tap.data = 0 ∧ t.tap.stat = 1 ∧ Frame s t [.tap] noWords)
        ∧ (1 ≤ lvl → (wr = false ∨ 2 ≤ lvl) → ¬ program → late = true → Next (exec (.dbgAccess wr waddr data late m) s) fun t =>
            shown t ∧ t.tap.stat = 3 ∧ (wr = false → t.tap.data = 0xFFFFFFFF) ∧ Frame s t [.tap] noWords)
        ∧ (1 ≤ lvl → wr = false → ¬ program → late = false → Next (exec (.dbgAccess wr waddr data late m) s) fun t =>
            shown t ∧ t.tap.data = s.readReg a ∧ t.tap.stat = 0 ∧ Frame s t [.tap] noWords)
        ∧ (2 ≤ lvl → wr = true → late = false → a = REC + R.REC_CFG.off → Next (exec (.dbgAccess wr waddr data late m) s) fun t =>
            shown t ∧ t.tap.stat = 0 ∧ t.rd REC R.REC_CFG = getBits data R.REC_CFG.lsb R.REC_CFG.width
            ∧ t.rd PROT R.PROT_CFGWK = (s.rd PROT R.PROT_CFGWK + 1) % 2 ^ 32 ∧ t.rd PROT R.PROT_CFGWA = s.rd PROT R.PROT_CFGWA
            ∧ Frame s t [.tap, .reco, .power] (words [REC + R.REC_CFG.off, PROT + R.PROT_CFGWK.off]))))
    ∧ ∀ e w : BitVec 10,
      let n := e.toNat
      let x := s.eng n
      let there := n < 528 ∧ s.hasEng n = true ∧ x.on = true
      let shown (t : State) : Prop := taken 0x12 t ∧ t.out.take 2 = [ir, .tdo (s.tap.engStat * 2 ^ 13)]
      let control (o : Host.Outcome State Fault Refusal) (y : Engine) : Prop := quiet o ∧ (up → lvl = 0 → refused o)
        ∧ (up → 1 ≤ lvl → lvl < 2 ∨ ¬ there → Next o fun t => shown t ∧ Frame s t [.tap] noWords)
        ∧ (up → 2 ≤ lvl → there → Next o fun t => shown t ∧ t.eng n = y ∧ Frame s t [.tap, .eng n] noWords)
      quiet (exec (.dbgEngStatus e) s) ∧ (up → lvl = 0 → refused (exec (.dbgEngStatus e) s))
      ∧ (up → 1 ≤ lvl → Next (exec (.dbgEngStatus e) s) fun t => shown t ∧ Frame s t [.tap] noWords
          ∧ (there → t.tap.engStat = x.pc % 1024 + if x.gated = true then 1024 else 0) ∧ (¬ there → t.tap.engStat = 0))
      ∧ control (exec (.dbgEngGate e) s) { x with gated := true }
      ∧ control (exec (.dbgEngStep e) s) { x with stepOne := x.gated }
      ∧ control (exec (.dbgEngUngate e) s) { x with gated := false, stepOne := false }
      ∧ control (exec (.dbgEngBreakSet e w) s) { x with brk := some w.toNat }
      ∧ control (exec (.dbgEngBreakClear e) s) { x with brk := none }

/-- A step makes the command at the front of the queue on the state with the rest of the queue; with none waiting, one
reference period passes (R43, R132, R154, R271). The passing of a period on an empty queue is the model's choice (log
entry 2). -/
def Obligations.StepTakesTheFrontCommand : Prop :=
  (∀ (s : State) (c : Instr) (rest : List Instr), step { s with pending := c :: rest } = exec c { s with pending := rest })
  ∧ ∀ s : State, s.pending = [] → Next (step s) fun t => t.pending = []
      ∧ (s.running = true → t.epoch = (s.epoch + 1) % 2 ^ 48 ∧ t.running = true)
      ∧ (s.running = false → s.power.clkRoot = 2 ∨ s.ref.qualified = false → t.epoch = s.epoch ∧ t.running = false)
      ∧ (∀ n < 32, s.lst n = L_HOLDOVER → s.ref.inForce ≠ 0 → t.rd (LP n) R.LP_HOLDT
          = min 0xFFFFFFFF (s.rd (LP n) R.LP_HOLDT + ((s.leaf n).holdTicks + 1000000) / s.ref.inForce))
      ∧ (s.power.clkRoot = 2 → t.chain = s.chain)
      ∧ Frame s t ([.epoch, .chain, .free] ++ s.loopParts ++ (s.leaves.map fun e => .leaf e.1)
            ++ s.groups.flatMap fun e => (List.range 32).map fun k => .chan (32 * e.1 + k))
          (words ((s.leaves.map fun e => LP e.1 + R.LP_HOLDT.off) ++ (s.groups.map fun e => OUT e.1 + R.OUT_PWRST.off)
            ++ s.groups.flatMap fun e => (List.range 32).map fun k => CH (32 * e.1 + k) + R.CH_CLIPCNT.off))

/-- At reset the module is OFF and unpowered, every register reads its Reset column, no unit is on, no memory lists a word
and no command waits (R32, R242, R272, R278, R316, R383, R442). The variant of State.reset is the model's choice (log
entry 1). -/
def Obligations.ResetState : Prop :=
  let s := State.reset
  s.mode = MODE_OFF ∧ s.power = {} ∧ s.power.aon = false ∧ s.power.host = false ∧ s.power.clk = false ∧ s.pending = [] ∧ s.out = []
  ∧ (∀ a, s.word a = resetWord s.variant a)
  ∧ s.rd GLB R.GLB_ID_DEVICE = 1298 ∧ s.rd GLB R.GLB_ID_FAMILY = 20546 ∧ s.refHz = 100000000
  ∧ (∀ n < 32, s.rd (LP n) R.LP_LCFG_REFDIV = 1 ∧ s.rd (LP n) R.LP_LCFG_ICP = 15 ∧ s.rd (LP n) R.LP_LCFG_LBW = 9 ∧ s.lst n = L_OFF)
  ∧ (∀ v < 64, s.rd (MSIXT v) R.HIF_MSIX_CTRL = 1) ∧ s.rd KWY R.KWY_LEN = 32 ∧ s.rd PROT R.PROT_STATE_DBGLVL = 0
  ∧ s.is PROT R.PROT_CTRL_LIVE = false ∧ s.rd (CH 5) R.CH_TR_TIME0_ON = 512
  ∧ (∀ n, s.leaf n = {}) ∧ (∀ g, s.grp g = {}) ∧ (∀ c, s.chan c = {}) ∧ (∀ e, s.eng e = {}) ∧ (∀ r, s.ring r = {})
  ∧ s.cmds = [] ∧ s.holds = [] ∧ s.tap = { ir := 2 } ∧ s.epoch = 0 ∧ s.running = false
  ∧ s.Settled ∧ s.Canonical

/-- From every state every step answers a next state in which all occurrences are reported and the active level events are
those whose causes hold (R262, R403, R405, R408). -/
def Obligations.EveryStepEndsItsCycle : Prop :=
  ∀ s : State, Next (step s) fun t => t.Settled ∧ t.pending = s.pending.tail ∧ t.variant = s.variant

/-- Every step keeps the canonical form of the tables of registers, units, rings, mailboxes and trims (R75, R285, R291,
R413). -/
def Obligations.TablesStayCanonical : Prop :=
  ∀ s : State, s.Canonical → Next (step s) fun t => t.Canonical
end

