-- ==== Sys2Proof/Laws/Tab.lean ====
section
/-! SUPPORT. Laws/Tab.lean: reading and writing sparse tables, and their canonical form. The reading laws hold of every table. -/

namespace Sys2Proof.Machine

@[simp] theorem Tab.get_nil {α : Type} (d : α) (k : Nat) : Tab.get d [] k = d := rfl

theorem Tab.get_drop {α : Type} (d : α) (t : Tab α) (k j : Nat) : Tab.get d (t.drop k) j = if j = k then d else Tab.get d t j := by
  induction t with
  | nil => simp [Tab.drop]
  | cons e t ih =>
    obtain ⟨a, v⟩ := e
    simp only [Tab.drop, List.filter_cons] at ih ⊢
    by_cases h : a = k
    · subst h
      simp only [bne_self_eq_false, Bool.false_eq_true, ↓reduceIte, ih, Tab.get]
      by_cases h2 : j = a <;> simp [h2]
    · simp only [bne_iff_ne, ne_eq, h, not_false_eq_true, ↓reduceIte, Tab.get, ih]
      by_cases h2 : j = a
      · subst h2; simp [h]
      · simp [h2]

theorem Tab.get_insert {α : Type} (d : α) (t : Tab α) (k : Nat) (v : α) (j : Nat) (hk : ∀ e ∈ t, e.1 ≠ k) :
    Tab.get d (Tab.insert k v t) j = if j = k then v else Tab.get d t j := by
  induction t with
  | nil => simp [Tab.insert, Tab.get]
  | cons e t ih =>
    obtain ⟨a, w⟩ := e
    have ha : a ≠ k := hk (a, w) (by simp)
    have ih := ih fun e he => hk e (by simp [he])
    by_cases h : k < a
    · simp [Tab.insert, h, Tab.get]
    · simp only [Tab.insert, h, ↓reduceIte, Tab.get, ih]
      by_cases h2 : j = a
      · subst h2; simp [ha]
      · simp [h2]

/-- A read after a write. -/
theorem Tab.get_set {α : Type} [DecidableEq α] (d : α) (t : Tab α) (k : Nat) (v : α) (j : Nat) :
    Tab.get d (Tab.set d t k v) j = if j = k then v else Tab.get d t j := by
  unfold Tab.set
  split
  · next h => rw [Tab.get_drop]; simp [h]
  · rw [Tab.get_insert, Tab.get_drop]
    · by_cases h2 : j = k <;> simp [h2]
    · intro e he; simp only [Tab.drop, List.mem_filter, bne_iff_ne] at he; exact he.2

/-- A read of another key, whose default may differ. -/
theorem Tab.get_set_ne {α : Type} [DecidableEq α] (d d' : α) (t : Tab α) (k : Nat) (v : α) (j : Nat) (h : j ≠ k) :
    Tab.get d' (Tab.set d t k v) j = Tab.get d' t j := by
  unfold Tab.set
  split
  · rw [Tab.get_drop]; simp [h]
  · rw [Tab.get_insert, Tab.get_drop]
    · simp [h]
    · intro e he; simp only [Tab.drop, List.mem_filter, bne_iff_ne] at he; exact he.2

@[simp] theorem Tab.get_set_self {α : Type} [DecidableEq α] (d : α) (t : Tab α) (k : Nat) (v : α) :
    Tab.get d (Tab.set d t k v) k = v := by simp [Tab.get_set]

theorem Tab.get_clearRange {α : Type} (d : α) (t : Tab α) (lo n j : Nat) :
    Tab.get d (Tab.clearRange t lo n) j = if lo ≤ j ∧ j < lo + n then d else Tab.get d t j := by
  induction t with
  | nil => simp [Tab.clearRange]
  | cons e t ih =>
    obtain ⟨a, v⟩ := e
    simp only [Tab.clearRange, List.filter_cons] at ih ⊢
    by_cases h : lo ≤ a ∧ a < lo + n
    · simp only [h.1, h.2, decide_true, Bool.and_self, Bool.not_true, Bool.false_eq_true, ↓reduceIte, ih, Tab.get]
      by_cases h2 : j = a
      · subst h2; simp [h]
      · simp [h2]
    · have : (!(decide (lo ≤ a) && decide (a < lo + n))) = true := by
        simp only [Bool.not_eq_true', Bool.and_eq_false_iff, decide_eq_false_iff_not]; omega
      simp only [this, ↓reduceIte, Tab.get, ih]
      by_cases h2 : j = a
      · subst h2; simp [h]
      · simp [h2]

/-! ## The canonical form -/

/-- The keys of a table rise strictly. -/
def Tab.Rising {α : Type} (t : Tab α) : Prop := t.Pairwise fun a b => a.1 < b.1

theorem Tab.risingFrom_iff {α : Type} (o : Option Nat) (t : Tab α) :
    Tab.risingFrom o t = true ↔ (∀ lo, o = some lo → ∀ e ∈ t, lo < e.1) ∧ t.Rising := by
  induction t generalizing o with
  | nil => cases o <;> simp [Tab.risingFrom, Tab.Rising]
  | cons e t ih =>
    obtain ⟨a, v⟩ := e
    cases o with
    | none =>
      simp only [Tab.risingFrom, ih, Tab.Rising, List.pairwise_cons]
      constructor
      · rintro ⟨h1, h2⟩; exact ⟨by simp, fun x hx => h1 a rfl x hx, h2⟩
      · rintro ⟨-, h1, h2⟩; exact ⟨fun lo hlo => by cases hlo; exact h1, h2⟩
    | some lo =>
      simp only [Tab.risingFrom, Bool.and_eq_true, decide_eq_true_eq, ih, Tab.Rising, List.pairwise_cons]
      constructor
      · rintro ⟨h0, h1, h2⟩
        refine ⟨fun l hl x hx => ?_, fun x hx => h1 a rfl x hx, h2⟩
        cases hl
        rcases List.mem_cons.mp hx with rfl | hx
        · exact h0
        · exact Nat.lt_trans h0 (h1 a rfl x hx)
      · rintro ⟨h0, h1, h2⟩
        exact ⟨h0 lo rfl (a, v) (by simp), fun l hl => by cases hl; exact h1, h2⟩

theorem Tab.wf_iff {α : Type} [DecidableEq α] (d : Nat → α) (t : Tab α) :
    Tab.wf d t = true ↔ t.Rising ∧ ∀ e ∈ t, e.2 ≠ d e.1 := by
  simp [Tab.wf, Tab.risingFrom_iff]

theorem Tab.mem_insert {α : Type} (k : Nat) (v : α) (t : Tab α) (e : Nat × α) :
    e ∈ Tab.insert k v t ↔ e = (k, v) ∨ e ∈ t := by
  induction t with
  | nil => simp [Tab.insert]
  | cons a t ih =>
    obtain ⟨a, w⟩ := a
    unfold Tab.insert
    split
    · simp
    · simp only [List.mem_cons, ih]; grind

theorem Tab.insert_rising {α : Type} (k : Nat) (v : α) (t : Tab α) (h : t.Rising) (hk : ∀ e ∈ t, e.1 ≠ k) :
    (Tab.insert k v t).Rising := by
  induction t with
  | nil => simp [Tab.insert, Tab.Rising]
  | cons e t ih =>
    obtain ⟨a, w⟩ := e
    have ⟨h1, h2⟩ := List.pairwise_cons.mp h
    unfold Tab.insert
    split
    · next hlt =>
      refine List.pairwise_cons.mpr ⟨fun x hx => ?_, h⟩
      rcases List.mem_cons.mp hx with rfl | hx
      · exact hlt
      · exact Nat.lt_trans hlt (h1 x hx)
    · next hge =>
      have ha : a ≠ k := hk (a, w) (by simp)
      refine List.pairwise_cons.mpr ⟨fun x hx => ?_, ih h2 fun e he => hk e (by simp [he])⟩
      rcases (Tab.mem_insert k v t x).mp hx with rfl | hx
      · simp only; omega
      · exact h1 x hx

/-- A write keeps the canonical form. -/
theorem Tab.wf_set {α : Type} [DecidableEq α] (d : Nat → α) (t : Tab α) (k : Nat) (v : α) (h : Tab.wf d t = true) :
    Tab.wf d (Tab.set (d k) t k v) = true := by
  rw [Tab.wf_iff] at h ⊢
  have hd : (t.drop k).Rising := List.Pairwise.filter _ h.1
  have hm : ∀ e ∈ t.drop k, e ∈ t ∧ e.1 ≠ k := fun e he => by
    simpa [Tab.drop, List.mem_filter] using he
  unfold Tab.set
  split
  · exact ⟨hd, fun e he => h.2 e (hm e he).1⟩
  · next hv =>
    refine ⟨Tab.insert_rising k v _ hd fun e he => (hm e he).2, fun e he => ?_⟩
    rcases (Tab.mem_insert k v _ e).mp he with rfl | he
    · exact hv
    · exact h.2 e (hm e he).1

/-- Clearing a range keeps the canonical form. -/
theorem Tab.wf_clearRange {α : Type} [DecidableEq α] (d : Nat → α) (t : Tab α) (lo n : Nat) (h : Tab.wf d t = true) :
    Tab.wf d (Tab.clearRange t lo n) = true := by
  rw [Tab.wf_iff] at h ⊢
  exact ⟨List.Pairwise.filter _ h.1, fun e he => h.2 e (List.mem_filter.mp he).1⟩

theorem Tab.wf_nil {α : Type} [DecidableEq α] (d : Nat → α) : Tab.wf d ([] : Tab α) = true := rfl

end Sys2Proof.Machine
end

