-- ==== Sys2Proof/Laws/Word.lean ====
section
/-! SUPPORT. Laws/Word.lean: reading and writing the bit fields of a word. -/

namespace Sys2Proof

theorem getBits_testBit (w : Word) (l n i : Nat) : (getBits w l n).testBit i = (decide (i < n) && w.getLsbD (l + i)) := by
  simp [getBits, Nat.testBit_mod_two_pow, Nat.testBit_shiftRight, BitVec.testBit_toNat]

theorem fieldMask_getLsbD (l n i : Nat) : (fieldMask l n).getLsbD i = (decide (i < 32) && decide (l ≤ i) && decide (i - l < n)) := by
  simp only [fieldMask, BitVec.getLsbD_ofNat, Nat.testBit_shiftLeft, Nat.testBit_two_pow_sub_one]
  grind

theorem putBits_getLsbD (w : Word) (l n v i : Nat) :
    (putBits w l n v).getLsbD i = if l ≤ i ∧ i < l + n ∧ i < 32 then v.testBit (i - l) else w.getLsbD i := by
  simp only [putBits, BitVec.getLsbD_or, BitVec.getLsbD_and, BitVec.getLsbD_not, fieldMask_getLsbD, BitVec.getLsbD_ofNat,
    Nat.testBit_shiftLeft, Nat.testBit_mod_two_pow]
  by_cases h : i < 32
  · by_cases h1 : l ≤ i <;> by_cases h2 : i - l < n <;> grind
  · have : w.getLsbD i = false := BitVec.getLsbD_of_ge _ _ (by omega)
    grind

/-- The field just written. -/
theorem getBits_putBits (w : Word) (l n v : Nat) (h : l + n ≤ 32) : getBits (putBits w l n v) l n = v % 2 ^ n := by
  apply Nat.eq_of_testBit_eq
  intro i
  simp only [getBits_testBit, putBits_getLsbD, Nat.testBit_mod_two_pow]
  by_cases hi : i < n
  · have : l ≤ l + i ∧ l + i < l + n ∧ l + i < 32 := by omega
    simp [hi, this]
  · simp [hi]

/-- Another field of the same word. -/
theorem getBits_putBits_ne (w : Word) (l n v l' n' : Nat) (h : l' + n' ≤ l ∨ l + n ≤ l') :
    getBits (putBits w l n v) l' n' = getBits w l' n' := by
  apply Nat.eq_of_testBit_eq
  intro i
  simp only [getBits_testBit, putBits_getLsbD]
  by_cases hi : i < n'
  · have : ¬ (l ≤ l' + i ∧ l' + i < l + n ∧ l' + i < 32) := by omega
    simp [hi, this]
  · simp [hi]

theorem getBits_lt (w : Word) (l n : Nat) : getBits w l n < 2 ^ n := Nat.mod_lt _ (Nat.two_pow_pos n)

@[simp] theorem b2n_true : b2n true = 1 := rfl
@[simp] theorem b2n_false : b2n false = 0 := rfl

end Sys2Proof
end

