-- ==== Sys2Proof/Laws/State.lean ====
section
/-! SUPPORT. Laws/State.lean: what each update of the state leaves as it was, field by field, and what a read of a register word,
a field or a unit gives after it. -/

namespace Sys2Proof.Machine

/-! ### `setWord` -/

@[simp] theorem State.setWord_variant (s : State) (a : Nat) (w : Word) : (s.setWord a w).variant = s.variant := (rfl)
@[simp] theorem State.setWord_image (s : State) (a : Nat) (w : Word) : (s.setWord a w).image = s.image := (rfl)
@[simp] theorem State.setWord_store (s : State) (a : Nat) (w : Word) : (s.setWord a w).store = s.store := (rfl)
@[simp] theorem State.setWord_power (s : State) (a : Nat) (w : Word) : (s.setWord a w).power = s.power := (rfl)
@[simp] theorem State.setWord_ref (s : State) (a : Nat) (w : Word) : (s.setWord a w).ref = s.ref := (rfl)
@[simp] theorem State.setWord_pci (s : State) (a : Nat) (w : Word) : (s.setWord a w).pci = s.pci := (rfl)
@[simp] theorem State.setWord_epoch (s : State) (a : Nat) (w : Word) : (s.setWord a w).epoch = s.epoch := (rfl)
@[simp] theorem State.setWord_running (s : State) (a : Nat) (w : Word) : (s.setWord a w).running = s.running := (rfl)
@[simp] theorem State.setWord_leaves (s : State) (a : Nat) (w : Word) : (s.setWord a w).leaves = s.leaves := (rfl)
@[simp] theorem State.setWord_groups (s : State) (a : Nat) (w : Word) : (s.setWord a w).groups = s.groups := (rfl)
@[simp] theorem State.setWord_chans (s : State) (a : Nat) (w : Word) : (s.setWord a w).chans = s.chans := (rfl)
@[simp] theorem State.setWord_engines (s : State) (a : Nat) (w : Word) : (s.setWord a w).engines = s.engines := (rfl)
@[simp] theorem State.setWord_rings (s : State) (a : Nat) (w : Word) : (s.setWord a w).rings = s.rings := (rfl)
@[simp] theorem State.setWord_cmds (s : State) (a : Nat) (w : Word) : (s.setWord a w).cmds = s.cmds := (rfl)
@[simp] theorem State.setWord_holds (s : State) (a : Nat) (w : Word) : (s.setWord a w).holds = s.holds := (rfl)
@[simp] theorem State.setWord_boxes (s : State) (a : Nat) (w : Word) : (s.setWord a w).boxes = s.boxes := (rfl)
@[simp] theorem State.setWord_reco (s : State) (a : Nat) (w : Word) : (s.setWord a w).reco = s.reco := (rfl)
@[simp] theorem State.setWord_chain (s : State) (a : Nat) (w : Word) : (s.setWord a w).chain = s.chain := (rfl)
@[simp] theorem State.setWord_cal (s : State) (a : Nat) (w : Word) : (s.setWord a w).cal = s.cal := (rfl)
@[simp] theorem State.setWord_flt (s : State) (a : Nat) (w : Word) : (s.setWord a w).flt = s.flt := (rfl)
@[simp] theorem State.setWord_therm (s : State) (a : Nat) (w : Word) : (s.setWord a w).therm = s.therm := (rfl)
@[simp] theorem State.setWord_prot (s : State) (a : Nat) (w : Word) : (s.setWord a w).prot = s.prot := (rfl)
@[simp] theorem State.setWord_kw (s : State) (a : Nat) (w : Word) : (s.setWord a w).kw = s.kw := (rfl)
@[simp] theorem State.setWord_tap (s : State) (a : Nat) (w : Word) : (s.setWord a w).tap = s.tap := (rfl)
@[simp] theorem State.setWord_trims (s : State) (a : Nat) (w : Word) : (s.setWord a w).trims = s.trims := (rfl)
@[simp] theorem State.setWord_modRecs (s : State) (a : Nat) (w : Word) : (s.setWord a w).modRecs = s.modRecs := (rfl)
@[simp] theorem State.setWord_occ (s : State) (a : Nat) (w : Word) : (s.setWord a w).occ = s.occ := (rfl)
@[simp] theorem State.setWord_active (s : State) (a : Nat) (w : Word) : (s.setWord a w).active = s.active := (rfl)
@[simp] theorem State.setWord_bootQ (s : State) (a : Nat) (w : Word) : (s.setWord a w).bootQ = s.bootQ := (rfl)
@[simp] theorem State.setWord_bootDropped (s : State) (a : Nat) (w : Word) : (s.setWord a w).bootDropped = s.bootDropped := (rfl)
@[simp] theorem State.setWord_bootQOn (s : State) (a : Nat) (w : Word) : (s.setWord a w).bootQOn = s.bootQOn := (rfl)
@[simp] theorem State.setWord_evLost (s : State) (a : Nat) (w : Word) : (s.setWord a w).evLost = s.evLost := (rfl)
@[simp] theorem State.setWord_linkLost (s : State) (a : Nat) (w : Word) : (s.setWord a w).linkLost = s.linkLost := (rfl)
@[simp] theorem State.setWord_fetchNext (s : State) (a : Nat) (w : Word) : (s.setWord a w).fetchNext = s.fetchNext := (rfl)
@[simp] theorem State.setWord_msixEn (s : State) (a : Nat) (w : Word) : (s.setWord a w).msixEn = s.msixEn := (rfl)
@[simp] theorem State.setWord_msixMask (s : State) (a : Nat) (w : Word) : (s.setWord a w).msixMask = s.msixMask := (rfl)
@[simp] theorem State.setWord_railOut (s : State) (a : Nat) (w : Word) : (s.setWord a w).railOut = s.railOut := (rfl)
@[simp] theorem State.setWord_vinOut (s : State) (a : Nat) (w : Word) : (s.setWord a w).vinOut = s.vinOut := (rfl)
@[simp] theorem State.setWord_out (s : State) (a : Nat) (w : Word) : (s.setWord a w).out = s.out := (rfl)
@[simp] theorem State.setWord_held (s : State) (a : Nat) (w : Word) : (s.setWord a w).held = s.held := (rfl)
@[simp] theorem State.setWord_freeCtr (s : State) (a : Nat) (w : Word) : (s.setWord a w).freeCtr = s.freeCtr := (rfl)
@[simp] theorem State.setWord_pending (s : State) (a : Nat) (w : Word) : (s.setWord a w).pending = s.pending := (rfl)

/-! ### `wr` -/

@[simp] theorem State.wr_variant (s : State) (b : Nat) (f : Fld) (v : Nat) : (s.wr b f v).variant = s.variant := (rfl)
@[simp] theorem State.wr_image (s : State) (b : Nat) (f : Fld) (v : Nat) : (s.wr b f v).image = s.image := (rfl)
@[simp] theorem State.wr_store (s : State) (b : Nat) (f : Fld) (v : Nat) : (s.wr b f v).store = s.store := (rfl)
@[simp] theorem State.wr_power (s : State) (b : Nat) (f : Fld) (v : Nat) : (s.wr b f v).power = s.power := (rfl)
@[simp] theorem State.wr_ref (s : State) (b : Nat) (f : Fld) (v : Nat) : (s.wr b f v).ref = s.ref := (rfl)
@[simp] theorem State.wr_pci (s : State) (b : Nat) (f : Fld) (v : Nat) : (s.wr b f v).pci = s.pci := (rfl)
@[simp] theorem State.wr_epoch (s : State) (b : Nat) (f : Fld) (v : Nat) : (s.wr b f v).epoch = s.epoch := (rfl)
@[simp] theorem State.wr_running (s : State) (b : Nat) (f : Fld) (v : Nat) : (s.wr b f v).running = s.running := (rfl)
@[simp] theorem State.wr_leaves (s : State) (b : Nat) (f : Fld) (v : Nat) : (s.wr b f v).leaves = s.leaves := (rfl)
@[simp] theorem State.wr_groups (s : State) (b : Nat) (f : Fld) (v : Nat) : (s.wr b f v).groups = s.groups := (rfl)
@[simp] theorem State.wr_chans (s : State) (b : Nat) (f : Fld) (v : Nat) : (s.wr b f v).chans = s.chans := (rfl)
@[simp] theorem State.wr_engines (s : State) (b : Nat) (f : Fld) (v : Nat) : (s.wr b f v).engines = s.engines := (rfl)
@[simp] theorem State.wr_rings (s : State) (b : Nat) (f : Fld) (v : Nat) : (s.wr b f v).rings = s.rings := (rfl)
@[simp] theorem State.wr_cmds (s : State) (b : Nat) (f : Fld) (v : Nat) : (s.wr b f v).cmds = s.cmds := (rfl)
@[simp] theorem State.wr_holds (s : State) (b : Nat) (f : Fld) (v : Nat) : (s.wr b f v).holds = s.holds := (rfl)
@[simp] theorem State.wr_boxes (s : State) (b : Nat) (f : Fld) (v : Nat) : (s.wr b f v).boxes = s.boxes := (rfl)
@[simp] theorem State.wr_reco (s : State) (b : Nat) (f : Fld) (v : Nat) : (s.wr b f v).reco = s.reco := (rfl)
@[simp] theorem State.wr_chain (s : State) (b : Nat) (f : Fld) (v : Nat) : (s.wr b f v).chain = s.chain := (rfl)
@[simp] theorem State.wr_cal (s : State) (b : Nat) (f : Fld) (v : Nat) : (s.wr b f v).cal = s.cal := (rfl)
@[simp] theorem State.wr_flt (s : State) (b : Nat) (f : Fld) (v : Nat) : (s.wr b f v).flt = s.flt := (rfl)
@[simp] theorem State.wr_therm (s : State) (b : Nat) (f : Fld) (v : Nat) : (s.wr b f v).therm = s.therm := (rfl)
@[simp] theorem State.wr_prot (s : State) (b : Nat) (f : Fld) (v : Nat) : (s.wr b f v).prot = s.prot := (rfl)
@[simp] theorem State.wr_kw (s : State) (b : Nat) (f : Fld) (v : Nat) : (s.wr b f v).kw = s.kw := (rfl)
@[simp] theorem State.wr_tap (s : State) (b : Nat) (f : Fld) (v : Nat) : (s.wr b f v).tap = s.tap := (rfl)
@[simp] theorem State.wr_trims (s : State) (b : Nat) (f : Fld) (v : Nat) : (s.wr b f v).trims = s.trims := (rfl)
@[simp] theorem State.wr_modRecs (s : State) (b : Nat) (f : Fld) (v : Nat) : (s.wr b f v).modRecs = s.modRecs := (rfl)
@[simp] theorem State.wr_occ (s : State) (b : Nat) (f : Fld) (v : Nat) : (s.wr b f v).occ = s.occ := (rfl)
@[simp] theorem State.wr_active (s : State) (b : Nat) (f : Fld) (v : Nat) : (s.wr b f v).active = s.active := (rfl)
@[simp] theorem State.wr_bootQ (s : State) (b : Nat) (f : Fld) (v : Nat) : (s.wr b f v).bootQ = s.bootQ := (rfl)
@[simp] theorem State.wr_bootDropped (s : State) (b : Nat) (f : Fld) (v : Nat) : (s.wr b f v).bootDropped = s.bootDropped := (rfl)
@[simp] theorem State.wr_bootQOn (s : State) (b : Nat) (f : Fld) (v : Nat) : (s.wr b f v).bootQOn = s.bootQOn := (rfl)
@[simp] theorem State.wr_evLost (s : State) (b : Nat) (f : Fld) (v : Nat) : (s.wr b f v).evLost = s.evLost := (rfl)
@[simp] theorem State.wr_linkLost (s : State) (b : Nat) (f : Fld) (v : Nat) : (s.wr b f v).linkLost = s.linkLost := (rfl)
@[simp] theorem State.wr_fetchNext (s : State) (b : Nat) (f : Fld) (v : Nat) : (s.wr b f v).fetchNext = s.fetchNext := (rfl)
@[simp] theorem State.wr_msixEn (s : State) (b : Nat) (f : Fld) (v : Nat) : (s.wr b f v).msixEn = s.msixEn := (rfl)
@[simp] theorem State.wr_msixMask (s : State) (b : Nat) (f : Fld) (v : Nat) : (s.wr b f v).msixMask = s.msixMask := (rfl)
@[simp] theorem State.wr_railOut (s : State) (b : Nat) (f : Fld) (v : Nat) : (s.wr b f v).railOut = s.railOut := (rfl)
@[simp] theorem State.wr_vinOut (s : State) (b : Nat) (f : Fld) (v : Nat) : (s.wr b f v).vinOut = s.vinOut := (rfl)
@[simp] theorem State.wr_out (s : State) (b : Nat) (f : Fld) (v : Nat) : (s.wr b f v).out = s.out := (rfl)
@[simp] theorem State.wr_held (s : State) (b : Nat) (f : Fld) (v : Nat) : (s.wr b f v).held = s.held := (rfl)
@[simp] theorem State.wr_freeCtr (s : State) (b : Nat) (f : Fld) (v : Nat) : (s.wr b f v).freeCtr = s.freeCtr := (rfl)
@[simp] theorem State.wr_pending (s : State) (b : Nat) (f : Fld) (v : Nat) : (s.wr b f v).pending = s.pending := (rfl)

/-! ### `flag` -/

@[simp] theorem State.flag_variant (s : State) (b : Nat) (f : Fld) (v : Bool) : (s.flag b f v).variant = s.variant := (rfl)
@[simp] theorem State.flag_image (s : State) (b : Nat) (f : Fld) (v : Bool) : (s.flag b f v).image = s.image := (rfl)
@[simp] theorem State.flag_store (s : State) (b : Nat) (f : Fld) (v : Bool) : (s.flag b f v).store = s.store := (rfl)
@[simp] theorem State.flag_power (s : State) (b : Nat) (f : Fld) (v : Bool) : (s.flag b f v).power = s.power := (rfl)
@[simp] theorem State.flag_ref (s : State) (b : Nat) (f : Fld) (v : Bool) : (s.flag b f v).ref = s.ref := (rfl)
@[simp] theorem State.flag_pci (s : State) (b : Nat) (f : Fld) (v : Bool) : (s.flag b f v).pci = s.pci := (rfl)
@[simp] theorem State.flag_epoch (s : State) (b : Nat) (f : Fld) (v : Bool) : (s.flag b f v).epoch = s.epoch := (rfl)
@[simp] theorem State.flag_running (s : State) (b : Nat) (f : Fld) (v : Bool) : (s.flag b f v).running = s.running := (rfl)
@[simp] theorem State.flag_leaves (s : State) (b : Nat) (f : Fld) (v : Bool) : (s.flag b f v).leaves = s.leaves := (rfl)
@[simp] theorem State.flag_groups (s : State) (b : Nat) (f : Fld) (v : Bool) : (s.flag b f v).groups = s.groups := (rfl)
@[simp] theorem State.flag_chans (s : State) (b : Nat) (f : Fld) (v : Bool) : (s.flag b f v).chans = s.chans := (rfl)
@[simp] theorem State.flag_engines (s : State) (b : Nat) (f : Fld) (v : Bool) : (s.flag b f v).engines = s.engines := (rfl)
@[simp] theorem State.flag_rings (s : State) (b : Nat) (f : Fld) (v : Bool) : (s.flag b f v).rings = s.rings := (rfl)
@[simp] theorem State.flag_cmds (s : State) (b : Nat) (f : Fld) (v : Bool) : (s.flag b f v).cmds = s.cmds := (rfl)
@[simp] theorem State.flag_holds (s : State) (b : Nat) (f : Fld) (v : Bool) : (s.flag b f v).holds = s.holds := (rfl)
@[simp] theorem State.flag_boxes (s : State) (b : Nat) (f : Fld) (v : Bool) : (s.flag b f v).boxes = s.boxes := (rfl)
@[simp] theorem State.flag_reco (s : State) (b : Nat) (f : Fld) (v : Bool) : (s.flag b f v).reco = s.reco := (rfl)
@[simp] theorem State.flag_chain (s : State) (b : Nat) (f : Fld) (v : Bool) : (s.flag b f v).chain = s.chain := (rfl)
@[simp] theorem State.flag_cal (s : State) (b : Nat) (f : Fld) (v : Bool) : (s.flag b f v).cal = s.cal := (rfl)
@[simp] theorem State.flag_flt (s : State) (b : Nat) (f : Fld) (v : Bool) : (s.flag b f v).flt = s.flt := (rfl)
@[simp] theorem State.flag_therm (s : State) (b : Nat) (f : Fld) (v : Bool) : (s.flag b f v).therm = s.therm := (rfl)
@[simp] theorem State.flag_prot (s : State) (b : Nat) (f : Fld) (v : Bool) : (s.flag b f v).prot = s.prot := (rfl)
@[simp] theorem State.flag_kw (s : State) (b : Nat) (f : Fld) (v : Bool) : (s.flag b f v).kw = s.kw := (rfl)
@[simp] theorem State.flag_tap (s : State) (b : Nat) (f : Fld) (v : Bool) : (s.flag b f v).tap = s.tap := (rfl)
@[simp] theorem State.flag_trims (s : State) (b : Nat) (f : Fld) (v : Bool) : (s.flag b f v).trims = s.trims := (rfl)
@[simp] theorem State.flag_modRecs (s : State) (b : Nat) (f : Fld) (v : Bool) : (s.flag b f v).modRecs = s.modRecs := (rfl)
@[simp] theorem State.flag_occ (s : State) (b : Nat) (f : Fld) (v : Bool) : (s.flag b f v).occ = s.occ := (rfl)
@[simp] theorem State.flag_active (s : State) (b : Nat) (f : Fld) (v : Bool) : (s.flag b f v).active = s.active := (rfl)
@[simp] theorem State.flag_bootQ (s : State) (b : Nat) (f : Fld) (v : Bool) : (s.flag b f v).bootQ = s.bootQ := (rfl)
@[simp] theorem State.flag_bootDropped (s : State) (b : Nat) (f : Fld) (v : Bool) : (s.flag b f v).bootDropped = s.bootDropped := (rfl)
@[simp] theorem State.flag_bootQOn (s : State) (b : Nat) (f : Fld) (v : Bool) : (s.flag b f v).bootQOn = s.bootQOn := (rfl)
@[simp] theorem State.flag_evLost (s : State) (b : Nat) (f : Fld) (v : Bool) : (s.flag b f v).evLost = s.evLost := (rfl)
@[simp] theorem State.flag_linkLost (s : State) (b : Nat) (f : Fld) (v : Bool) : (s.flag b f v).linkLost = s.linkLost := (rfl)
@[simp] theorem State.flag_fetchNext (s : State) (b : Nat) (f : Fld) (v : Bool) : (s.flag b f v).fetchNext = s.fetchNext := (rfl)
@[simp] theorem State.flag_msixEn (s : State) (b : Nat) (f : Fld) (v : Bool) : (s.flag b f v).msixEn = s.msixEn := (rfl)
@[simp] theorem State.flag_msixMask (s : State) (b : Nat) (f : Fld) (v : Bool) : (s.flag b f v).msixMask = s.msixMask := (rfl)
@[simp] theorem State.flag_railOut (s : State) (b : Nat) (f : Fld) (v : Bool) : (s.flag b f v).railOut = s.railOut := (rfl)
@[simp] theorem State.flag_vinOut (s : State) (b : Nat) (f : Fld) (v : Bool) : (s.flag b f v).vinOut = s.vinOut := (rfl)
@[simp] theorem State.flag_out (s : State) (b : Nat) (f : Fld) (v : Bool) : (s.flag b f v).out = s.out := (rfl)
@[simp] theorem State.flag_held (s : State) (b : Nat) (f : Fld) (v : Bool) : (s.flag b f v).held = s.held := (rfl)
@[simp] theorem State.flag_freeCtr (s : State) (b : Nat) (f : Fld) (v : Bool) : (s.flag b f v).freeCtr = s.freeCtr := (rfl)
@[simp] theorem State.flag_pending (s : State) (b : Nat) (f : Fld) (v : Bool) : (s.flag b f v).pending = s.pending := (rfl)

/-! ### `inc` -/

@[simp] theorem State.inc_variant (s : State) (b : Nat) (f : Fld) (n : Nat) : (s.inc b f n).variant = s.variant := (rfl)
@[simp] theorem State.inc_image (s : State) (b : Nat) (f : Fld) (n : Nat) : (s.inc b f n).image = s.image := (rfl)
@[simp] theorem State.inc_store (s : State) (b : Nat) (f : Fld) (n : Nat) : (s.inc b f n).store = s.store := (rfl)
@[simp] theorem State.inc_power (s : State) (b : Nat) (f : Fld) (n : Nat) : (s.inc b f n).power = s.power := (rfl)
@[simp] theorem State.inc_ref (s : State) (b : Nat) (f : Fld) (n : Nat) : (s.inc b f n).ref = s.ref := (rfl)
@[simp] theorem State.inc_pci (s : State) (b : Nat) (f : Fld) (n : Nat) : (s.inc b f n).pci = s.pci := (rfl)
@[simp] theorem State.inc_epoch (s : State) (b : Nat) (f : Fld) (n : Nat) : (s.inc b f n).epoch = s.epoch := (rfl)
@[simp] theorem State.inc_running (s : State) (b : Nat) (f : Fld) (n : Nat) : (s.inc b f n).running = s.running := (rfl)
@[simp] theorem State.inc_leaves (s : State) (b : Nat) (f : Fld) (n : Nat) : (s.inc b f n).leaves = s.leaves := (rfl)
@[simp] theorem State.inc_groups (s : State) (b : Nat) (f : Fld) (n : Nat) : (s.inc b f n).groups = s.groups := (rfl)
@[simp] theorem State.inc_chans (s : State) (b : Nat) (f : Fld) (n : Nat) : (s.inc b f n).chans = s.chans := (rfl)
@[simp] theorem State.inc_engines (s : State) (b : Nat) (f : Fld) (n : Nat) : (s.inc b f n).engines = s.engines := (rfl)
@[simp] theorem State.inc_rings (s : State) (b : Nat) (f : Fld) (n : Nat) : (s.inc b f n).rings = s.rings := (rfl)
@[simp] theorem State.inc_cmds (s : State) (b : Nat) (f : Fld) (n : Nat) : (s.inc b f n).cmds = s.cmds := (rfl)
@[simp] theorem State.inc_holds (s : State) (b : Nat) (f : Fld) (n : Nat) : (s.inc b f n).holds = s.holds := (rfl)
@[simp] theorem State.inc_boxes (s : State) (b : Nat) (f : Fld) (n : Nat) : (s.inc b f n).boxes = s.boxes := (rfl)
@[simp] theorem State.inc_reco (s : State) (b : Nat) (f : Fld) (n : Nat) : (s.inc b f n).reco = s.reco := (rfl)
@[simp] theorem State.inc_chain (s : State) (b : Nat) (f : Fld) (n : Nat) : (s.inc b f n).chain = s.chain := (rfl)
@[simp] theorem State.inc_cal (s : State) (b : Nat) (f : Fld) (n : Nat) : (s.inc b f n).cal = s.cal := (rfl)
@[simp] theorem State.inc_flt (s : State) (b : Nat) (f : Fld) (n : Nat) : (s.inc b f n).flt = s.flt := (rfl)
@[simp] theorem State.inc_therm (s : State) (b : Nat) (f : Fld) (n : Nat) : (s.inc b f n).therm = s.therm := (rfl)
@[simp] theorem State.inc_prot (s : State) (b : Nat) (f : Fld) (n : Nat) : (s.inc b f n).prot = s.prot := (rfl)
@[simp] theorem State.inc_kw (s : State) (b : Nat) (f : Fld) (n : Nat) : (s.inc b f n).kw = s.kw := (rfl)
@[simp] theorem State.inc_tap (s : State) (b : Nat) (f : Fld) (n : Nat) : (s.inc b f n).tap = s.tap := (rfl)
@[simp] theorem State.inc_trims (s : State) (b : Nat) (f : Fld) (n : Nat) : (s.inc b f n).trims = s.trims := (rfl)
@[simp] theorem State.inc_modRecs (s : State) (b : Nat) (f : Fld) (n : Nat) : (s.inc b f n).modRecs = s.modRecs := (rfl)
@[simp] theorem State.inc_occ (s : State) (b : Nat) (f : Fld) (n : Nat) : (s.inc b f n).occ = s.occ := (rfl)
@[simp] theorem State.inc_active (s : State) (b : Nat) (f : Fld) (n : Nat) : (s.inc b f n).active = s.active := (rfl)
@[simp] theorem State.inc_bootQ (s : State) (b : Nat) (f : Fld) (n : Nat) : (s.inc b f n).bootQ = s.bootQ := (rfl)
@[simp] theorem State.inc_bootDropped (s : State) (b : Nat) (f : Fld) (n : Nat) : (s.inc b f n).bootDropped = s.bootDropped := (rfl)
@[simp] theorem State.inc_bootQOn (s : State) (b : Nat) (f : Fld) (n : Nat) : (s.inc b f n).bootQOn = s.bootQOn := (rfl)
@[simp] theorem State.inc_evLost (s : State) (b : Nat) (f : Fld) (n : Nat) : (s.inc b f n).evLost = s.evLost := (rfl)
@[simp] theorem State.inc_linkLost (s : State) (b : Nat) (f : Fld) (n : Nat) : (s.inc b f n).linkLost = s.linkLost := (rfl)
@[simp] theorem State.inc_fetchNext (s : State) (b : Nat) (f : Fld) (n : Nat) : (s.inc b f n).fetchNext = s.fetchNext := (rfl)
@[simp] theorem State.inc_msixEn (s : State) (b : Nat) (f : Fld) (n : Nat) : (s.inc b f n).msixEn = s.msixEn := (rfl)
@[simp] theorem State.inc_msixMask (s : State) (b : Nat) (f : Fld) (n : Nat) : (s.inc b f n).msixMask = s.msixMask := (rfl)
@[simp] theorem State.inc_railOut (s : State) (b : Nat) (f : Fld) (n : Nat) : (s.inc b f n).railOut = s.railOut := (rfl)
@[simp] theorem State.inc_vinOut (s : State) (b : Nat) (f : Fld) (n : Nat) : (s.inc b f n).vinOut = s.vinOut := (rfl)
@[simp] theorem State.inc_out (s : State) (b : Nat) (f : Fld) (n : Nat) : (s.inc b f n).out = s.out := (rfl)
@[simp] theorem State.inc_held (s : State) (b : Nat) (f : Fld) (n : Nat) : (s.inc b f n).held = s.held := (rfl)
@[simp] theorem State.inc_freeCtr (s : State) (b : Nat) (f : Fld) (n : Nat) : (s.inc b f n).freeCtr = s.freeCtr := (rfl)
@[simp] theorem State.inc_pending (s : State) (b : Nat) (f : Fld) (n : Nat) : (s.inc b f n).pending = s.pending := (rfl)

/-! ### `clearRegs` -/

@[simp] theorem State.clearRegs_variant (s : State) (lo n : Nat) : (s.clearRegs lo n).variant = s.variant := (rfl)
@[simp] theorem State.clearRegs_image (s : State) (lo n : Nat) : (s.clearRegs lo n).image = s.image := (rfl)
@[simp] theorem State.clearRegs_store (s : State) (lo n : Nat) : (s.clearRegs lo n).store = s.store := (rfl)
@[simp] theorem State.clearRegs_power (s : State) (lo n : Nat) : (s.clearRegs lo n).power = s.power := (rfl)
@[simp] theorem State.clearRegs_ref (s : State) (lo n : Nat) : (s.clearRegs lo n).ref = s.ref := (rfl)
@[simp] theorem State.clearRegs_pci (s : State) (lo n : Nat) : (s.clearRegs lo n).pci = s.pci := (rfl)
@[simp] theorem State.clearRegs_epoch (s : State) (lo n : Nat) : (s.clearRegs lo n).epoch = s.epoch := (rfl)
@[simp] theorem State.clearRegs_running (s : State) (lo n : Nat) : (s.clearRegs lo n).running = s.running := (rfl)
@[simp] theorem State.clearRegs_leaves (s : State) (lo n : Nat) : (s.clearRegs lo n).leaves = s.leaves := (rfl)
@[simp] theorem State.clearRegs_groups (s : State) (lo n : Nat) : (s.clearRegs lo n).groups = s.groups := (rfl)
@[simp] theorem State.clearRegs_chans (s : State) (lo n : Nat) : (s.clearRegs lo n).chans = s.chans := (rfl)
@[simp] theorem State.clearRegs_engines (s : State) (lo n : Nat) : (s.clearRegs lo n).engines = s.engines := (rfl)
@[simp] theorem State.clearRegs_rings (s : State) (lo n : Nat) : (s.clearRegs lo n).rings = s.rings := (rfl)
@[simp] theorem State.clearRegs_cmds (s : State) (lo n : Nat) : (s.clearRegs lo n).cmds = s.cmds := (rfl)
@[simp] theorem State.clearRegs_holds (s : State) (lo n : Nat) : (s.clearRegs lo n).holds = s.holds := (rfl)
@[simp] theorem State.clearRegs_boxes (s : State) (lo n : Nat) : (s.clearRegs lo n).boxes = s.boxes := (rfl)
@[simp] theorem State.clearRegs_reco (s : State) (lo n : Nat) : (s.clearRegs lo n).reco = s.reco := (rfl)
@[simp] theorem State.clearRegs_chain (s : State) (lo n : Nat) : (s.clearRegs lo n).chain = s.chain := (rfl)
@[simp] theorem State.clearRegs_cal (s : State) (lo n : Nat) : (s.clearRegs lo n).cal = s.cal := (rfl)
@[simp] theorem State.clearRegs_flt (s : State) (lo n : Nat) : (s.clearRegs lo n).flt = s.flt := (rfl)
@[simp] theorem State.clearRegs_therm (s : State) (lo n : Nat) : (s.clearRegs lo n).therm = s.therm := (rfl)
@[simp] theorem State.clearRegs_prot (s : State) (lo n : Nat) : (s.clearRegs lo n).prot = s.prot := (rfl)
@[simp] theorem State.clearRegs_kw (s : State) (lo n : Nat) : (s.clearRegs lo n).kw = s.kw := (rfl)
@[simp] theorem State.clearRegs_tap (s : State) (lo n : Nat) : (s.clearRegs lo n).tap = s.tap := (rfl)
@[simp] theorem State.clearRegs_trims (s : State) (lo n : Nat) : (s.clearRegs lo n).trims = s.trims := (rfl)
@[simp] theorem State.clearRegs_modRecs (s : State) (lo n : Nat) : (s.clearRegs lo n).modRecs = s.modRecs := (rfl)
@[simp] theorem State.clearRegs_occ (s : State) (lo n : Nat) : (s.clearRegs lo n).occ = s.occ := (rfl)
@[simp] theorem State.clearRegs_active (s : State) (lo n : Nat) : (s.clearRegs lo n).active = s.active := (rfl)
@[simp] theorem State.clearRegs_bootQ (s : State) (lo n : Nat) : (s.clearRegs lo n).bootQ = s.bootQ := (rfl)
@[simp] theorem State.clearRegs_bootDropped (s : State) (lo n : Nat) : (s.clearRegs lo n).bootDropped = s.bootDropped := (rfl)
@[simp] theorem State.clearRegs_bootQOn (s : State) (lo n : Nat) : (s.clearRegs lo n).bootQOn = s.bootQOn := (rfl)
@[simp] theorem State.clearRegs_evLost (s : State) (lo n : Nat) : (s.clearRegs lo n).evLost = s.evLost := (rfl)
@[simp] theorem State.clearRegs_linkLost (s : State) (lo n : Nat) : (s.clearRegs lo n).linkLost = s.linkLost := (rfl)
@[simp] theorem State.clearRegs_fetchNext (s : State) (lo n : Nat) : (s.clearRegs lo n).fetchNext = s.fetchNext := (rfl)
@[simp] theorem State.clearRegs_msixEn (s : State) (lo n : Nat) : (s.clearRegs lo n).msixEn = s.msixEn := (rfl)
@[simp] theorem State.clearRegs_msixMask (s : State) (lo n : Nat) : (s.clearRegs lo n).msixMask = s.msixMask := (rfl)
@[simp] theorem State.clearRegs_railOut (s : State) (lo n : Nat) : (s.clearRegs lo n).railOut = s.railOut := (rfl)
@[simp] theorem State.clearRegs_vinOut (s : State) (lo n : Nat) : (s.clearRegs lo n).vinOut = s.vinOut := (rfl)
@[simp] theorem State.clearRegs_out (s : State) (lo n : Nat) : (s.clearRegs lo n).out = s.out := (rfl)
@[simp] theorem State.clearRegs_held (s : State) (lo n : Nat) : (s.clearRegs lo n).held = s.held := (rfl)
@[simp] theorem State.clearRegs_freeCtr (s : State) (lo n : Nat) : (s.clearRegs lo n).freeCtr = s.freeCtr := (rfl)
@[simp] theorem State.clearRegs_pending (s : State) (lo n : Nat) : (s.clearRegs lo n).pending = s.pending := (rfl)

/-! ### `setLeaf` -/

@[simp] theorem State.setLeaf_variant (s : State) (n : Nat) (l : Leaf) : (s.setLeaf n l).variant = s.variant := (rfl)
@[simp] theorem State.setLeaf_regs (s : State) (n : Nat) (l : Leaf) : (s.setLeaf n l).regs = s.regs := (rfl)
@[simp] theorem State.setLeaf_image (s : State) (n : Nat) (l : Leaf) : (s.setLeaf n l).image = s.image := (rfl)
@[simp] theorem State.setLeaf_store (s : State) (n : Nat) (l : Leaf) : (s.setLeaf n l).store = s.store := (rfl)
@[simp] theorem State.setLeaf_power (s : State) (n : Nat) (l : Leaf) : (s.setLeaf n l).power = s.power := (rfl)
@[simp] theorem State.setLeaf_ref (s : State) (n : Nat) (l : Leaf) : (s.setLeaf n l).ref = s.ref := (rfl)
@[simp] theorem State.setLeaf_pci (s : State) (n : Nat) (l : Leaf) : (s.setLeaf n l).pci = s.pci := (rfl)
@[simp] theorem State.setLeaf_epoch (s : State) (n : Nat) (l : Leaf) : (s.setLeaf n l).epoch = s.epoch := (rfl)
@[simp] theorem State.setLeaf_running (s : State) (n : Nat) (l : Leaf) : (s.setLeaf n l).running = s.running := (rfl)
@[simp] theorem State.setLeaf_groups (s : State) (n : Nat) (l : Leaf) : (s.setLeaf n l).groups = s.groups := (rfl)
@[simp] theorem State.setLeaf_chans (s : State) (n : Nat) (l : Leaf) : (s.setLeaf n l).chans = s.chans := (rfl)
@[simp] theorem State.setLeaf_engines (s : State) (n : Nat) (l : Leaf) : (s.setLeaf n l).engines = s.engines := (rfl)
@[simp] theorem State.setLeaf_rings (s : State) (n : Nat) (l : Leaf) : (s.setLeaf n l).rings = s.rings := (rfl)
@[simp] theorem State.setLeaf_cmds (s : State) (n : Nat) (l : Leaf) : (s.setLeaf n l).cmds = s.cmds := (rfl)
@[simp] theorem State.setLeaf_holds (s : State) (n : Nat) (l : Leaf) : (s.setLeaf n l).holds = s.holds := (rfl)
@[simp] theorem State.setLeaf_boxes (s : State) (n : Nat) (l : Leaf) : (s.setLeaf n l).boxes = s.boxes := (rfl)
@[simp] theorem State.setLeaf_reco (s : State) (n : Nat) (l : Leaf) : (s.setLeaf n l).reco = s.reco := (rfl)
@[simp] theorem State.setLeaf_chain (s : State) (n : Nat) (l : Leaf) : (s.setLeaf n l).chain = s.chain := (rfl)
@[simp] theorem State.setLeaf_cal (s : State) (n : Nat) (l : Leaf) : (s.setLeaf n l).cal = s.cal := (rfl)
@[simp] theorem State.setLeaf_flt (s : State) (n : Nat) (l : Leaf) : (s.setLeaf n l).flt = s.flt := (rfl)
@[simp] theorem State.setLeaf_therm (s : State) (n : Nat) (l : Leaf) : (s.setLeaf n l).therm = s.therm := (rfl)
@[simp] theorem State.setLeaf_prot (s : State) (n : Nat) (l : Leaf) : (s.setLeaf n l).prot = s.prot := (rfl)
@[simp] theorem State.setLeaf_kw (s : State) (n : Nat) (l : Leaf) : (s.setLeaf n l).kw = s.kw := (rfl)
@[simp] theorem State.setLeaf_tap (s : State) (n : Nat) (l : Leaf) : (s.setLeaf n l).tap = s.tap := (rfl)
@[simp] theorem State.setLeaf_trims (s : State) (n : Nat) (l : Leaf) : (s.setLeaf n l).trims = s.trims := (rfl)
@[simp] theorem State.setLeaf_modRecs (s : State) (n : Nat) (l : Leaf) : (s.setLeaf n l).modRecs = s.modRecs := (rfl)
@[simp] theorem State.setLeaf_occ (s : State) (n : Nat) (l : Leaf) : (s.setLeaf n l).occ = s.occ := (rfl)
@[simp] theorem State.setLeaf_active (s : State) (n : Nat) (l : Leaf) : (s.setLeaf n l).active = s.active := (rfl)
@[simp] theorem State.setLeaf_bootQ (s : State) (n : Nat) (l : Leaf) : (s.setLeaf n l).bootQ = s.bootQ := (rfl)
@[simp] theorem State.setLeaf_bootDropped (s : State) (n : Nat) (l : Leaf) : (s.setLeaf n l).bootDropped = s.bootDropped := (rfl)
@[simp] theorem State.setLeaf_bootQOn (s : State) (n : Nat) (l : Leaf) : (s.setLeaf n l).bootQOn = s.bootQOn := (rfl)
@[simp] theorem State.setLeaf_evLost (s : State) (n : Nat) (l : Leaf) : (s.setLeaf n l).evLost = s.evLost := (rfl)
@[simp] theorem State.setLeaf_linkLost (s : State) (n : Nat) (l : Leaf) : (s.setLeaf n l).linkLost = s.linkLost := (rfl)
@[simp] theorem State.setLeaf_fetchNext (s : State) (n : Nat) (l : Leaf) : (s.setLeaf n l).fetchNext = s.fetchNext := (rfl)
@[simp] theorem State.setLeaf_msixEn (s : State) (n : Nat) (l : Leaf) : (s.setLeaf n l).msixEn = s.msixEn := (rfl)
@[simp] theorem State.setLeaf_msixMask (s : State) (n : Nat) (l : Leaf) : (s.setLeaf n l).msixMask = s.msixMask := (rfl)
@[simp] theorem State.setLeaf_railOut (s : State) (n : Nat) (l : Leaf) : (s.setLeaf n l).railOut = s.railOut := (rfl)
@[simp] theorem State.setLeaf_vinOut (s : State) (n : Nat) (l : Leaf) : (s.setLeaf n l).vinOut = s.vinOut := (rfl)
@[simp] theorem State.setLeaf_out (s : State) (n : Nat) (l : Leaf) : (s.setLeaf n l).out = s.out := (rfl)
@[simp] theorem State.setLeaf_held (s : State) (n : Nat) (l : Leaf) : (s.setLeaf n l).held = s.held := (rfl)
@[simp] theorem State.setLeaf_freeCtr (s : State) (n : Nat) (l : Leaf) : (s.setLeaf n l).freeCtr = s.freeCtr := (rfl)
@[simp] theorem State.setLeaf_pending (s : State) (n : Nat) (l : Leaf) : (s.setLeaf n l).pending = s.pending := (rfl)

/-! ### `modLeaf` -/

@[simp] theorem State.modLeaf_variant (s : State) (n : Nat) (f : Leaf → Leaf) : (s.modLeaf n f).variant = s.variant := (rfl)
@[simp] theorem State.modLeaf_regs (s : State) (n : Nat) (f : Leaf → Leaf) : (s.modLeaf n f).regs = s.regs := (rfl)
@[simp] theorem State.modLeaf_image (s : State) (n : Nat) (f : Leaf → Leaf) : (s.modLeaf n f).image = s.image := (rfl)
@[simp] theorem State.modLeaf_store (s : State) (n : Nat) (f : Leaf → Leaf) : (s.modLeaf n f).store = s.store := (rfl)
@[simp] theorem State.modLeaf_power (s : State) (n : Nat) (f : Leaf → Leaf) : (s.modLeaf n f).power = s.power := (rfl)
@[simp] theorem State.modLeaf_ref (s : State) (n : Nat) (f : Leaf → Leaf) : (s.modLeaf n f).ref = s.ref := (rfl)
@[simp] theorem State.modLeaf_pci (s : State) (n : Nat) (f : Leaf → Leaf) : (s.modLeaf n f).pci = s.pci := (rfl)
@[simp] theorem State.modLeaf_epoch (s : State) (n : Nat) (f : Leaf → Leaf) : (s.modLeaf n f).epoch = s.epoch := (rfl)
@[simp] theorem State.modLeaf_running (s : State) (n : Nat) (f : Leaf → Leaf) : (s.modLeaf n f).running = s.running := (rfl)
@[simp] theorem State.modLeaf_groups (s : State) (n : Nat) (f : Leaf → Leaf) : (s.modLeaf n f).groups = s.groups := (rfl)
@[simp] theorem State.modLeaf_chans (s : State) (n : Nat) (f : Leaf → Leaf) : (s.modLeaf n f).chans = s.chans := (rfl)
@[simp] theorem State.modLeaf_engines (s : State) (n : Nat) (f : Leaf → Leaf) : (s.modLeaf n f).engines = s.engines := (rfl)
@[simp] theorem State.modLeaf_rings (s : State) (n : Nat) (f : Leaf → Leaf) : (s.modLeaf n f).rings = s.rings := (rfl)
@[simp] theorem State.modLeaf_cmds (s : State) (n : Nat) (f : Leaf → Leaf) : (s.modLeaf n f).cmds = s.cmds := (rfl)
@[simp] theorem State.modLeaf_holds (s : State) (n : Nat) (f : Leaf → Leaf) : (s.modLeaf n f).holds = s.holds := (rfl)
@[simp] theorem State.modLeaf_boxes (s : State) (n : Nat) (f : Leaf → Leaf) : (s.modLeaf n f).boxes = s.boxes := (rfl)
@[simp] theorem State.modLeaf_reco (s : State) (n : Nat) (f : Leaf → Leaf) : (s.modLeaf n f).reco = s.reco := (rfl)
@[simp] theorem State.modLeaf_chain (s : State) (n : Nat) (f : Leaf → Leaf) : (s.modLeaf n f).chain = s.chain := (rfl)
@[simp] theorem State.modLeaf_cal (s : State) (n : Nat) (f : Leaf → Leaf) : (s.modLeaf n f).cal = s.cal := (rfl)
@[simp] theorem State.modLeaf_flt (s : State) (n : Nat) (f : Leaf → Leaf) : (s.modLeaf n f).flt = s.flt := (rfl)
@[simp] theorem State.modLeaf_therm (s : State) (n : Nat) (f : Leaf → Leaf) : (s.modLeaf n f).therm = s.therm := (rfl)
@[simp] theorem State.modLeaf_prot (s : State) (n : Nat) (f : Leaf → Leaf) : (s.modLeaf n f).prot = s.prot := (rfl)
@[simp] theorem State.modLeaf_kw (s : State) (n : Nat) (f : Leaf → Leaf) : (s.modLeaf n f).kw = s.kw := (rfl)
@[simp] theorem State.modLeaf_tap (s : State) (n : Nat) (f : Leaf → Leaf) : (s.modLeaf n f).tap = s.tap := (rfl)
@[simp] theorem State.modLeaf_trims (s : State) (n : Nat) (f : Leaf → Leaf) : (s.modLeaf n f).trims = s.trims := (rfl)
@[simp] theorem State.modLeaf_modRecs (s : State) (n : Nat) (f : Leaf → Leaf) : (s.modLeaf n f).modRecs = s.modRecs := (rfl)
@[simp] theorem State.modLeaf_occ (s : State) (n : Nat) (f : Leaf → Leaf) : (s.modLeaf n f).occ = s.occ := (rfl)
@[simp] theorem State.modLeaf_active (s : State) (n : Nat) (f : Leaf → Leaf) : (s.modLeaf n f).active = s.active := (rfl)
@[simp] theorem State.modLeaf_bootQ (s : State) (n : Nat) (f : Leaf → Leaf) : (s.modLeaf n f).bootQ = s.bootQ := (rfl)
@[simp] theorem State.modLeaf_bootDropped (s : State) (n : Nat) (f : Leaf → Leaf) : (s.modLeaf n f).bootDropped = s.bootDropped := (rfl)
@[simp] theorem State.modLeaf_bootQOn (s : State) (n : Nat) (f : Leaf → Leaf) : (s.modLeaf n f).bootQOn = s.bootQOn := (rfl)
@[simp] theorem State.modLeaf_evLost (s : State) (n : Nat) (f : Leaf → Leaf) : (s.modLeaf n f).evLost = s.evLost := (rfl)
@[simp] theorem State.modLeaf_linkLost (s : State) (n : Nat) (f : Leaf → Leaf) : (s.modLeaf n f).linkLost = s.linkLost := (rfl)
@[simp] theorem State.modLeaf_fetchNext (s : State) (n : Nat) (f : Leaf → Leaf) : (s.modLeaf n f).fetchNext = s.fetchNext := (rfl)
@[simp] theorem State.modLeaf_msixEn (s : State) (n : Nat) (f : Leaf → Leaf) : (s.modLeaf n f).msixEn = s.msixEn := (rfl)
@[simp] theorem State.modLeaf_msixMask (s : State) (n : Nat) (f : Leaf → Leaf) : (s.modLeaf n f).msixMask = s.msixMask := (rfl)
@[simp] theorem State.modLeaf_railOut (s : State) (n : Nat) (f : Leaf → Leaf) : (s.modLeaf n f).railOut = s.railOut := (rfl)
@[simp] theorem State.modLeaf_vinOut (s : State) (n : Nat) (f : Leaf → Leaf) : (s.modLeaf n f).vinOut = s.vinOut := (rfl)
@[simp] theorem State.modLeaf_out (s : State) (n : Nat) (f : Leaf → Leaf) : (s.modLeaf n f).out = s.out := (rfl)
@[simp] theorem State.modLeaf_held (s : State) (n : Nat) (f : Leaf → Leaf) : (s.modLeaf n f).held = s.held := (rfl)
@[simp] theorem State.modLeaf_freeCtr (s : State) (n : Nat) (f : Leaf → Leaf) : (s.modLeaf n f).freeCtr = s.freeCtr := (rfl)
@[simp] theorem State.modLeaf_pending (s : State) (n : Nat) (f : Leaf → Leaf) : (s.modLeaf n f).pending = s.pending := (rfl)

/-! ### `setGrp` -/

@[simp] theorem State.setGrp_variant (s : State) (n : Nat) (x : Grp) : (s.setGrp n x).variant = s.variant := (rfl)
@[simp] theorem State.setGrp_regs (s : State) (n : Nat) (x : Grp) : (s.setGrp n x).regs = s.regs := (rfl)
@[simp] theorem State.setGrp_image (s : State) (n : Nat) (x : Grp) : (s.setGrp n x).image = s.image := (rfl)
@[simp] theorem State.setGrp_store (s : State) (n : Nat) (x : Grp) : (s.setGrp n x).store = s.store := (rfl)
@[simp] theorem State.setGrp_power (s : State) (n : Nat) (x : Grp) : (s.setGrp n x).power = s.power := (rfl)
@[simp] theorem State.setGrp_ref (s : State) (n : Nat) (x : Grp) : (s.setGrp n x).ref = s.ref := (rfl)
@[simp] theorem State.setGrp_pci (s : State) (n : Nat) (x : Grp) : (s.setGrp n x).pci = s.pci := (rfl)
@[simp] theorem State.setGrp_epoch (s : State) (n : Nat) (x : Grp) : (s.setGrp n x).epoch = s.epoch := (rfl)
@[simp] theorem State.setGrp_running (s : State) (n : Nat) (x : Grp) : (s.setGrp n x).running = s.running := (rfl)
@[simp] theorem State.setGrp_leaves (s : State) (n : Nat) (x : Grp) : (s.setGrp n x).leaves = s.leaves := (rfl)
@[simp] theorem State.setGrp_chans (s : State) (n : Nat) (x : Grp) : (s.setGrp n x).chans = s.chans := (rfl)
@[simp] theorem State.setGrp_engines (s : State) (n : Nat) (x : Grp) : (s.setGrp n x).engines = s.engines := (rfl)
@[simp] theorem State.setGrp_rings (s : State) (n : Nat) (x : Grp) : (s.setGrp n x).rings = s.rings := (rfl)
@[simp] theorem State.setGrp_cmds (s : State) (n : Nat) (x : Grp) : (s.setGrp n x).cmds = s.cmds := (rfl)
@[simp] theorem State.setGrp_holds (s : State) (n : Nat) (x : Grp) : (s.setGrp n x).holds = s.holds := (rfl)
@[simp] theorem State.setGrp_boxes (s : State) (n : Nat) (x : Grp) : (s.setGrp n x).boxes = s.boxes := (rfl)
@[simp] theorem State.setGrp_reco (s : State) (n : Nat) (x : Grp) : (s.setGrp n x).reco = s.reco := (rfl)
@[simp] theorem State.setGrp_chain (s : State) (n : Nat) (x : Grp) : (s.setGrp n x).chain = s.chain := (rfl)
@[simp] theorem State.setGrp_cal (s : State) (n : Nat) (x : Grp) : (s.setGrp n x).cal = s.cal := (rfl)
@[simp] theorem State.setGrp_flt (s : State) (n : Nat) (x : Grp) : (s.setGrp n x).flt = s.flt := (rfl)
@[simp] theorem State.setGrp_therm (s : State) (n : Nat) (x : Grp) : (s.setGrp n x).therm = s.therm := (rfl)
@[simp] theorem State.setGrp_prot (s : State) (n : Nat) (x : Grp) : (s.setGrp n x).prot = s.prot := (rfl)
@[simp] theorem State.setGrp_kw (s : State) (n : Nat) (x : Grp) : (s.setGrp n x).kw = s.kw := (rfl)
@[simp] theorem State.setGrp_tap (s : State) (n : Nat) (x : Grp) : (s.setGrp n x).tap = s.tap := (rfl)
@[simp] theorem State.setGrp_trims (s : State) (n : Nat) (x : Grp) : (s.setGrp n x).trims = s.trims := (rfl)
@[simp] theorem State.setGrp_modRecs (s : State) (n : Nat) (x : Grp) : (s.setGrp n x).modRecs = s.modRecs := (rfl)
@[simp] theorem State.setGrp_occ (s : State) (n : Nat) (x : Grp) : (s.setGrp n x).occ = s.occ := (rfl)
@[simp] theorem State.setGrp_active (s : State) (n : Nat) (x : Grp) : (s.setGrp n x).active = s.active := (rfl)
@[simp] theorem State.setGrp_bootQ (s : State) (n : Nat) (x : Grp) : (s.setGrp n x).bootQ = s.bootQ := (rfl)
@[simp] theorem State.setGrp_bootDropped (s : State) (n : Nat) (x : Grp) : (s.setGrp n x).bootDropped = s.bootDropped := (rfl)
@[simp] theorem State.setGrp_bootQOn (s : State) (n : Nat) (x : Grp) : (s.setGrp n x).bootQOn = s.bootQOn := (rfl)
@[simp] theorem State.setGrp_evLost (s : State) (n : Nat) (x : Grp) : (s.setGrp n x).evLost = s.evLost := (rfl)
@[simp] theorem State.setGrp_linkLost (s : State) (n : Nat) (x : Grp) : (s.setGrp n x).linkLost = s.linkLost := (rfl)
@[simp] theorem State.setGrp_fetchNext (s : State) (n : Nat) (x : Grp) : (s.setGrp n x).fetchNext = s.fetchNext := (rfl)
@[simp] theorem State.setGrp_msixEn (s : State) (n : Nat) (x : Grp) : (s.setGrp n x).msixEn = s.msixEn := (rfl)
@[simp] theorem State.setGrp_msixMask (s : State) (n : Nat) (x : Grp) : (s.setGrp n x).msixMask = s.msixMask := (rfl)
@[simp] theorem State.setGrp_railOut (s : State) (n : Nat) (x : Grp) : (s.setGrp n x).railOut = s.railOut := (rfl)
@[simp] theorem State.setGrp_vinOut (s : State) (n : Nat) (x : Grp) : (s.setGrp n x).vinOut = s.vinOut := (rfl)
@[simp] theorem State.setGrp_out (s : State) (n : Nat) (x : Grp) : (s.setGrp n x).out = s.out := (rfl)
@[simp] theorem State.setGrp_held (s : State) (n : Nat) (x : Grp) : (s.setGrp n x).held = s.held := (rfl)
@[simp] theorem State.setGrp_freeCtr (s : State) (n : Nat) (x : Grp) : (s.setGrp n x).freeCtr = s.freeCtr := (rfl)
@[simp] theorem State.setGrp_pending (s : State) (n : Nat) (x : Grp) : (s.setGrp n x).pending = s.pending := (rfl)

/-! ### `modGrp` -/

@[simp] theorem State.modGrp_variant (s : State) (n : Nat) (f : Grp → Grp) : (s.modGrp n f).variant = s.variant := (rfl)
@[simp] theorem State.modGrp_regs (s : State) (n : Nat) (f : Grp → Grp) : (s.modGrp n f).regs = s.regs := (rfl)
@[simp] theorem State.modGrp_image (s : State) (n : Nat) (f : Grp → Grp) : (s.modGrp n f).image = s.image := (rfl)
@[simp] theorem State.modGrp_store (s : State) (n : Nat) (f : Grp → Grp) : (s.modGrp n f).store = s.store := (rfl)
@[simp] theorem State.modGrp_power (s : State) (n : Nat) (f : Grp → Grp) : (s.modGrp n f).power = s.power := (rfl)
@[simp] theorem State.modGrp_ref (s : State) (n : Nat) (f : Grp → Grp) : (s.modGrp n f).ref = s.ref := (rfl)
@[simp] theorem State.modGrp_pci (s : State) (n : Nat) (f : Grp → Grp) : (s.modGrp n f).pci = s.pci := (rfl)
@[simp] theorem State.modGrp_epoch (s : State) (n : Nat) (f : Grp → Grp) : (s.modGrp n f).epoch = s.epoch := (rfl)
@[simp] theorem State.modGrp_running (s : State) (n : Nat) (f : Grp → Grp) : (s.modGrp n f).running = s.running := (rfl)
@[simp] theorem State.modGrp_leaves (s : State) (n : Nat) (f : Grp → Grp) : (s.modGrp n f).leaves = s.leaves := (rfl)
@[simp] theorem State.modGrp_chans (s : State) (n : Nat) (f : Grp → Grp) : (s.modGrp n f).chans = s.chans := (rfl)
@[simp] theorem State.modGrp_engines (s : State) (n : Nat) (f : Grp → Grp) : (s.modGrp n f).engines = s.engines := (rfl)
@[simp] theorem State.modGrp_rings (s : State) (n : Nat) (f : Grp → Grp) : (s.modGrp n f).rings = s.rings := (rfl)
@[simp] theorem State.modGrp_cmds (s : State) (n : Nat) (f : Grp → Grp) : (s.modGrp n f).cmds = s.cmds := (rfl)
@[simp] theorem State.modGrp_holds (s : State) (n : Nat) (f : Grp → Grp) : (s.modGrp n f).holds = s.holds := (rfl)
@[simp] theorem State.modGrp_boxes (s : State) (n : Nat) (f : Grp → Grp) : (s.modGrp n f).boxes = s.boxes := (rfl)
@[simp] theorem State.modGrp_reco (s : State) (n : Nat) (f : Grp → Grp) : (s.modGrp n f).reco = s.reco := (rfl)
@[simp] theorem State.modGrp_chain (s : State) (n : Nat) (f : Grp → Grp) : (s.modGrp n f).chain = s.chain := (rfl)
@[simp] theorem State.modGrp_cal (s : State) (n : Nat) (f : Grp → Grp) : (s.modGrp n f).cal = s.cal := (rfl)
@[simp] theorem State.modGrp_flt (s : State) (n : Nat) (f : Grp → Grp) : (s.modGrp n f).flt = s.flt := (rfl)
@[simp] theorem State.modGrp_therm (s : State) (n : Nat) (f : Grp → Grp) : (s.modGrp n f).therm = s.therm := (rfl)
@[simp] theorem State.modGrp_prot (s : State) (n : Nat) (f : Grp → Grp) : (s.modGrp n f).prot = s.prot := (rfl)
@[simp] theorem State.modGrp_kw (s : State) (n : Nat) (f : Grp → Grp) : (s.modGrp n f).kw = s.kw := (rfl)
@[simp] theorem State.modGrp_tap (s : State) (n : Nat) (f : Grp → Grp) : (s.modGrp n f).tap = s.tap := (rfl)
@[simp] theorem State.modGrp_trims (s : State) (n : Nat) (f : Grp → Grp) : (s.modGrp n f).trims = s.trims := (rfl)
@[simp] theorem State.modGrp_modRecs (s : State) (n : Nat) (f : Grp → Grp) : (s.modGrp n f).modRecs = s.modRecs := (rfl)
@[simp] theorem State.modGrp_occ (s : State) (n : Nat) (f : Grp → Grp) : (s.modGrp n f).occ = s.occ := (rfl)
@[simp] theorem State.modGrp_active (s : State) (n : Nat) (f : Grp → Grp) : (s.modGrp n f).active = s.active := (rfl)
@[simp] theorem State.modGrp_bootQ (s : State) (n : Nat) (f : Grp → Grp) : (s.modGrp n f).bootQ = s.bootQ := (rfl)
@[simp] theorem State.modGrp_bootDropped (s : State) (n : Nat) (f : Grp → Grp) : (s.modGrp n f).bootDropped = s.bootDropped := (rfl)
@[simp] theorem State.modGrp_bootQOn (s : State) (n : Nat) (f : Grp → Grp) : (s.modGrp n f).bootQOn = s.bootQOn := (rfl)
@[simp] theorem State.modGrp_evLost (s : State) (n : Nat) (f : Grp → Grp) : (s.modGrp n f).evLost = s.evLost := (rfl)
@[simp] theorem State.modGrp_linkLost (s : State) (n : Nat) (f : Grp → Grp) : (s.modGrp n f).linkLost = s.linkLost := (rfl)
@[simp] theorem State.modGrp_fetchNext (s : State) (n : Nat) (f : Grp → Grp) : (s.modGrp n f).fetchNext = s.fetchNext := (rfl)
@[simp] theorem State.modGrp_msixEn (s : State) (n : Nat) (f : Grp → Grp) : (s.modGrp n f).msixEn = s.msixEn := (rfl)
@[simp] theorem State.modGrp_msixMask (s : State) (n : Nat) (f : Grp → Grp) : (s.modGrp n f).msixMask = s.msixMask := (rfl)
@[simp] theorem State.modGrp_railOut (s : State) (n : Nat) (f : Grp → Grp) : (s.modGrp n f).railOut = s.railOut := (rfl)
@[simp] theorem State.modGrp_vinOut (s : State) (n : Nat) (f : Grp → Grp) : (s.modGrp n f).vinOut = s.vinOut := (rfl)
@[simp] theorem State.modGrp_out (s : State) (n : Nat) (f : Grp → Grp) : (s.modGrp n f).out = s.out := (rfl)
@[simp] theorem State.modGrp_held (s : State) (n : Nat) (f : Grp → Grp) : (s.modGrp n f).held = s.held := (rfl)
@[simp] theorem State.modGrp_freeCtr (s : State) (n : Nat) (f : Grp → Grp) : (s.modGrp n f).freeCtr = s.freeCtr := (rfl)
@[simp] theorem State.modGrp_pending (s : State) (n : Nat) (f : Grp → Grp) : (s.modGrp n f).pending = s.pending := (rfl)

/-! ### `setChan` -/

@[simp] theorem State.setChan_variant (s : State) (n : Nat) (x : Chan) : (s.setChan n x).variant = s.variant := (rfl)
@[simp] theorem State.setChan_regs (s : State) (n : Nat) (x : Chan) : (s.setChan n x).regs = s.regs := (rfl)
@[simp] theorem State.setChan_image (s : State) (n : Nat) (x : Chan) : (s.setChan n x).image = s.image := (rfl)
@[simp] theorem State.setChan_store (s : State) (n : Nat) (x : Chan) : (s.setChan n x).store = s.store := (rfl)
@[simp] theorem State.setChan_power (s : State) (n : Nat) (x : Chan) : (s.setChan n x).power = s.power := (rfl)
@[simp] theorem State.setChan_ref (s : State) (n : Nat) (x : Chan) : (s.setChan n x).ref = s.ref := (rfl)
@[simp] theorem State.setChan_pci (s : State) (n : Nat) (x : Chan) : (s.setChan n x).pci = s.pci := (rfl)
@[simp] theorem State.setChan_epoch (s : State) (n : Nat) (x : Chan) : (s.setChan n x).epoch = s.epoch := (rfl)
@[simp] theorem State.setChan_running (s : State) (n : Nat) (x : Chan) : (s.setChan n x).running = s.running := (rfl)
@[simp] theorem State.setChan_leaves (s : State) (n : Nat) (x : Chan) : (s.setChan n x).leaves = s.leaves := (rfl)
@[simp] theorem State.setChan_groups (s : State) (n : Nat) (x : Chan) : (s.setChan n x).groups = s.groups := (rfl)
@[simp] theorem State.setChan_engines (s : State) (n : Nat) (x : Chan) : (s.setChan n x).engines = s.engines := (rfl)
@[simp] theorem State.setChan_rings (s : State) (n : Nat) (x : Chan) : (s.setChan n x).rings = s.rings := (rfl)
@[simp] theorem State.setChan_cmds (s : State) (n : Nat) (x : Chan) : (s.setChan n x).cmds = s.cmds := (rfl)
@[simp] theorem State.setChan_holds (s : State) (n : Nat) (x : Chan) : (s.setChan n x).holds = s.holds := (rfl)
@[simp] theorem State.setChan_boxes (s : State) (n : Nat) (x : Chan) : (s.setChan n x).boxes = s.boxes := (rfl)
@[simp] theorem State.setChan_reco (s : State) (n : Nat) (x : Chan) : (s.setChan n x).reco = s.reco := (rfl)
@[simp] theorem State.setChan_chain (s : State) (n : Nat) (x : Chan) : (s.setChan n x).chain = s.chain := (rfl)
@[simp] theorem State.setChan_cal (s : State) (n : Nat) (x : Chan) : (s.setChan n x).cal = s.cal := (rfl)
@[simp] theorem State.setChan_flt (s : State) (n : Nat) (x : Chan) : (s.setChan n x).flt = s.flt := (rfl)
@[simp] theorem State.setChan_therm (s : State) (n : Nat) (x : Chan) : (s.setChan n x).therm = s.therm := (rfl)
@[simp] theorem State.setChan_prot (s : State) (n : Nat) (x : Chan) : (s.setChan n x).prot = s.prot := (rfl)
@[simp] theorem State.setChan_kw (s : State) (n : Nat) (x : Chan) : (s.setChan n x).kw = s.kw := (rfl)
@[simp] theorem State.setChan_tap (s : State) (n : Nat) (x : Chan) : (s.setChan n x).tap = s.tap := (rfl)
@[simp] theorem State.setChan_trims (s : State) (n : Nat) (x : Chan) : (s.setChan n x).trims = s.trims := (rfl)
@[simp] theorem State.setChan_modRecs (s : State) (n : Nat) (x : Chan) : (s.setChan n x).modRecs = s.modRecs := (rfl)
@[simp] theorem State.setChan_occ (s : State) (n : Nat) (x : Chan) : (s.setChan n x).occ = s.occ := (rfl)
@[simp] theorem State.setChan_active (s : State) (n : Nat) (x : Chan) : (s.setChan n x).active = s.active := (rfl)
@[simp] theorem State.setChan_bootQ (s : State) (n : Nat) (x : Chan) : (s.setChan n x).bootQ = s.bootQ := (rfl)
@[simp] theorem State.setChan_bootDropped (s : State) (n : Nat) (x : Chan) : (s.setChan n x).bootDropped = s.bootDropped := (rfl)
@[simp] theorem State.setChan_bootQOn (s : State) (n : Nat) (x : Chan) : (s.setChan n x).bootQOn = s.bootQOn := (rfl)
@[simp] theorem State.setChan_evLost (s : State) (n : Nat) (x : Chan) : (s.setChan n x).evLost = s.evLost := (rfl)
@[simp] theorem State.setChan_linkLost (s : State) (n : Nat) (x : Chan) : (s.setChan n x).linkLost = s.linkLost := (rfl)
@[simp] theorem State.setChan_fetchNext (s : State) (n : Nat) (x : Chan) : (s.setChan n x).fetchNext = s.fetchNext := (rfl)
@[simp] theorem State.setChan_msixEn (s : State) (n : Nat) (x : Chan) : (s.setChan n x).msixEn = s.msixEn := (rfl)
@[simp] theorem State.setChan_msixMask (s : State) (n : Nat) (x : Chan) : (s.setChan n x).msixMask = s.msixMask := (rfl)
@[simp] theorem State.setChan_railOut (s : State) (n : Nat) (x : Chan) : (s.setChan n x).railOut = s.railOut := (rfl)
@[simp] theorem State.setChan_vinOut (s : State) (n : Nat) (x : Chan) : (s.setChan n x).vinOut = s.vinOut := (rfl)
@[simp] theorem State.setChan_out (s : State) (n : Nat) (x : Chan) : (s.setChan n x).out = s.out := (rfl)
@[simp] theorem State.setChan_held (s : State) (n : Nat) (x : Chan) : (s.setChan n x).held = s.held := (rfl)
@[simp] theorem State.setChan_freeCtr (s : State) (n : Nat) (x : Chan) : (s.setChan n x).freeCtr = s.freeCtr := (rfl)
@[simp] theorem State.setChan_pending (s : State) (n : Nat) (x : Chan) : (s.setChan n x).pending = s.pending := (rfl)

/-! ### `modChan` -/

@[simp] theorem State.modChan_variant (s : State) (n : Nat) (f : Chan → Chan) : (s.modChan n f).variant = s.variant := (rfl)
@[simp] theorem State.modChan_regs (s : State) (n : Nat) (f : Chan → Chan) : (s.modChan n f).regs = s.regs := (rfl)
@[simp] theorem State.modChan_image (s : State) (n : Nat) (f : Chan → Chan) : (s.modChan n f).image = s.image := (rfl)
@[simp] theorem State.modChan_store (s : State) (n : Nat) (f : Chan → Chan) : (s.modChan n f).store = s.store := (rfl)
@[simp] theorem State.modChan_power (s : State) (n : Nat) (f : Chan → Chan) : (s.modChan n f).power = s.power := (rfl)
@[simp] theorem State.modChan_ref (s : State) (n : Nat) (f : Chan → Chan) : (s.modChan n f).ref = s.ref := (rfl)
@[simp] theorem State.modChan_pci (s : State) (n : Nat) (f : Chan → Chan) : (s.modChan n f).pci = s.pci := (rfl)
@[simp] theorem State.modChan_epoch (s : State) (n : Nat) (f : Chan → Chan) : (s.modChan n f).epoch = s.epoch := (rfl)
@[simp] theorem State.modChan_running (s : State) (n : Nat) (f : Chan → Chan) : (s.modChan n f).running = s.running := (rfl)
@[simp] theorem State.modChan_leaves (s : State) (n : Nat) (f : Chan → Chan) : (s.modChan n f).leaves = s.leaves := (rfl)
@[simp] theorem State.modChan_groups (s : State) (n : Nat) (f : Chan → Chan) : (s.modChan n f).groups = s.groups := (rfl)
@[simp] theorem State.modChan_engines (s : State) (n : Nat) (f : Chan → Chan) : (s.modChan n f).engines = s.engines := (rfl)
@[simp] theorem State.modChan_rings (s : State) (n : Nat) (f : Chan → Chan) : (s.modChan n f).rings = s.rings := (rfl)
@[simp] theorem State.modChan_cmds (s : State) (n : Nat) (f : Chan → Chan) : (s.modChan n f).cmds = s.cmds := (rfl)
@[simp] theorem State.modChan_holds (s : State) (n : Nat) (f : Chan → Chan) : (s.modChan n f).holds = s.holds := (rfl)
@[simp] theorem State.modChan_boxes (s : State) (n : Nat) (f : Chan → Chan) : (s.modChan n f).boxes = s.boxes := (rfl)
@[simp] theorem State.modChan_reco (s : State) (n : Nat) (f : Chan → Chan) : (s.modChan n f).reco = s.reco := (rfl)
@[simp] theorem State.modChan_chain (s : State) (n : Nat) (f : Chan → Chan) : (s.modChan n f).chain = s.chain := (rfl)
@[simp] theorem State.modChan_cal (s : State) (n : Nat) (f : Chan → Chan) : (s.modChan n f).cal = s.cal := (rfl)
@[simp] theorem State.modChan_flt (s : State) (n : Nat) (f : Chan → Chan) : (s.modChan n f).flt = s.flt := (rfl)
@[simp] theorem State.modChan_therm (s : State) (n : Nat) (f : Chan → Chan) : (s.modChan n f).therm = s.therm := (rfl)
@[simp] theorem State.modChan_prot (s : State) (n : Nat) (f : Chan → Chan) : (s.modChan n f).prot = s.prot := (rfl)
@[simp] theorem State.modChan_kw (s : State) (n : Nat) (f : Chan → Chan) : (s.modChan n f).kw = s.kw := (rfl)
@[simp] theorem State.modChan_tap (s : State) (n : Nat) (f : Chan → Chan) : (s.modChan n f).tap = s.tap := (rfl)
@[simp] theorem State.modChan_trims (s : State) (n : Nat) (f : Chan → Chan) : (s.modChan n f).trims = s.trims := (rfl)
@[simp] theorem State.modChan_modRecs (s : State) (n : Nat) (f : Chan → Chan) : (s.modChan n f).modRecs = s.modRecs := (rfl)
@[simp] theorem State.modChan_occ (s : State) (n : Nat) (f : Chan → Chan) : (s.modChan n f).occ = s.occ := (rfl)
@[simp] theorem State.modChan_active (s : State) (n : Nat) (f : Chan → Chan) : (s.modChan n f).active = s.active := (rfl)
@[simp] theorem State.modChan_bootQ (s : State) (n : Nat) (f : Chan → Chan) : (s.modChan n f).bootQ = s.bootQ := (rfl)
@[simp] theorem State.modChan_bootDropped (s : State) (n : Nat) (f : Chan → Chan) : (s.modChan n f).bootDropped = s.bootDropped := (rfl)
@[simp] theorem State.modChan_bootQOn (s : State) (n : Nat) (f : Chan → Chan) : (s.modChan n f).bootQOn = s.bootQOn := (rfl)
@[simp] theorem State.modChan_evLost (s : State) (n : Nat) (f : Chan → Chan) : (s.modChan n f).evLost = s.evLost := (rfl)
@[simp] theorem State.modChan_linkLost (s : State) (n : Nat) (f : Chan → Chan) : (s.modChan n f).linkLost = s.linkLost := (rfl)
@[simp] theorem State.modChan_fetchNext (s : State) (n : Nat) (f : Chan → Chan) : (s.modChan n f).fetchNext = s.fetchNext := (rfl)
@[simp] theorem State.modChan_msixEn (s : State) (n : Nat) (f : Chan → Chan) : (s.modChan n f).msixEn = s.msixEn := (rfl)
@[simp] theorem State.modChan_msixMask (s : State) (n : Nat) (f : Chan → Chan) : (s.modChan n f).msixMask = s.msixMask := (rfl)
@[simp] theorem State.modChan_railOut (s : State) (n : Nat) (f : Chan → Chan) : (s.modChan n f).railOut = s.railOut := (rfl)
@[simp] theorem State.modChan_vinOut (s : State) (n : Nat) (f : Chan → Chan) : (s.modChan n f).vinOut = s.vinOut := (rfl)
@[simp] theorem State.modChan_out (s : State) (n : Nat) (f : Chan → Chan) : (s.modChan n f).out = s.out := (rfl)
@[simp] theorem State.modChan_held (s : State) (n : Nat) (f : Chan → Chan) : (s.modChan n f).held = s.held := (rfl)
@[simp] theorem State.modChan_freeCtr (s : State) (n : Nat) (f : Chan → Chan) : (s.modChan n f).freeCtr = s.freeCtr := (rfl)
@[simp] theorem State.modChan_pending (s : State) (n : Nat) (f : Chan → Chan) : (s.modChan n f).pending = s.pending := (rfl)

/-! ### `setEng` -/

@[simp] theorem State.setEng_variant (s : State) (n : Nat) (x : Engine) : (s.setEng n x).variant = s.variant := (rfl)
@[simp] theorem State.setEng_regs (s : State) (n : Nat) (x : Engine) : (s.setEng n x).regs = s.regs := (rfl)
@[simp] theorem State.setEng_image (s : State) (n : Nat) (x : Engine) : (s.setEng n x).image = s.image := (rfl)
@[simp] theorem State.setEng_store (s : State) (n : Nat) (x : Engine) : (s.setEng n x).store = s.store := (rfl)
@[simp] theorem State.setEng_power (s : State) (n : Nat) (x : Engine) : (s.setEng n x).power = s.power := (rfl)
@[simp] theorem State.setEng_ref (s : State) (n : Nat) (x : Engine) : (s.setEng n x).ref = s.ref := (rfl)
@[simp] theorem State.setEng_pci (s : State) (n : Nat) (x : Engine) : (s.setEng n x).pci = s.pci := (rfl)
@[simp] theorem State.setEng_epoch (s : State) (n : Nat) (x : Engine) : (s.setEng n x).epoch = s.epoch := (rfl)
@[simp] theorem State.setEng_running (s : State) (n : Nat) (x : Engine) : (s.setEng n x).running = s.running := (rfl)
@[simp] theorem State.setEng_leaves (s : State) (n : Nat) (x : Engine) : (s.setEng n x).leaves = s.leaves := (rfl)
@[simp] theorem State.setEng_groups (s : State) (n : Nat) (x : Engine) : (s.setEng n x).groups = s.groups := (rfl)
@[simp] theorem State.setEng_chans (s : State) (n : Nat) (x : Engine) : (s.setEng n x).chans = s.chans := (rfl)
@[simp] theorem State.setEng_rings (s : State) (n : Nat) (x : Engine) : (s.setEng n x).rings = s.rings := (rfl)
@[simp] theorem State.setEng_cmds (s : State) (n : Nat) (x : Engine) : (s.setEng n x).cmds = s.cmds := (rfl)
@[simp] theorem State.setEng_holds (s : State) (n : Nat) (x : Engine) : (s.setEng n x).holds = s.holds := (rfl)
@[simp] theorem State.setEng_boxes (s : State) (n : Nat) (x : Engine) : (s.setEng n x).boxes = s.boxes := (rfl)
@[simp] theorem State.setEng_reco (s : State) (n : Nat) (x : Engine) : (s.setEng n x).reco = s.reco := (rfl)
@[simp] theorem State.setEng_chain (s : State) (n : Nat) (x : Engine) : (s.setEng n x).chain = s.chain := (rfl)
@[simp] theorem State.setEng_cal (s : State) (n : Nat) (x : Engine) : (s.setEng n x).cal = s.cal := (rfl)
@[simp] theorem State.setEng_flt (s : State) (n : Nat) (x : Engine) : (s.setEng n x).flt = s.flt := (rfl)
@[simp] theorem State.setEng_therm (s : State) (n : Nat) (x : Engine) : (s.setEng n x).therm = s.therm := (rfl)
@[simp] theorem State.setEng_prot (s : State) (n : Nat) (x : Engine) : (s.setEng n x).prot = s.prot := (rfl)
@[simp] theorem State.setEng_kw (s : State) (n : Nat) (x : Engine) : (s.setEng n x).kw = s.kw := (rfl)
@[simp] theorem State.setEng_tap (s : State) (n : Nat) (x : Engine) : (s.setEng n x).tap = s.tap := (rfl)
@[simp] theorem State.setEng_trims (s : State) (n : Nat) (x : Engine) : (s.setEng n x).trims = s.trims := (rfl)
@[simp] theorem State.setEng_modRecs (s : State) (n : Nat) (x : Engine) : (s.setEng n x).modRecs = s.modRecs := (rfl)
@[simp] theorem State.setEng_occ (s : State) (n : Nat) (x : Engine) : (s.setEng n x).occ = s.occ := (rfl)
@[simp] theorem State.setEng_active (s : State) (n : Nat) (x : Engine) : (s.setEng n x).active = s.active := (rfl)
@[simp] theorem State.setEng_bootQ (s : State) (n : Nat) (x : Engine) : (s.setEng n x).bootQ = s.bootQ := (rfl)
@[simp] theorem State.setEng_bootDropped (s : State) (n : Nat) (x : Engine) : (s.setEng n x).bootDropped = s.bootDropped := (rfl)
@[simp] theorem State.setEng_bootQOn (s : State) (n : Nat) (x : Engine) : (s.setEng n x).bootQOn = s.bootQOn := (rfl)
@[simp] theorem State.setEng_evLost (s : State) (n : Nat) (x : Engine) : (s.setEng n x).evLost = s.evLost := (rfl)
@[simp] theorem State.setEng_linkLost (s : State) (n : Nat) (x : Engine) : (s.setEng n x).linkLost = s.linkLost := (rfl)
@[simp] theorem State.setEng_fetchNext (s : State) (n : Nat) (x : Engine) : (s.setEng n x).fetchNext = s.fetchNext := (rfl)
@[simp] theorem State.setEng_msixEn (s : State) (n : Nat) (x : Engine) : (s.setEng n x).msixEn = s.msixEn := (rfl)
@[simp] theorem State.setEng_msixMask (s : State) (n : Nat) (x : Engine) : (s.setEng n x).msixMask = s.msixMask := (rfl)
@[simp] theorem State.setEng_railOut (s : State) (n : Nat) (x : Engine) : (s.setEng n x).railOut = s.railOut := (rfl)
@[simp] theorem State.setEng_vinOut (s : State) (n : Nat) (x : Engine) : (s.setEng n x).vinOut = s.vinOut := (rfl)
@[simp] theorem State.setEng_out (s : State) (n : Nat) (x : Engine) : (s.setEng n x).out = s.out := (rfl)
@[simp] theorem State.setEng_held (s : State) (n : Nat) (x : Engine) : (s.setEng n x).held = s.held := (rfl)
@[simp] theorem State.setEng_freeCtr (s : State) (n : Nat) (x : Engine) : (s.setEng n x).freeCtr = s.freeCtr := (rfl)
@[simp] theorem State.setEng_pending (s : State) (n : Nat) (x : Engine) : (s.setEng n x).pending = s.pending := (rfl)

/-! ### `modEng` -/

@[simp] theorem State.modEng_variant (s : State) (n : Nat) (f : Engine → Engine) : (s.modEng n f).variant = s.variant := (rfl)
@[simp] theorem State.modEng_regs (s : State) (n : Nat) (f : Engine → Engine) : (s.modEng n f).regs = s.regs := (rfl)
@[simp] theorem State.modEng_image (s : State) (n : Nat) (f : Engine → Engine) : (s.modEng n f).image = s.image := (rfl)
@[simp] theorem State.modEng_store (s : State) (n : Nat) (f : Engine → Engine) : (s.modEng n f).store = s.store := (rfl)
@[simp] theorem State.modEng_power (s : State) (n : Nat) (f : Engine → Engine) : (s.modEng n f).power = s.power := (rfl)
@[simp] theorem State.modEng_ref (s : State) (n : Nat) (f : Engine → Engine) : (s.modEng n f).ref = s.ref := (rfl)
@[simp] theorem State.modEng_pci (s : State) (n : Nat) (f : Engine → Engine) : (s.modEng n f).pci = s.pci := (rfl)
@[simp] theorem State.modEng_epoch (s : State) (n : Nat) (f : Engine → Engine) : (s.modEng n f).epoch = s.epoch := (rfl)
@[simp] theorem State.modEng_running (s : State) (n : Nat) (f : Engine → Engine) : (s.modEng n f).running = s.running := (rfl)
@[simp] theorem State.modEng_leaves (s : State) (n : Nat) (f : Engine → Engine) : (s.modEng n f).leaves = s.leaves := (rfl)
@[simp] theorem State.modEng_groups (s : State) (n : Nat) (f : Engine → Engine) : (s.modEng n f).groups = s.groups := (rfl)
@[simp] theorem State.modEng_chans (s : State) (n : Nat) (f : Engine → Engine) : (s.modEng n f).chans = s.chans := (rfl)
@[simp] theorem State.modEng_rings (s : State) (n : Nat) (f : Engine → Engine) : (s.modEng n f).rings = s.rings := (rfl)
@[simp] theorem State.modEng_cmds (s : State) (n : Nat) (f : Engine → Engine) : (s.modEng n f).cmds = s.cmds := (rfl)
@[simp] theorem State.modEng_holds (s : State) (n : Nat) (f : Engine → Engine) : (s.modEng n f).holds = s.holds := (rfl)
@[simp] theorem State.modEng_boxes (s : State) (n : Nat) (f : Engine → Engine) : (s.modEng n f).boxes = s.boxes := (rfl)
@[simp] theorem State.modEng_reco (s : State) (n : Nat) (f : Engine → Engine) : (s.modEng n f).reco = s.reco := (rfl)
@[simp] theorem State.modEng_chain (s : State) (n : Nat) (f : Engine → Engine) : (s.modEng n f).chain = s.chain := (rfl)
@[simp] theorem State.modEng_cal (s : State) (n : Nat) (f : Engine → Engine) : (s.modEng n f).cal = s.cal := (rfl)
@[simp] theorem State.modEng_flt (s : State) (n : Nat) (f : Engine → Engine) : (s.modEng n f).flt = s.flt := (rfl)
@[simp] theorem State.modEng_therm (s : State) (n : Nat) (f : Engine → Engine) : (s.modEng n f).therm = s.therm := (rfl)
@[simp] theorem State.modEng_prot (s : State) (n : Nat) (f : Engine → Engine) : (s.modEng n f).prot = s.prot := (rfl)
@[simp] theorem State.modEng_kw (s : State) (n : Nat) (f : Engine → Engine) : (s.modEng n f).kw = s.kw := (rfl)
@[simp] theorem State.modEng_tap (s : State) (n : Nat) (f : Engine → Engine) : (s.modEng n f).tap = s.tap := (rfl)
@[simp] theorem State.modEng_trims (s : State) (n : Nat) (f : Engine → Engine) : (s.modEng n f).trims = s.trims := (rfl)
@[simp] theorem State.modEng_modRecs (s : State) (n : Nat) (f : Engine → Engine) : (s.modEng n f).modRecs = s.modRecs := (rfl)
@[simp] theorem State.modEng_occ (s : State) (n : Nat) (f : Engine → Engine) : (s.modEng n f).occ = s.occ := (rfl)
@[simp] theorem State.modEng_active (s : State) (n : Nat) (f : Engine → Engine) : (s.modEng n f).active = s.active := (rfl)
@[simp] theorem State.modEng_bootQ (s : State) (n : Nat) (f : Engine → Engine) : (s.modEng n f).bootQ = s.bootQ := (rfl)
@[simp] theorem State.modEng_bootDropped (s : State) (n : Nat) (f : Engine → Engine) : (s.modEng n f).bootDropped = s.bootDropped := (rfl)
@[simp] theorem State.modEng_bootQOn (s : State) (n : Nat) (f : Engine → Engine) : (s.modEng n f).bootQOn = s.bootQOn := (rfl)
@[simp] theorem State.modEng_evLost (s : State) (n : Nat) (f : Engine → Engine) : (s.modEng n f).evLost = s.evLost := (rfl)
@[simp] theorem State.modEng_linkLost (s : State) (n : Nat) (f : Engine → Engine) : (s.modEng n f).linkLost = s.linkLost := (rfl)
@[simp] theorem State.modEng_fetchNext (s : State) (n : Nat) (f : Engine → Engine) : (s.modEng n f).fetchNext = s.fetchNext := (rfl)
@[simp] theorem State.modEng_msixEn (s : State) (n : Nat) (f : Engine → Engine) : (s.modEng n f).msixEn = s.msixEn := (rfl)
@[simp] theorem State.modEng_msixMask (s : State) (n : Nat) (f : Engine → Engine) : (s.modEng n f).msixMask = s.msixMask := (rfl)
@[simp] theorem State.modEng_railOut (s : State) (n : Nat) (f : Engine → Engine) : (s.modEng n f).railOut = s.railOut := (rfl)
@[simp] theorem State.modEng_vinOut (s : State) (n : Nat) (f : Engine → Engine) : (s.modEng n f).vinOut = s.vinOut := (rfl)
@[simp] theorem State.modEng_out (s : State) (n : Nat) (f : Engine → Engine) : (s.modEng n f).out = s.out := (rfl)
@[simp] theorem State.modEng_held (s : State) (n : Nat) (f : Engine → Engine) : (s.modEng n f).held = s.held := (rfl)
@[simp] theorem State.modEng_freeCtr (s : State) (n : Nat) (f : Engine → Engine) : (s.modEng n f).freeCtr = s.freeCtr := (rfl)
@[simp] theorem State.modEng_pending (s : State) (n : Nat) (f : Engine → Engine) : (s.modEng n f).pending = s.pending := (rfl)

/-! ### `setRing` -/

@[simp] theorem State.setRing_variant (s : State) (n : Nat) (x : Ring) : (s.setRing n x).variant = s.variant := (rfl)
@[simp] theorem State.setRing_regs (s : State) (n : Nat) (x : Ring) : (s.setRing n x).regs = s.regs := (rfl)
@[simp] theorem State.setRing_image (s : State) (n : Nat) (x : Ring) : (s.setRing n x).image = s.image := (rfl)
@[simp] theorem State.setRing_store (s : State) (n : Nat) (x : Ring) : (s.setRing n x).store = s.store := (rfl)
@[simp] theorem State.setRing_power (s : State) (n : Nat) (x : Ring) : (s.setRing n x).power = s.power := (rfl)
@[simp] theorem State.setRing_ref (s : State) (n : Nat) (x : Ring) : (s.setRing n x).ref = s.ref := (rfl)
@[simp] theorem State.setRing_pci (s : State) (n : Nat) (x : Ring) : (s.setRing n x).pci = s.pci := (rfl)
@[simp] theorem State.setRing_epoch (s : State) (n : Nat) (x : Ring) : (s.setRing n x).epoch = s.epoch := (rfl)
@[simp] theorem State.setRing_running (s : State) (n : Nat) (x : Ring) : (s.setRing n x).running = s.running := (rfl)
@[simp] theorem State.setRing_leaves (s : State) (n : Nat) (x : Ring) : (s.setRing n x).leaves = s.leaves := (rfl)
@[simp] theorem State.setRing_groups (s : State) (n : Nat) (x : Ring) : (s.setRing n x).groups = s.groups := (rfl)
@[simp] theorem State.setRing_chans (s : State) (n : Nat) (x : Ring) : (s.setRing n x).chans = s.chans := (rfl)
@[simp] theorem State.setRing_engines (s : State) (n : Nat) (x : Ring) : (s.setRing n x).engines = s.engines := (rfl)
@[simp] theorem State.setRing_cmds (s : State) (n : Nat) (x : Ring) : (s.setRing n x).cmds = s.cmds := (rfl)
@[simp] theorem State.setRing_holds (s : State) (n : Nat) (x : Ring) : (s.setRing n x).holds = s.holds := (rfl)
@[simp] theorem State.setRing_boxes (s : State) (n : Nat) (x : Ring) : (s.setRing n x).boxes = s.boxes := (rfl)
@[simp] theorem State.setRing_reco (s : State) (n : Nat) (x : Ring) : (s.setRing n x).reco = s.reco := (rfl)
@[simp] theorem State.setRing_chain (s : State) (n : Nat) (x : Ring) : (s.setRing n x).chain = s.chain := (rfl)
@[simp] theorem State.setRing_cal (s : State) (n : Nat) (x : Ring) : (s.setRing n x).cal = s.cal := (rfl)
@[simp] theorem State.setRing_flt (s : State) (n : Nat) (x : Ring) : (s.setRing n x).flt = s.flt := (rfl)
@[simp] theorem State.setRing_therm (s : State) (n : Nat) (x : Ring) : (s.setRing n x).therm = s.therm := (rfl)
@[simp] theorem State.setRing_prot (s : State) (n : Nat) (x : Ring) : (s.setRing n x).prot = s.prot := (rfl)
@[simp] theorem State.setRing_kw (s : State) (n : Nat) (x : Ring) : (s.setRing n x).kw = s.kw := (rfl)
@[simp] theorem State.setRing_tap (s : State) (n : Nat) (x : Ring) : (s.setRing n x).tap = s.tap := (rfl)
@[simp] theorem State.setRing_trims (s : State) (n : Nat) (x : Ring) : (s.setRing n x).trims = s.trims := (rfl)
@[simp] theorem State.setRing_modRecs (s : State) (n : Nat) (x : Ring) : (s.setRing n x).modRecs = s.modRecs := (rfl)
@[simp] theorem State.setRing_occ (s : State) (n : Nat) (x : Ring) : (s.setRing n x).occ = s.occ := (rfl)
@[simp] theorem State.setRing_active (s : State) (n : Nat) (x : Ring) : (s.setRing n x).active = s.active := (rfl)
@[simp] theorem State.setRing_bootQ (s : State) (n : Nat) (x : Ring) : (s.setRing n x).bootQ = s.bootQ := (rfl)
@[simp] theorem State.setRing_bootDropped (s : State) (n : Nat) (x : Ring) : (s.setRing n x).bootDropped = s.bootDropped := (rfl)
@[simp] theorem State.setRing_bootQOn (s : State) (n : Nat) (x : Ring) : (s.setRing n x).bootQOn = s.bootQOn := (rfl)
@[simp] theorem State.setRing_evLost (s : State) (n : Nat) (x : Ring) : (s.setRing n x).evLost = s.evLost := (rfl)
@[simp] theorem State.setRing_linkLost (s : State) (n : Nat) (x : Ring) : (s.setRing n x).linkLost = s.linkLost := (rfl)
@[simp] theorem State.setRing_fetchNext (s : State) (n : Nat) (x : Ring) : (s.setRing n x).fetchNext = s.fetchNext := (rfl)
@[simp] theorem State.setRing_msixEn (s : State) (n : Nat) (x : Ring) : (s.setRing n x).msixEn = s.msixEn := (rfl)
@[simp] theorem State.setRing_msixMask (s : State) (n : Nat) (x : Ring) : (s.setRing n x).msixMask = s.msixMask := (rfl)
@[simp] theorem State.setRing_railOut (s : State) (n : Nat) (x : Ring) : (s.setRing n x).railOut = s.railOut := (rfl)
@[simp] theorem State.setRing_vinOut (s : State) (n : Nat) (x : Ring) : (s.setRing n x).vinOut = s.vinOut := (rfl)
@[simp] theorem State.setRing_out (s : State) (n : Nat) (x : Ring) : (s.setRing n x).out = s.out := (rfl)
@[simp] theorem State.setRing_held (s : State) (n : Nat) (x : Ring) : (s.setRing n x).held = s.held := (rfl)
@[simp] theorem State.setRing_freeCtr (s : State) (n : Nat) (x : Ring) : (s.setRing n x).freeCtr = s.freeCtr := (rfl)
@[simp] theorem State.setRing_pending (s : State) (n : Nat) (x : Ring) : (s.setRing n x).pending = s.pending := (rfl)

/-! ### `modRing` -/

@[simp] theorem State.modRing_variant (s : State) (n : Nat) (f : Ring → Ring) : (s.modRing n f).variant = s.variant := (rfl)
@[simp] theorem State.modRing_regs (s : State) (n : Nat) (f : Ring → Ring) : (s.modRing n f).regs = s.regs := (rfl)
@[simp] theorem State.modRing_image (s : State) (n : Nat) (f : Ring → Ring) : (s.modRing n f).image = s.image := (rfl)
@[simp] theorem State.modRing_store (s : State) (n : Nat) (f : Ring → Ring) : (s.modRing n f).store = s.store := (rfl)
@[simp] theorem State.modRing_power (s : State) (n : Nat) (f : Ring → Ring) : (s.modRing n f).power = s.power := (rfl)
@[simp] theorem State.modRing_ref (s : State) (n : Nat) (f : Ring → Ring) : (s.modRing n f).ref = s.ref := (rfl)
@[simp] theorem State.modRing_pci (s : State) (n : Nat) (f : Ring → Ring) : (s.modRing n f).pci = s.pci := (rfl)
@[simp] theorem State.modRing_epoch (s : State) (n : Nat) (f : Ring → Ring) : (s.modRing n f).epoch = s.epoch := (rfl)
@[simp] theorem State.modRing_running (s : State) (n : Nat) (f : Ring → Ring) : (s.modRing n f).running = s.running := (rfl)
@[simp] theorem State.modRing_leaves (s : State) (n : Nat) (f : Ring → Ring) : (s.modRing n f).leaves = s.leaves := (rfl)
@[simp] theorem State.modRing_groups (s : State) (n : Nat) (f : Ring → Ring) : (s.modRing n f).groups = s.groups := (rfl)
@[simp] theorem State.modRing_chans (s : State) (n : Nat) (f : Ring → Ring) : (s.modRing n f).chans = s.chans := (rfl)
@[simp] theorem State.modRing_engines (s : State) (n : Nat) (f : Ring → Ring) : (s.modRing n f).engines = s.engines := (rfl)
@[simp] theorem State.modRing_cmds (s : State) (n : Nat) (f : Ring → Ring) : (s.modRing n f).cmds = s.cmds := (rfl)
@[simp] theorem State.modRing_holds (s : State) (n : Nat) (f : Ring → Ring) : (s.modRing n f).holds = s.holds := (rfl)
@[simp] theorem State.modRing_boxes (s : State) (n : Nat) (f : Ring → Ring) : (s.modRing n f).boxes = s.boxes := (rfl)
@[simp] theorem State.modRing_reco (s : State) (n : Nat) (f : Ring → Ring) : (s.modRing n f).reco = s.reco := (rfl)
@[simp] theorem State.modRing_chain (s : State) (n : Nat) (f : Ring → Ring) : (s.modRing n f).chain = s.chain := (rfl)
@[simp] theorem State.modRing_cal (s : State) (n : Nat) (f : Ring → Ring) : (s.modRing n f).cal = s.cal := (rfl)
@[simp] theorem State.modRing_flt (s : State) (n : Nat) (f : Ring → Ring) : (s.modRing n f).flt = s.flt := (rfl)
@[simp] theorem State.modRing_therm (s : State) (n : Nat) (f : Ring → Ring) : (s.modRing n f).therm = s.therm := (rfl)
@[simp] theorem State.modRing_prot (s : State) (n : Nat) (f : Ring → Ring) : (s.modRing n f).prot = s.prot := (rfl)
@[simp] theorem State.modRing_kw (s : State) (n : Nat) (f : Ring → Ring) : (s.modRing n f).kw = s.kw := (rfl)
@[simp] theorem State.modRing_tap (s : State) (n : Nat) (f : Ring → Ring) : (s.modRing n f).tap = s.tap := (rfl)
@[simp] theorem State.modRing_trims (s : State) (n : Nat) (f : Ring → Ring) : (s.modRing n f).trims = s.trims := (rfl)
@[simp] theorem State.modRing_modRecs (s : State) (n : Nat) (f : Ring → Ring) : (s.modRing n f).modRecs = s.modRecs := (rfl)
@[simp] theorem State.modRing_occ (s : State) (n : Nat) (f : Ring → Ring) : (s.modRing n f).occ = s.occ := (rfl)
@[simp] theorem State.modRing_active (s : State) (n : Nat) (f : Ring → Ring) : (s.modRing n f).active = s.active := (rfl)
@[simp] theorem State.modRing_bootQ (s : State) (n : Nat) (f : Ring → Ring) : (s.modRing n f).bootQ = s.bootQ := (rfl)
@[simp] theorem State.modRing_bootDropped (s : State) (n : Nat) (f : Ring → Ring) : (s.modRing n f).bootDropped = s.bootDropped := (rfl)
@[simp] theorem State.modRing_bootQOn (s : State) (n : Nat) (f : Ring → Ring) : (s.modRing n f).bootQOn = s.bootQOn := (rfl)
@[simp] theorem State.modRing_evLost (s : State) (n : Nat) (f : Ring → Ring) : (s.modRing n f).evLost = s.evLost := (rfl)
@[simp] theorem State.modRing_linkLost (s : State) (n : Nat) (f : Ring → Ring) : (s.modRing n f).linkLost = s.linkLost := (rfl)
@[simp] theorem State.modRing_fetchNext (s : State) (n : Nat) (f : Ring → Ring) : (s.modRing n f).fetchNext = s.fetchNext := (rfl)
@[simp] theorem State.modRing_msixEn (s : State) (n : Nat) (f : Ring → Ring) : (s.modRing n f).msixEn = s.msixEn := (rfl)
@[simp] theorem State.modRing_msixMask (s : State) (n : Nat) (f : Ring → Ring) : (s.modRing n f).msixMask = s.msixMask := (rfl)
@[simp] theorem State.modRing_railOut (s : State) (n : Nat) (f : Ring → Ring) : (s.modRing n f).railOut = s.railOut := (rfl)
@[simp] theorem State.modRing_vinOut (s : State) (n : Nat) (f : Ring → Ring) : (s.modRing n f).vinOut = s.vinOut := (rfl)
@[simp] theorem State.modRing_out (s : State) (n : Nat) (f : Ring → Ring) : (s.modRing n f).out = s.out := (rfl)
@[simp] theorem State.modRing_held (s : State) (n : Nat) (f : Ring → Ring) : (s.modRing n f).held = s.held := (rfl)
@[simp] theorem State.modRing_freeCtr (s : State) (n : Nat) (f : Ring → Ring) : (s.modRing n f).freeCtr = s.freeCtr := (rfl)
@[simp] theorem State.modRing_pending (s : State) (n : Nat) (f : Ring → Ring) : (s.modRing n f).pending = s.pending := (rfl)

/-! ### `setBox` -/

@[simp] theorem State.setBox_variant (s : State) (n : Nat) (x : Box) : (s.setBox n x).variant = s.variant := (rfl)
@[simp] theorem State.setBox_regs (s : State) (n : Nat) (x : Box) : (s.setBox n x).regs = s.regs := (rfl)
@[simp] theorem State.setBox_image (s : State) (n : Nat) (x : Box) : (s.setBox n x).image = s.image := (rfl)
@[simp] theorem State.setBox_store (s : State) (n : Nat) (x : Box) : (s.setBox n x).store = s.store := (rfl)
@[simp] theorem State.setBox_power (s : State) (n : Nat) (x : Box) : (s.setBox n x).power = s.power := (rfl)
@[simp] theorem State.setBox_ref (s : State) (n : Nat) (x : Box) : (s.setBox n x).ref = s.ref := (rfl)
@[simp] theorem State.setBox_pci (s : State) (n : Nat) (x : Box) : (s.setBox n x).pci = s.pci := (rfl)
@[simp] theorem State.setBox_epoch (s : State) (n : Nat) (x : Box) : (s.setBox n x).epoch = s.epoch := (rfl)
@[simp] theorem State.setBox_running (s : State) (n : Nat) (x : Box) : (s.setBox n x).running = s.running := (rfl)
@[simp] theorem State.setBox_leaves (s : State) (n : Nat) (x : Box) : (s.setBox n x).leaves = s.leaves := (rfl)
@[simp] theorem State.setBox_groups (s : State) (n : Nat) (x : Box) : (s.setBox n x).groups = s.groups := (rfl)
@[simp] theorem State.setBox_chans (s : State) (n : Nat) (x : Box) : (s.setBox n x).chans = s.chans := (rfl)
@[simp] theorem State.setBox_engines (s : State) (n : Nat) (x : Box) : (s.setBox n x).engines = s.engines := (rfl)
@[simp] theorem State.setBox_rings (s : State) (n : Nat) (x : Box) : (s.setBox n x).rings = s.rings := (rfl)
@[simp] theorem State.setBox_cmds (s : State) (n : Nat) (x : Box) : (s.setBox n x).cmds = s.cmds := (rfl)
@[simp] theorem State.setBox_holds (s : State) (n : Nat) (x : Box) : (s.setBox n x).holds = s.holds := (rfl)
@[simp] theorem State.setBox_reco (s : State) (n : Nat) (x : Box) : (s.setBox n x).reco = s.reco := (rfl)
@[simp] theorem State.setBox_chain (s : State) (n : Nat) (x : Box) : (s.setBox n x).chain = s.chain := (rfl)
@[simp] theorem State.setBox_cal (s : State) (n : Nat) (x : Box) : (s.setBox n x).cal = s.cal := (rfl)
@[simp] theorem State.setBox_flt (s : State) (n : Nat) (x : Box) : (s.setBox n x).flt = s.flt := (rfl)
@[simp] theorem State.setBox_therm (s : State) (n : Nat) (x : Box) : (s.setBox n x).therm = s.therm := (rfl)
@[simp] theorem State.setBox_prot (s : State) (n : Nat) (x : Box) : (s.setBox n x).prot = s.prot := (rfl)
@[simp] theorem State.setBox_kw (s : State) (n : Nat) (x : Box) : (s.setBox n x).kw = s.kw := (rfl)
@[simp] theorem State.setBox_tap (s : State) (n : Nat) (x : Box) : (s.setBox n x).tap = s.tap := (rfl)
@[simp] theorem State.setBox_trims (s : State) (n : Nat) (x : Box) : (s.setBox n x).trims = s.trims := (rfl)
@[simp] theorem State.setBox_modRecs (s : State) (n : Nat) (x : Box) : (s.setBox n x).modRecs = s.modRecs := (rfl)
@[simp] theorem State.setBox_occ (s : State) (n : Nat) (x : Box) : (s.setBox n x).occ = s.occ := (rfl)
@[simp] theorem State.setBox_active (s : State) (n : Nat) (x : Box) : (s.setBox n x).active = s.active := (rfl)
@[simp] theorem State.setBox_bootQ (s : State) (n : Nat) (x : Box) : (s.setBox n x).bootQ = s.bootQ := (rfl)
@[simp] theorem State.setBox_bootDropped (s : State) (n : Nat) (x : Box) : (s.setBox n x).bootDropped = s.bootDropped := (rfl)
@[simp] theorem State.setBox_bootQOn (s : State) (n : Nat) (x : Box) : (s.setBox n x).bootQOn = s.bootQOn := (rfl)
@[simp] theorem State.setBox_evLost (s : State) (n : Nat) (x : Box) : (s.setBox n x).evLost = s.evLost := (rfl)
@[simp] theorem State.setBox_linkLost (s : State) (n : Nat) (x : Box) : (s.setBox n x).linkLost = s.linkLost := (rfl)
@[simp] theorem State.setBox_fetchNext (s : State) (n : Nat) (x : Box) : (s.setBox n x).fetchNext = s.fetchNext := (rfl)
@[simp] theorem State.setBox_msixEn (s : State) (n : Nat) (x : Box) : (s.setBox n x).msixEn = s.msixEn := (rfl)
@[simp] theorem State.setBox_msixMask (s : State) (n : Nat) (x : Box) : (s.setBox n x).msixMask = s.msixMask := (rfl)
@[simp] theorem State.setBox_railOut (s : State) (n : Nat) (x : Box) : (s.setBox n x).railOut = s.railOut := (rfl)
@[simp] theorem State.setBox_vinOut (s : State) (n : Nat) (x : Box) : (s.setBox n x).vinOut = s.vinOut := (rfl)
@[simp] theorem State.setBox_out (s : State) (n : Nat) (x : Box) : (s.setBox n x).out = s.out := (rfl)
@[simp] theorem State.setBox_held (s : State) (n : Nat) (x : Box) : (s.setBox n x).held = s.held := (rfl)
@[simp] theorem State.setBox_freeCtr (s : State) (n : Nat) (x : Box) : (s.setBox n x).freeCtr = s.freeCtr := (rfl)
@[simp] theorem State.setBox_pending (s : State) (n : Nat) (x : Box) : (s.setBox n x).pending = s.pending := (rfl)

/-! ### `modCmd` -/

@[simp] theorem State.modCmd_variant (s : State) (h : Nat) (f : Cmd → Cmd) : (s.modCmd h f).variant = s.variant := (rfl)
@[simp] theorem State.modCmd_regs (s : State) (h : Nat) (f : Cmd → Cmd) : (s.modCmd h f).regs = s.regs := (rfl)
@[simp] theorem State.modCmd_image (s : State) (h : Nat) (f : Cmd → Cmd) : (s.modCmd h f).image = s.image := (rfl)
@[simp] theorem State.modCmd_store (s : State) (h : Nat) (f : Cmd → Cmd) : (s.modCmd h f).store = s.store := (rfl)
@[simp] theorem State.modCmd_power (s : State) (h : Nat) (f : Cmd → Cmd) : (s.modCmd h f).power = s.power := (rfl)
@[simp] theorem State.modCmd_ref (s : State) (h : Nat) (f : Cmd → Cmd) : (s.modCmd h f).ref = s.ref := (rfl)
@[simp] theorem State.modCmd_pci (s : State) (h : Nat) (f : Cmd → Cmd) : (s.modCmd h f).pci = s.pci := (rfl)
@[simp] theorem State.modCmd_epoch (s : State) (h : Nat) (f : Cmd → Cmd) : (s.modCmd h f).epoch = s.epoch := (rfl)
@[simp] theorem State.modCmd_running (s : State) (h : Nat) (f : Cmd → Cmd) : (s.modCmd h f).running = s.running := (rfl)
@[simp] theorem State.modCmd_leaves (s : State) (h : Nat) (f : Cmd → Cmd) : (s.modCmd h f).leaves = s.leaves := (rfl)
@[simp] theorem State.modCmd_groups (s : State) (h : Nat) (f : Cmd → Cmd) : (s.modCmd h f).groups = s.groups := (rfl)
@[simp] theorem State.modCmd_chans (s : State) (h : Nat) (f : Cmd → Cmd) : (s.modCmd h f).chans = s.chans := (rfl)
@[simp] theorem State.modCmd_engines (s : State) (h : Nat) (f : Cmd → Cmd) : (s.modCmd h f).engines = s.engines := (rfl)
@[simp] theorem State.modCmd_rings (s : State) (h : Nat) (f : Cmd → Cmd) : (s.modCmd h f).rings = s.rings := (rfl)
@[simp] theorem State.modCmd_holds (s : State) (h : Nat) (f : Cmd → Cmd) : (s.modCmd h f).holds = s.holds := (rfl)
@[simp] theorem State.modCmd_boxes (s : State) (h : Nat) (f : Cmd → Cmd) : (s.modCmd h f).boxes = s.boxes := (rfl)
@[simp] theorem State.modCmd_reco (s : State) (h : Nat) (f : Cmd → Cmd) : (s.modCmd h f).reco = s.reco := (rfl)
@[simp] theorem State.modCmd_chain (s : State) (h : Nat) (f : Cmd → Cmd) : (s.modCmd h f).chain = s.chain := (rfl)
@[simp] theorem State.modCmd_cal (s : State) (h : Nat) (f : Cmd → Cmd) : (s.modCmd h f).cal = s.cal := (rfl)
@[simp] theorem State.modCmd_flt (s : State) (h : Nat) (f : Cmd → Cmd) : (s.modCmd h f).flt = s.flt := (rfl)
@[simp] theorem State.modCmd_therm (s : State) (h : Nat) (f : Cmd → Cmd) : (s.modCmd h f).therm = s.therm := (rfl)
@[simp] theorem State.modCmd_prot (s : State) (h : Nat) (f : Cmd → Cmd) : (s.modCmd h f).prot = s.prot := (rfl)
@[simp] theorem State.modCmd_kw (s : State) (h : Nat) (f : Cmd → Cmd) : (s.modCmd h f).kw = s.kw := (rfl)
@[simp] theorem State.modCmd_tap (s : State) (h : Nat) (f : Cmd → Cmd) : (s.modCmd h f).tap = s.tap := (rfl)
@[simp] theorem State.modCmd_trims (s : State) (h : Nat) (f : Cmd → Cmd) : (s.modCmd h f).trims = s.trims := (rfl)
@[simp] theorem State.modCmd_modRecs (s : State) (h : Nat) (f : Cmd → Cmd) : (s.modCmd h f).modRecs = s.modRecs := (rfl)
@[simp] theorem State.modCmd_occ (s : State) (h : Nat) (f : Cmd → Cmd) : (s.modCmd h f).occ = s.occ := (rfl)
@[simp] theorem State.modCmd_active (s : State) (h : Nat) (f : Cmd → Cmd) : (s.modCmd h f).active = s.active := (rfl)
@[simp] theorem State.modCmd_bootQ (s : State) (h : Nat) (f : Cmd → Cmd) : (s.modCmd h f).bootQ = s.bootQ := (rfl)
@[simp] theorem State.modCmd_bootDropped (s : State) (h : Nat) (f : Cmd → Cmd) : (s.modCmd h f).bootDropped = s.bootDropped := (rfl)
@[simp] theorem State.modCmd_bootQOn (s : State) (h : Nat) (f : Cmd → Cmd) : (s.modCmd h f).bootQOn = s.bootQOn := (rfl)
@[simp] theorem State.modCmd_evLost (s : State) (h : Nat) (f : Cmd → Cmd) : (s.modCmd h f).evLost = s.evLost := (rfl)
@[simp] theorem State.modCmd_linkLost (s : State) (h : Nat) (f : Cmd → Cmd) : (s.modCmd h f).linkLost = s.linkLost := (rfl)
@[simp] theorem State.modCmd_fetchNext (s : State) (h : Nat) (f : Cmd → Cmd) : (s.modCmd h f).fetchNext = s.fetchNext := (rfl)
@[simp] theorem State.modCmd_msixEn (s : State) (h : Nat) (f : Cmd → Cmd) : (s.modCmd h f).msixEn = s.msixEn := (rfl)
@[simp] theorem State.modCmd_msixMask (s : State) (h : Nat) (f : Cmd → Cmd) : (s.modCmd h f).msixMask = s.msixMask := (rfl)
@[simp] theorem State.modCmd_railOut (s : State) (h : Nat) (f : Cmd → Cmd) : (s.modCmd h f).railOut = s.railOut := (rfl)
@[simp] theorem State.modCmd_vinOut (s : State) (h : Nat) (f : Cmd → Cmd) : (s.modCmd h f).vinOut = s.vinOut := (rfl)
@[simp] theorem State.modCmd_out (s : State) (h : Nat) (f : Cmd → Cmd) : (s.modCmd h f).out = s.out := (rfl)
@[simp] theorem State.modCmd_held (s : State) (h : Nat) (f : Cmd → Cmd) : (s.modCmd h f).held = s.held := (rfl)
@[simp] theorem State.modCmd_freeCtr (s : State) (h : Nat) (f : Cmd → Cmd) : (s.modCmd h f).freeCtr = s.freeCtr := (rfl)
@[simp] theorem State.modCmd_pending (s : State) (h : Nat) (f : Cmd → Cmd) : (s.modCmd h f).pending = s.pending := (rfl)

/-! ### `modPower` -/

@[simp] theorem State.modPower_variant (s : State) (f : Power → Power) : (s.modPower f).variant = s.variant := (rfl)
@[simp] theorem State.modPower_regs (s : State) (f : Power → Power) : (s.modPower f).regs = s.regs := (rfl)
@[simp] theorem State.modPower_image (s : State) (f : Power → Power) : (s.modPower f).image = s.image := (rfl)
@[simp] theorem State.modPower_store (s : State) (f : Power → Power) : (s.modPower f).store = s.store := (rfl)
@[simp] theorem State.modPower_ref (s : State) (f : Power → Power) : (s.modPower f).ref = s.ref := (rfl)
@[simp] theorem State.modPower_pci (s : State) (f : Power → Power) : (s.modPower f).pci = s.pci := (rfl)
@[simp] theorem State.modPower_epoch (s : State) (f : Power → Power) : (s.modPower f).epoch = s.epoch := (rfl)
@[simp] theorem State.modPower_running (s : State) (f : Power → Power) : (s.modPower f).running = s.running := (rfl)
@[simp] theorem State.modPower_leaves (s : State) (f : Power → Power) : (s.modPower f).leaves = s.leaves := (rfl)
@[simp] theorem State.modPower_groups (s : State) (f : Power → Power) : (s.modPower f).groups = s.groups := (rfl)
@[simp] theorem State.modPower_chans (s : State) (f : Power → Power) : (s.modPower f).chans = s.chans := (rfl)
@[simp] theorem State.modPower_engines (s : State) (f : Power → Power) : (s.modPower f).engines = s.engines := (rfl)
@[simp] theorem State.modPower_rings (s : State) (f : Power → Power) : (s.modPower f).rings = s.rings := (rfl)
@[simp] theorem State.modPower_cmds (s : State) (f : Power → Power) : (s.modPower f).cmds = s.cmds := (rfl)
@[simp] theorem State.modPower_holds (s : State) (f : Power → Power) : (s.modPower f).holds = s.holds := (rfl)
@[simp] theorem State.modPower_boxes (s : State) (f : Power → Power) : (s.modPower f).boxes = s.boxes := (rfl)
@[simp] theorem State.modPower_reco (s : State) (f : Power → Power) : (s.modPower f).reco = s.reco := (rfl)
@[simp] theorem State.modPower_chain (s : State) (f : Power → Power) : (s.modPower f).chain = s.chain := (rfl)
@[simp] theorem State.modPower_cal (s : State) (f : Power → Power) : (s.modPower f).cal = s.cal := (rfl)
@[simp] theorem State.modPower_flt (s : State) (f : Power → Power) : (s.modPower f).flt = s.flt := (rfl)
@[simp] theorem State.modPower_therm (s : State) (f : Power → Power) : (s.modPower f).therm = s.therm := (rfl)
@[simp] theorem State.modPower_prot (s : State) (f : Power → Power) : (s.modPower f).prot = s.prot := (rfl)
@[simp] theorem State.modPower_kw (s : State) (f : Power → Power) : (s.modPower f).kw = s.kw := (rfl)
@[simp] theorem State.modPower_tap (s : State) (f : Power → Power) : (s.modPower f).tap = s.tap := (rfl)
@[simp] theorem State.modPower_trims (s : State) (f : Power → Power) : (s.modPower f).trims = s.trims := (rfl)
@[simp] theorem State.modPower_modRecs (s : State) (f : Power → Power) : (s.modPower f).modRecs = s.modRecs := (rfl)
@[simp] theorem State.modPower_occ (s : State) (f : Power → Power) : (s.modPower f).occ = s.occ := (rfl)
@[simp] theorem State.modPower_active (s : State) (f : Power → Power) : (s.modPower f).active = s.active := (rfl)
@[simp] theorem State.modPower_bootQ (s : State) (f : Power → Power) : (s.modPower f).bootQ = s.bootQ := (rfl)
@[simp] theorem State.modPower_bootDropped (s : State) (f : Power → Power) : (s.modPower f).bootDropped = s.bootDropped := (rfl)
@[simp] theorem State.modPower_bootQOn (s : State) (f : Power → Power) : (s.modPower f).bootQOn = s.bootQOn := (rfl)
@[simp] theorem State.modPower_evLost (s : State) (f : Power → Power) : (s.modPower f).evLost = s.evLost := (rfl)
@[simp] theorem State.modPower_linkLost (s : State) (f : Power → Power) : (s.modPower f).linkLost = s.linkLost := (rfl)
@[simp] theorem State.modPower_fetchNext (s : State) (f : Power → Power) : (s.modPower f).fetchNext = s.fetchNext := (rfl)
@[simp] theorem State.modPower_msixEn (s : State) (f : Power → Power) : (s.modPower f).msixEn = s.msixEn := (rfl)
@[simp] theorem State.modPower_msixMask (s : State) (f : Power → Power) : (s.modPower f).msixMask = s.msixMask := (rfl)
@[simp] theorem State.modPower_railOut (s : State) (f : Power → Power) : (s.modPower f).railOut = s.railOut := (rfl)
@[simp] theorem State.modPower_vinOut (s : State) (f : Power → Power) : (s.modPower f).vinOut = s.vinOut := (rfl)
@[simp] theorem State.modPower_out (s : State) (f : Power → Power) : (s.modPower f).out = s.out := (rfl)
@[simp] theorem State.modPower_held (s : State) (f : Power → Power) : (s.modPower f).held = s.held := (rfl)
@[simp] theorem State.modPower_freeCtr (s : State) (f : Power → Power) : (s.modPower f).freeCtr = s.freeCtr := (rfl)
@[simp] theorem State.modPower_pending (s : State) (f : Power → Power) : (s.modPower f).pending = s.pending := (rfl)

/-! ### `modRef` -/

@[simp] theorem State.modRef_variant (s : State) (f : RefMon → RefMon) : (s.modRef f).variant = s.variant := (rfl)
@[simp] theorem State.modRef_regs (s : State) (f : RefMon → RefMon) : (s.modRef f).regs = s.regs := (rfl)
@[simp] theorem State.modRef_image (s : State) (f : RefMon → RefMon) : (s.modRef f).image = s.image := (rfl)
@[simp] theorem State.modRef_store (s : State) (f : RefMon → RefMon) : (s.modRef f).store = s.store := (rfl)
@[simp] theorem State.modRef_power (s : State) (f : RefMon → RefMon) : (s.modRef f).power = s.power := (rfl)
@[simp] theorem State.modRef_epoch (s : State) (f : RefMon → RefMon) : (s.modRef f).epoch = s.epoch := (rfl)
@[simp] theorem State.modRef_running (s : State) (f : RefMon → RefMon) : (s.modRef f).running = s.running := (rfl)
@[simp] theorem State.modRef_leaves (s : State) (f : RefMon → RefMon) : (s.modRef f).leaves = s.leaves := (rfl)
@[simp] theorem State.modRef_groups (s : State) (f : RefMon → RefMon) : (s.modRef f).groups = s.groups := (rfl)
@[simp] theorem State.modRef_chans (s : State) (f : RefMon → RefMon) : (s.modRef f).chans = s.chans := (rfl)
@[simp] theorem State.modRef_engines (s : State) (f : RefMon → RefMon) : (s.modRef f).engines = s.engines := (rfl)
@[simp] theorem State.modRef_rings (s : State) (f : RefMon → RefMon) : (s.modRef f).rings = s.rings := (rfl)
@[simp] theorem State.modRef_cmds (s : State) (f : RefMon → RefMon) : (s.modRef f).cmds = s.cmds := (rfl)
@[simp] theorem State.modRef_holds (s : State) (f : RefMon → RefMon) : (s.modRef f).holds = s.holds := (rfl)
@[simp] theorem State.modRef_boxes (s : State) (f : RefMon → RefMon) : (s.modRef f).boxes = s.boxes := (rfl)
@[simp] theorem State.modRef_reco (s : State) (f : RefMon → RefMon) : (s.modRef f).reco = s.reco := (rfl)
@[simp] theorem State.modRef_chain (s : State) (f : RefMon → RefMon) : (s.modRef f).chain = s.chain := (rfl)
@[simp] theorem State.modRef_cal (s : State) (f : RefMon → RefMon) : (s.modRef f).cal = s.cal := (rfl)
@[simp] theorem State.modRef_flt (s : State) (f : RefMon → RefMon) : (s.modRef f).flt = s.flt := (rfl)
@[simp] theorem State.modRef_therm (s : State) (f : RefMon → RefMon) : (s.modRef f).therm = s.therm := (rfl)
@[simp] theorem State.modRef_prot (s : State) (f : RefMon → RefMon) : (s.modRef f).prot = s.prot := (rfl)
@[simp] theorem State.modRef_kw (s : State) (f : RefMon → RefMon) : (s.modRef f).kw = s.kw := (rfl)
@[simp] theorem State.modRef_tap (s : State) (f : RefMon → RefMon) : (s.modRef f).tap = s.tap := (rfl)
@[simp] theorem State.modRef_trims (s : State) (f : RefMon → RefMon) : (s.modRef f).trims = s.trims := (rfl)
@[simp] theorem State.modRef_modRecs (s : State) (f : RefMon → RefMon) : (s.modRef f).modRecs = s.modRecs := (rfl)
@[simp] theorem State.modRef_occ (s : State) (f : RefMon → RefMon) : (s.modRef f).occ = s.occ := (rfl)
@[simp] theorem State.modRef_active (s : State) (f : RefMon → RefMon) : (s.modRef f).active = s.active := (rfl)
@[simp] theorem State.modRef_bootQ (s : State) (f : RefMon → RefMon) : (s.modRef f).bootQ = s.bootQ := (rfl)
@[simp] theorem State.modRef_bootDropped (s : State) (f : RefMon → RefMon) : (s.modRef f).bootDropped = s.bootDropped := (rfl)
@[simp] theorem State.modRef_bootQOn (s : State) (f : RefMon → RefMon) : (s.modRef f).bootQOn = s.bootQOn := (rfl)
@[simp] theorem State.modRef_evLost (s : State) (f : RefMon → RefMon) : (s.modRef f).evLost = s.evLost := (rfl)
@[simp] theorem State.modRef_linkLost (s : State) (f : RefMon → RefMon) : (s.modRef f).linkLost = s.linkLost := (rfl)
@[simp] theorem State.modRef_fetchNext (s : State) (f : RefMon → RefMon) : (s.modRef f).fetchNext = s.fetchNext := (rfl)
@[simp] theorem State.modRef_msixEn (s : State) (f : RefMon → RefMon) : (s.modRef f).msixEn = s.msixEn := (rfl)
@[simp] theorem State.modRef_msixMask (s : State) (f : RefMon → RefMon) : (s.modRef f).msixMask = s.msixMask := (rfl)
@[simp] theorem State.modRef_railOut (s : State) (f : RefMon → RefMon) : (s.modRef f).railOut = s.railOut := (rfl)
@[simp] theorem State.modRef_vinOut (s : State) (f : RefMon → RefMon) : (s.modRef f).vinOut = s.vinOut := (rfl)
@[simp] theorem State.modRef_out (s : State) (f : RefMon → RefMon) : (s.modRef f).out = s.out := (rfl)
@[simp] theorem State.modRef_held (s : State) (f : RefMon → RefMon) : (s.modRef f).held = s.held := (rfl)
@[simp] theorem State.modRef_freeCtr (s : State) (f : RefMon → RefMon) : (s.modRef f).freeCtr = s.freeCtr := (rfl)
@[simp] theorem State.modRef_pending (s : State) (f : RefMon → RefMon) : (s.modRef f).pending = s.pending := (rfl)

/-! ### `modReco` -/

@[simp] theorem State.modReco_variant (s : State) (f : Recorder → Recorder) : (s.modReco f).variant = s.variant := (rfl)
@[simp] theorem State.modReco_regs (s : State) (f : Recorder → Recorder) : (s.modReco f).regs = s.regs := (rfl)
@[simp] theorem State.modReco_image (s : State) (f : Recorder → Recorder) : (s.modReco f).image = s.image := (rfl)
@[simp] theorem State.modReco_store (s : State) (f : Recorder → Recorder) : (s.modReco f).store = s.store := (rfl)
@[simp] theorem State.modReco_power (s : State) (f : Recorder → Recorder) : (s.modReco f).power = s.power := (rfl)
@[simp] theorem State.modReco_ref (s : State) (f : Recorder → Recorder) : (s.modReco f).ref = s.ref := (rfl)
@[simp] theorem State.modReco_pci (s : State) (f : Recorder → Recorder) : (s.modReco f).pci = s.pci := (rfl)
@[simp] theorem State.modReco_epoch (s : State) (f : Recorder → Recorder) : (s.modReco f).epoch = s.epoch := (rfl)
@[simp] theorem State.modReco_running (s : State) (f : Recorder → Recorder) : (s.modReco f).running = s.running := (rfl)
@[simp] theorem State.modReco_leaves (s : State) (f : Recorder → Recorder) : (s.modReco f).leaves = s.leaves := (rfl)
@[simp] theorem State.modReco_groups (s : State) (f : Recorder → Recorder) : (s.modReco f).groups = s.groups := (rfl)
@[simp] theorem State.modReco_chans (s : State) (f : Recorder → Recorder) : (s.modReco f).chans = s.chans := (rfl)
@[simp] theorem State.modReco_engines (s : State) (f : Recorder → Recorder) : (s.modReco f).engines = s.engines := (rfl)
@[simp] theorem State.modReco_rings (s : State) (f : Recorder → Recorder) : (s.modReco f).rings = s.rings := (rfl)
@[simp] theorem State.modReco_cmds (s : State) (f : Recorder → Recorder) : (s.modReco f).cmds = s.cmds := (rfl)
@[simp] theorem State.modReco_holds (s : State) (f : Recorder → Recorder) : (s.modReco f).holds = s.holds := (rfl)
@[simp] theorem State.modReco_boxes (s : State) (f : Recorder → Recorder) : (s.modReco f).boxes = s.boxes := (rfl)
@[simp] theorem State.modReco_chain (s : State) (f : Recorder → Recorder) : (s.modReco f).chain = s.chain := (rfl)
@[simp] theorem State.modReco_cal (s : State) (f : Recorder → Recorder) : (s.modReco f).cal = s.cal := (rfl)
@[simp] theorem State.modReco_flt (s : State) (f : Recorder → Recorder) : (s.modReco f).flt = s.flt := (rfl)
@[simp] theorem State.modReco_therm (s : State) (f : Recorder → Recorder) : (s.modReco f).therm = s.therm := (rfl)
@[simp] theorem State.modReco_prot (s : State) (f : Recorder → Recorder) : (s.modReco f).prot = s.prot := (rfl)
@[simp] theorem State.modReco_kw (s : State) (f : Recorder → Recorder) : (s.modReco f).kw = s.kw := (rfl)
@[simp] theorem State.modReco_tap (s : State) (f : Recorder → Recorder) : (s.modReco f).tap = s.tap := (rfl)
@[simp] theorem State.modReco_trims (s : State) (f : Recorder → Recorder) : (s.modReco f).trims = s.trims := (rfl)
@[simp] theorem State.modReco_modRecs (s : State) (f : Recorder → Recorder) : (s.modReco f).modRecs = s.modRecs := (rfl)
@[simp] theorem State.modReco_occ (s : State) (f : Recorder → Recorder) : (s.modReco f).occ = s.occ := (rfl)
@[simp] theorem State.modReco_active (s : State) (f : Recorder → Recorder) : (s.modReco f).active = s.active := (rfl)
@[simp] theorem State.modReco_bootQ (s : State) (f : Recorder → Recorder) : (s.modReco f).bootQ = s.bootQ := (rfl)
@[simp] theorem State.modReco_bootDropped (s : State) (f : Recorder → Recorder) : (s.modReco f).bootDropped = s.bootDropped := (rfl)
@[simp] theorem State.modReco_bootQOn (s : State) (f : Recorder → Recorder) : (s.modReco f).bootQOn = s.bootQOn := (rfl)
@[simp] theorem State.modReco_evLost (s : State) (f : Recorder → Recorder) : (s.modReco f).evLost = s.evLost := (rfl)
@[simp] theorem State.modReco_linkLost (s : State) (f : Recorder → Recorder) : (s.modReco f).linkLost = s.linkLost := (rfl)
@[simp] theorem State.modReco_fetchNext (s : State) (f : Recorder → Recorder) : (s.modReco f).fetchNext = s.fetchNext := (rfl)
@[simp] theorem State.modReco_msixEn (s : State) (f : Recorder → Recorder) : (s.modReco f).msixEn = s.msixEn := (rfl)
@[simp] theorem State.modReco_msixMask (s : State) (f : Recorder → Recorder) : (s.modReco f).msixMask = s.msixMask := (rfl)
@[simp] theorem State.modReco_railOut (s : State) (f : Recorder → Recorder) : (s.modReco f).railOut = s.railOut := (rfl)
@[simp] theorem State.modReco_vinOut (s : State) (f : Recorder → Recorder) : (s.modReco f).vinOut = s.vinOut := (rfl)
@[simp] theorem State.modReco_out (s : State) (f : Recorder → Recorder) : (s.modReco f).out = s.out := (rfl)
@[simp] theorem State.modReco_held (s : State) (f : Recorder → Recorder) : (s.modReco f).held = s.held := (rfl)
@[simp] theorem State.modReco_freeCtr (s : State) (f : Recorder → Recorder) : (s.modReco f).freeCtr = s.freeCtr := (rfl)
@[simp] theorem State.modReco_pending (s : State) (f : Recorder → Recorder) : (s.modReco f).pending = s.pending := (rfl)

/-! ### `modCal` -/

@[simp] theorem State.modCal_variant (s : State) (f : CalSt → CalSt) : (s.modCal f).variant = s.variant := (rfl)
@[simp] theorem State.modCal_regs (s : State) (f : CalSt → CalSt) : (s.modCal f).regs = s.regs := (rfl)
@[simp] theorem State.modCal_image (s : State) (f : CalSt → CalSt) : (s.modCal f).image = s.image := (rfl)
@[simp] theorem State.modCal_store (s : State) (f : CalSt → CalSt) : (s.modCal f).store = s.store := (rfl)
@[simp] theorem State.modCal_power (s : State) (f : CalSt → CalSt) : (s.modCal f).power = s.power := (rfl)
@[simp] theorem State.modCal_ref (s : State) (f : CalSt → CalSt) : (s.modCal f).ref = s.ref := (rfl)
@[simp] theorem State.modCal_pci (s : State) (f : CalSt → CalSt) : (s.modCal f).pci = s.pci := (rfl)
@[simp] theorem State.modCal_epoch (s : State) (f : CalSt → CalSt) : (s.modCal f).epoch = s.epoch := (rfl)
@[simp] theorem State.modCal_running (s : State) (f : CalSt → CalSt) : (s.modCal f).running = s.running := (rfl)
@[simp] theorem State.modCal_leaves (s : State) (f : CalSt → CalSt) : (s.modCal f).leaves = s.leaves := (rfl)
@[simp] theorem State.modCal_groups (s : State) (f : CalSt → CalSt) : (s.modCal f).groups = s.groups := (rfl)
@[simp] theorem State.modCal_chans (s : State) (f : CalSt → CalSt) : (s.modCal f).chans = s.chans := (rfl)
@[simp] theorem State.modCal_engines (s : State) (f : CalSt → CalSt) : (s.modCal f).engines = s.engines := (rfl)
@[simp] theorem State.modCal_rings (s : State) (f : CalSt → CalSt) : (s.modCal f).rings = s.rings := (rfl)
@[simp] theorem State.modCal_cmds (s : State) (f : CalSt → CalSt) : (s.modCal f).cmds = s.cmds := (rfl)
@[simp] theorem State.modCal_holds (s : State) (f : CalSt → CalSt) : (s.modCal f).holds = s.holds := (rfl)
@[simp] theorem State.modCal_boxes (s : State) (f : CalSt → CalSt) : (s.modCal f).boxes = s.boxes := (rfl)
@[simp] theorem State.modCal_reco (s : State) (f : CalSt → CalSt) : (s.modCal f).reco = s.reco := (rfl)
@[simp] theorem State.modCal_chain (s : State) (f : CalSt → CalSt) : (s.modCal f).chain = s.chain := (rfl)
@[simp] theorem State.modCal_flt (s : State) (f : CalSt → CalSt) : (s.modCal f).flt = s.flt := (rfl)
@[simp] theorem State.modCal_therm (s : State) (f : CalSt → CalSt) : (s.modCal f).therm = s.therm := (rfl)
@[simp] theorem State.modCal_prot (s : State) (f : CalSt → CalSt) : (s.modCal f).prot = s.prot := (rfl)
@[simp] theorem State.modCal_kw (s : State) (f : CalSt → CalSt) : (s.modCal f).kw = s.kw := (rfl)
@[simp] theorem State.modCal_tap (s : State) (f : CalSt → CalSt) : (s.modCal f).tap = s.tap := (rfl)
@[simp] theorem State.modCal_trims (s : State) (f : CalSt → CalSt) : (s.modCal f).trims = s.trims := (rfl)
@[simp] theorem State.modCal_modRecs (s : State) (f : CalSt → CalSt) : (s.modCal f).modRecs = s.modRecs := (rfl)
@[simp] theorem State.modCal_occ (s : State) (f : CalSt → CalSt) : (s.modCal f).occ = s.occ := (rfl)
@[simp] theorem State.modCal_active (s : State) (f : CalSt → CalSt) : (s.modCal f).active = s.active := (rfl)
@[simp] theorem State.modCal_bootQ (s : State) (f : CalSt → CalSt) : (s.modCal f).bootQ = s.bootQ := (rfl)
@[simp] theorem State.modCal_bootDropped (s : State) (f : CalSt → CalSt) : (s.modCal f).bootDropped = s.bootDropped := (rfl)
@[simp] theorem State.modCal_bootQOn (s : State) (f : CalSt → CalSt) : (s.modCal f).bootQOn = s.bootQOn := (rfl)
@[simp] theorem State.modCal_evLost (s : State) (f : CalSt → CalSt) : (s.modCal f).evLost = s.evLost := (rfl)
@[simp] theorem State.modCal_linkLost (s : State) (f : CalSt → CalSt) : (s.modCal f).linkLost = s.linkLost := (rfl)
@[simp] theorem State.modCal_fetchNext (s : State) (f : CalSt → CalSt) : (s.modCal f).fetchNext = s.fetchNext := (rfl)
@[simp] theorem State.modCal_msixEn (s : State) (f : CalSt → CalSt) : (s.modCal f).msixEn = s.msixEn := (rfl)
@[simp] theorem State.modCal_msixMask (s : State) (f : CalSt → CalSt) : (s.modCal f).msixMask = s.msixMask := (rfl)
@[simp] theorem State.modCal_railOut (s : State) (f : CalSt → CalSt) : (s.modCal f).railOut = s.railOut := (rfl)
@[simp] theorem State.modCal_vinOut (s : State) (f : CalSt → CalSt) : (s.modCal f).vinOut = s.vinOut := (rfl)
@[simp] theorem State.modCal_out (s : State) (f : CalSt → CalSt) : (s.modCal f).out = s.out := (rfl)
@[simp] theorem State.modCal_held (s : State) (f : CalSt → CalSt) : (s.modCal f).held = s.held := (rfl)
@[simp] theorem State.modCal_freeCtr (s : State) (f : CalSt → CalSt) : (s.modCal f).freeCtr = s.freeCtr := (rfl)
@[simp] theorem State.modCal_pending (s : State) (f : CalSt → CalSt) : (s.modCal f).pending = s.pending := (rfl)

/-! ### `modFlt` -/

@[simp] theorem State.modFlt_variant (s : State) (f : FltSt → FltSt) : (s.modFlt f).variant = s.variant := (rfl)
@[simp] theorem State.modFlt_regs (s : State) (f : FltSt → FltSt) : (s.modFlt f).regs = s.regs := (rfl)
@[simp] theorem State.modFlt_image (s : State) (f : FltSt → FltSt) : (s.modFlt f).image = s.image := (rfl)
@[simp] theorem State.modFlt_store (s : State) (f : FltSt → FltSt) : (s.modFlt f).store = s.store := (rfl)
@[simp] theorem State.modFlt_power (s : State) (f : FltSt → FltSt) : (s.modFlt f).power = s.power := (rfl)
@[simp] theorem State.modFlt_ref (s : State) (f : FltSt → FltSt) : (s.modFlt f).ref = s.ref := (rfl)
@[simp] theorem State.modFlt_pci (s : State) (f : FltSt → FltSt) : (s.modFlt f).pci = s.pci := (rfl)
@[simp] theorem State.modFlt_epoch (s : State) (f : FltSt → FltSt) : (s.modFlt f).epoch = s.epoch := (rfl)
@[simp] theorem State.modFlt_running (s : State) (f : FltSt → FltSt) : (s.modFlt f).running = s.running := (rfl)
@[simp] theorem State.modFlt_leaves (s : State) (f : FltSt → FltSt) : (s.modFlt f).leaves = s.leaves := (rfl)
@[simp] theorem State.modFlt_groups (s : State) (f : FltSt → FltSt) : (s.modFlt f).groups = s.groups := (rfl)
@[simp] theorem State.modFlt_chans (s : State) (f : FltSt → FltSt) : (s.modFlt f).chans = s.chans := (rfl)
@[simp] theorem State.modFlt_engines (s : State) (f : FltSt → FltSt) : (s.modFlt f).engines = s.engines := (rfl)
@[simp] theorem State.modFlt_rings (s : State) (f : FltSt → FltSt) : (s.modFlt f).rings = s.rings := (rfl)
@[simp] theorem State.modFlt_cmds (s : State) (f : FltSt → FltSt) : (s.modFlt f).cmds = s.cmds := (rfl)
@[simp] theorem State.modFlt_holds (s : State) (f : FltSt → FltSt) : (s.modFlt f).holds = s.holds := (rfl)
@[simp] theorem State.modFlt_boxes (s : State) (f : FltSt → FltSt) : (s.modFlt f).boxes = s.boxes := (rfl)
@[simp] theorem State.modFlt_reco (s : State) (f : FltSt → FltSt) : (s.modFlt f).reco = s.reco := (rfl)
@[simp] theorem State.modFlt_chain (s : State) (f : FltSt → FltSt) : (s.modFlt f).chain = s.chain := (rfl)
@[simp] theorem State.modFlt_cal (s : State) (f : FltSt → FltSt) : (s.modFlt f).cal = s.cal := (rfl)
@[simp] theorem State.modFlt_therm (s : State) (f : FltSt → FltSt) : (s.modFlt f).therm = s.therm := (rfl)
@[simp] theorem State.modFlt_prot (s : State) (f : FltSt → FltSt) : (s.modFlt f).prot = s.prot := (rfl)
@[simp] theorem State.modFlt_kw (s : State) (f : FltSt → FltSt) : (s.modFlt f).kw = s.kw := (rfl)
@[simp] theorem State.modFlt_tap (s : State) (f : FltSt → FltSt) : (s.modFlt f).tap = s.tap := (rfl)
@[simp] theorem State.modFlt_trims (s : State) (f : FltSt → FltSt) : (s.modFlt f).trims = s.trims := (rfl)
@[simp] theorem State.modFlt_modRecs (s : State) (f : FltSt → FltSt) : (s.modFlt f).modRecs = s.modRecs := (rfl)
@[simp] theorem State.modFlt_occ (s : State) (f : FltSt → FltSt) : (s.modFlt f).occ = s.occ := (rfl)
@[simp] theorem State.modFlt_active (s : State) (f : FltSt → FltSt) : (s.modFlt f).active = s.active := (rfl)
@[simp] theorem State.modFlt_bootQ (s : State) (f : FltSt → FltSt) : (s.modFlt f).bootQ = s.bootQ := (rfl)
@[simp] theorem State.modFlt_bootDropped (s : State) (f : FltSt → FltSt) : (s.modFlt f).bootDropped = s.bootDropped := (rfl)
@[simp] theorem State.modFlt_bootQOn (s : State) (f : FltSt → FltSt) : (s.modFlt f).bootQOn = s.bootQOn := (rfl)
@[simp] theorem State.modFlt_evLost (s : State) (f : FltSt → FltSt) : (s.modFlt f).evLost = s.evLost := (rfl)
@[simp] theorem State.modFlt_linkLost (s : State) (f : FltSt → FltSt) : (s.modFlt f).linkLost = s.linkLost := (rfl)
@[simp] theorem State.modFlt_fetchNext (s : State) (f : FltSt → FltSt) : (s.modFlt f).fetchNext = s.fetchNext := (rfl)
@[simp] theorem State.modFlt_msixEn (s : State) (f : FltSt → FltSt) : (s.modFlt f).msixEn = s.msixEn := (rfl)
@[simp] theorem State.modFlt_msixMask (s : State) (f : FltSt → FltSt) : (s.modFlt f).msixMask = s.msixMask := (rfl)
@[simp] theorem State.modFlt_railOut (s : State) (f : FltSt → FltSt) : (s.modFlt f).railOut = s.railOut := (rfl)
@[simp] theorem State.modFlt_vinOut (s : State) (f : FltSt → FltSt) : (s.modFlt f).vinOut = s.vinOut := (rfl)
@[simp] theorem State.modFlt_out (s : State) (f : FltSt → FltSt) : (s.modFlt f).out = s.out := (rfl)
@[simp] theorem State.modFlt_held (s : State) (f : FltSt → FltSt) : (s.modFlt f).held = s.held := (rfl)
@[simp] theorem State.modFlt_freeCtr (s : State) (f : FltSt → FltSt) : (s.modFlt f).freeCtr = s.freeCtr := (rfl)
@[simp] theorem State.modFlt_pending (s : State) (f : FltSt → FltSt) : (s.modFlt f).pending = s.pending := (rfl)

/-! ### `modProt` -/

@[simp] theorem State.modProt_variant (s : State) (f : ProtSt → ProtSt) : (s.modProt f).variant = s.variant := (rfl)
@[simp] theorem State.modProt_regs (s : State) (f : ProtSt → ProtSt) : (s.modProt f).regs = s.regs := (rfl)
@[simp] theorem State.modProt_image (s : State) (f : ProtSt → ProtSt) : (s.modProt f).image = s.image := (rfl)
@[simp] theorem State.modProt_store (s : State) (f : ProtSt → ProtSt) : (s.modProt f).store = s.store := (rfl)
@[simp] theorem State.modProt_power (s : State) (f : ProtSt → ProtSt) : (s.modProt f).power = s.power := (rfl)
@[simp] theorem State.modProt_ref (s : State) (f : ProtSt → ProtSt) : (s.modProt f).ref = s.ref := (rfl)
@[simp] theorem State.modProt_pci (s : State) (f : ProtSt → ProtSt) : (s.modProt f).pci = s.pci := (rfl)
@[simp] theorem State.modProt_epoch (s : State) (f : ProtSt → ProtSt) : (s.modProt f).epoch = s.epoch := (rfl)
@[simp] theorem State.modProt_running (s : State) (f : ProtSt → ProtSt) : (s.modProt f).running = s.running := (rfl)
@[simp] theorem State.modProt_leaves (s : State) (f : ProtSt → ProtSt) : (s.modProt f).leaves = s.leaves := (rfl)
@[simp] theorem State.modProt_groups (s : State) (f : ProtSt → ProtSt) : (s.modProt f).groups = s.groups := (rfl)
@[simp] theorem State.modProt_chans (s : State) (f : ProtSt → ProtSt) : (s.modProt f).chans = s.chans := (rfl)
@[simp] theorem State.modProt_engines (s : State) (f : ProtSt → ProtSt) : (s.modProt f).engines = s.engines := (rfl)
@[simp] theorem State.modProt_rings (s : State) (f : ProtSt → ProtSt) : (s.modProt f).rings = s.rings := (rfl)
@[simp] theorem State.modProt_cmds (s : State) (f : ProtSt → ProtSt) : (s.modProt f).cmds = s.cmds := (rfl)
@[simp] theorem State.modProt_holds (s : State) (f : ProtSt → ProtSt) : (s.modProt f).holds = s.holds := (rfl)
@[simp] theorem State.modProt_boxes (s : State) (f : ProtSt → ProtSt) : (s.modProt f).boxes = s.boxes := (rfl)
@[simp] theorem State.modProt_reco (s : State) (f : ProtSt → ProtSt) : (s.modProt f).reco = s.reco := (rfl)
@[simp] theorem State.modProt_chain (s : State) (f : ProtSt → ProtSt) : (s.modProt f).chain = s.chain := (rfl)
@[simp] theorem State.modProt_cal (s : State) (f : ProtSt → ProtSt) : (s.modProt f).cal = s.cal := (rfl)
@[simp] theorem State.modProt_flt (s : State) (f : ProtSt → ProtSt) : (s.modProt f).flt = s.flt := (rfl)
@[simp] theorem State.modProt_therm (s : State) (f : ProtSt → ProtSt) : (s.modProt f).therm = s.therm := (rfl)
@[simp] theorem State.modProt_kw (s : State) (f : ProtSt → ProtSt) : (s.modProt f).kw = s.kw := (rfl)
@[simp] theorem State.modProt_tap (s : State) (f : ProtSt → ProtSt) : (s.modProt f).tap = s.tap := (rfl)
@[simp] theorem State.modProt_trims (s : State) (f : ProtSt → ProtSt) : (s.modProt f).trims = s.trims := (rfl)
@[simp] theorem State.modProt_modRecs (s : State) (f : ProtSt → ProtSt) : (s.modProt f).modRecs = s.modRecs := (rfl)
@[simp] theorem State.modProt_occ (s : State) (f : ProtSt → ProtSt) : (s.modProt f).occ = s.occ := (rfl)
@[simp] theorem State.modProt_active (s : State) (f : ProtSt → ProtSt) : (s.modProt f).active = s.active := (rfl)
@[simp] theorem State.modProt_bootQ (s : State) (f : ProtSt → ProtSt) : (s.modProt f).bootQ = s.bootQ := (rfl)
@[simp] theorem State.modProt_bootDropped (s : State) (f : ProtSt → ProtSt) : (s.modProt f).bootDropped = s.bootDropped := (rfl)
@[simp] theorem State.modProt_bootQOn (s : State) (f : ProtSt → ProtSt) : (s.modProt f).bootQOn = s.bootQOn := (rfl)
@[simp] theorem State.modProt_evLost (s : State) (f : ProtSt → ProtSt) : (s.modProt f).evLost = s.evLost := (rfl)
@[simp] theorem State.modProt_linkLost (s : State) (f : ProtSt → ProtSt) : (s.modProt f).linkLost = s.linkLost := (rfl)
@[simp] theorem State.modProt_fetchNext (s : State) (f : ProtSt → ProtSt) : (s.modProt f).fetchNext = s.fetchNext := (rfl)
@[simp] theorem State.modProt_msixEn (s : State) (f : ProtSt → ProtSt) : (s.modProt f).msixEn = s.msixEn := (rfl)
@[simp] theorem State.modProt_msixMask (s : State) (f : ProtSt → ProtSt) : (s.modProt f).msixMask = s.msixMask := (rfl)
@[simp] theorem State.modProt_railOut (s : State) (f : ProtSt → ProtSt) : (s.modProt f).railOut = s.railOut := (rfl)
@[simp] theorem State.modProt_vinOut (s : State) (f : ProtSt → ProtSt) : (s.modProt f).vinOut = s.vinOut := (rfl)
@[simp] theorem State.modProt_out (s : State) (f : ProtSt → ProtSt) : (s.modProt f).out = s.out := (rfl)
@[simp] theorem State.modProt_held (s : State) (f : ProtSt → ProtSt) : (s.modProt f).held = s.held := (rfl)
@[simp] theorem State.modProt_freeCtr (s : State) (f : ProtSt → ProtSt) : (s.modProt f).freeCtr = s.freeCtr := (rfl)
@[simp] theorem State.modProt_pending (s : State) (f : ProtSt → ProtSt) : (s.modProt f).pending = s.pending := (rfl)

/-! ### `modTherm` -/

@[simp] theorem State.modTherm_variant (s : State) (f : Therm → Therm) : (s.modTherm f).variant = s.variant := (rfl)
@[simp] theorem State.modTherm_regs (s : State) (f : Therm → Therm) : (s.modTherm f).regs = s.regs := (rfl)
@[simp] theorem State.modTherm_image (s : State) (f : Therm → Therm) : (s.modTherm f).image = s.image := (rfl)
@[simp] theorem State.modTherm_store (s : State) (f : Therm → Therm) : (s.modTherm f).store = s.store := (rfl)
@[simp] theorem State.modTherm_power (s : State) (f : Therm → Therm) : (s.modTherm f).power = s.power := (rfl)
@[simp] theorem State.modTherm_ref (s : State) (f : Therm → Therm) : (s.modTherm f).ref = s.ref := (rfl)
@[simp] theorem State.modTherm_pci (s : State) (f : Therm → Therm) : (s.modTherm f).pci = s.pci := (rfl)
@[simp] theorem State.modTherm_epoch (s : State) (f : Therm → Therm) : (s.modTherm f).epoch = s.epoch := (rfl)
@[simp] theorem State.modTherm_running (s : State) (f : Therm → Therm) : (s.modTherm f).running = s.running := (rfl)
@[simp] theorem State.modTherm_leaves (s : State) (f : Therm → Therm) : (s.modTherm f).leaves = s.leaves := (rfl)
@[simp] theorem State.modTherm_groups (s : State) (f : Therm → Therm) : (s.modTherm f).groups = s.groups := (rfl)
@[simp] theorem State.modTherm_chans (s : State) (f : Therm → Therm) : (s.modTherm f).chans = s.chans := (rfl)
@[simp] theorem State.modTherm_engines (s : State) (f : Therm → Therm) : (s.modTherm f).engines = s.engines := (rfl)
@[simp] theorem State.modTherm_rings (s : State) (f : Therm → Therm) : (s.modTherm f).rings = s.rings := (rfl)
@[simp] theorem State.modTherm_cmds (s : State) (f : Therm → Therm) : (s.modTherm f).cmds = s.cmds := (rfl)
@[simp] theorem State.modTherm_holds (s : State) (f : Therm → Therm) : (s.modTherm f).holds = s.holds := (rfl)
@[simp] theorem State.modTherm_boxes (s : State) (f : Therm → Therm) : (s.modTherm f).boxes = s.boxes := (rfl)
@[simp] theorem State.modTherm_reco (s : State) (f : Therm → Therm) : (s.modTherm f).reco = s.reco := (rfl)
@[simp] theorem State.modTherm_chain (s : State) (f : Therm → Therm) : (s.modTherm f).chain = s.chain := (rfl)
@[simp] theorem State.modTherm_cal (s : State) (f : Therm → Therm) : (s.modTherm f).cal = s.cal := (rfl)
@[simp] theorem State.modTherm_flt (s : State) (f : Therm → Therm) : (s.modTherm f).flt = s.flt := (rfl)
@[simp] theorem State.modTherm_prot (s : State) (f : Therm → Therm) : (s.modTherm f).prot = s.prot := (rfl)
@[simp] theorem State.modTherm_kw (s : State) (f : Therm → Therm) : (s.modTherm f).kw = s.kw := (rfl)
@[simp] theorem State.modTherm_tap (s : State) (f : Therm → Therm) : (s.modTherm f).tap = s.tap := (rfl)
@[simp] theorem State.modTherm_trims (s : State) (f : Therm → Therm) : (s.modTherm f).trims = s.trims := (rfl)
@[simp] theorem State.modTherm_modRecs (s : State) (f : Therm → Therm) : (s.modTherm f).modRecs = s.modRecs := (rfl)
@[simp] theorem State.modTherm_occ (s : State) (f : Therm → Therm) : (s.modTherm f).occ = s.occ := (rfl)
@[simp] theorem State.modTherm_active (s : State) (f : Therm → Therm) : (s.modTherm f).active = s.active := (rfl)
@[simp] theorem State.modTherm_bootQ (s : State) (f : Therm → Therm) : (s.modTherm f).bootQ = s.bootQ := (rfl)
@[simp] theorem State.modTherm_bootDropped (s : State) (f : Therm → Therm) : (s.modTherm f).bootDropped = s.bootDropped := (rfl)
@[simp] theorem State.modTherm_bootQOn (s : State) (f : Therm → Therm) : (s.modTherm f).bootQOn = s.bootQOn := (rfl)
@[simp] theorem State.modTherm_evLost (s : State) (f : Therm → Therm) : (s.modTherm f).evLost = s.evLost := (rfl)
@[simp] theorem State.modTherm_linkLost (s : State) (f : Therm → Therm) : (s.modTherm f).linkLost = s.linkLost := (rfl)
@[simp] theorem State.modTherm_fetchNext (s : State) (f : Therm → Therm) : (s.modTherm f).fetchNext = s.fetchNext := (rfl)
@[simp] theorem State.modTherm_msixEn (s : State) (f : Therm → Therm) : (s.modTherm f).msixEn = s.msixEn := (rfl)
@[simp] theorem State.modTherm_msixMask (s : State) (f : Therm → Therm) : (s.modTherm f).msixMask = s.msixMask := (rfl)
@[simp] theorem State.modTherm_railOut (s : State) (f : Therm → Therm) : (s.modTherm f).railOut = s.railOut := (rfl)
@[simp] theorem State.modTherm_vinOut (s : State) (f : Therm → Therm) : (s.modTherm f).vinOut = s.vinOut := (rfl)
@[simp] theorem State.modTherm_out (s : State) (f : Therm → Therm) : (s.modTherm f).out = s.out := (rfl)
@[simp] theorem State.modTherm_held (s : State) (f : Therm → Therm) : (s.modTherm f).held = s.held := (rfl)
@[simp] theorem State.modTherm_freeCtr (s : State) (f : Therm → Therm) : (s.modTherm f).freeCtr = s.freeCtr := (rfl)
@[simp] theorem State.modTherm_pending (s : State) (f : Therm → Therm) : (s.modTherm f).pending = s.pending := (rfl)

/-! ### `modChain` -/

@[simp] theorem State.modChain_variant (s : State) (f : Chain → Chain) : (s.modChain f).variant = s.variant := (rfl)
@[simp] theorem State.modChain_regs (s : State) (f : Chain → Chain) : (s.modChain f).regs = s.regs := (rfl)
@[simp] theorem State.modChain_image (s : State) (f : Chain → Chain) : (s.modChain f).image = s.image := (rfl)
@[simp] theorem State.modChain_store (s : State) (f : Chain → Chain) : (s.modChain f).store = s.store := (rfl)
@[simp] theorem State.modChain_power (s : State) (f : Chain → Chain) : (s.modChain f).power = s.power := (rfl)
@[simp] theorem State.modChain_ref (s : State) (f : Chain → Chain) : (s.modChain f).ref = s.ref := (rfl)
@[simp] theorem State.modChain_pci (s : State) (f : Chain → Chain) : (s.modChain f).pci = s.pci := (rfl)
@[simp] theorem State.modChain_epoch (s : State) (f : Chain → Chain) : (s.modChain f).epoch = s.epoch := (rfl)
@[simp] theorem State.modChain_running (s : State) (f : Chain → Chain) : (s.modChain f).running = s.running := (rfl)
@[simp] theorem State.modChain_leaves (s : State) (f : Chain → Chain) : (s.modChain f).leaves = s.leaves := (rfl)
@[simp] theorem State.modChain_groups (s : State) (f : Chain → Chain) : (s.modChain f).groups = s.groups := (rfl)
@[simp] theorem State.modChain_chans (s : State) (f : Chain → Chain) : (s.modChain f).chans = s.chans := (rfl)
@[simp] theorem State.modChain_engines (s : State) (f : Chain → Chain) : (s.modChain f).engines = s.engines := (rfl)
@[simp] theorem State.modChain_rings (s : State) (f : Chain → Chain) : (s.modChain f).rings = s.rings := (rfl)
@[simp] theorem State.modChain_cmds (s : State) (f : Chain → Chain) : (s.modChain f).cmds = s.cmds := (rfl)
@[simp] theorem State.modChain_holds (s : State) (f : Chain → Chain) : (s.modChain f).holds = s.holds := (rfl)
@[simp] theorem State.modChain_boxes (s : State) (f : Chain → Chain) : (s.modChain f).boxes = s.boxes := (rfl)
@[simp] theorem State.modChain_reco (s : State) (f : Chain → Chain) : (s.modChain f).reco = s.reco := (rfl)
@[simp] theorem State.modChain_cal (s : State) (f : Chain → Chain) : (s.modChain f).cal = s.cal := (rfl)
@[simp] theorem State.modChain_flt (s : State) (f : Chain → Chain) : (s.modChain f).flt = s.flt := (rfl)
@[simp] theorem State.modChain_therm (s : State) (f : Chain → Chain) : (s.modChain f).therm = s.therm := (rfl)
@[simp] theorem State.modChain_prot (s : State) (f : Chain → Chain) : (s.modChain f).prot = s.prot := (rfl)
@[simp] theorem State.modChain_kw (s : State) (f : Chain → Chain) : (s.modChain f).kw = s.kw := (rfl)
@[simp] theorem State.modChain_tap (s : State) (f : Chain → Chain) : (s.modChain f).tap = s.tap := (rfl)
@[simp] theorem State.modChain_trims (s : State) (f : Chain → Chain) : (s.modChain f).trims = s.trims := (rfl)
@[simp] theorem State.modChain_modRecs (s : State) (f : Chain → Chain) : (s.modChain f).modRecs = s.modRecs := (rfl)
@[simp] theorem State.modChain_occ (s : State) (f : Chain → Chain) : (s.modChain f).occ = s.occ := (rfl)
@[simp] theorem State.modChain_active (s : State) (f : Chain → Chain) : (s.modChain f).active = s.active := (rfl)
@[simp] theorem State.modChain_bootQ (s : State) (f : Chain → Chain) : (s.modChain f).bootQ = s.bootQ := (rfl)
@[simp] theorem State.modChain_bootDropped (s : State) (f : Chain → Chain) : (s.modChain f).bootDropped = s.bootDropped := (rfl)
@[simp] theorem State.modChain_bootQOn (s : State) (f : Chain → Chain) : (s.modChain f).bootQOn = s.bootQOn := (rfl)
@[simp] theorem State.modChain_evLost (s : State) (f : Chain → Chain) : (s.modChain f).evLost = s.evLost := (rfl)
@[simp] theorem State.modChain_linkLost (s : State) (f : Chain → Chain) : (s.modChain f).linkLost = s.linkLost := (rfl)
@[simp] theorem State.modChain_fetchNext (s : State) (f : Chain → Chain) : (s.modChain f).fetchNext = s.fetchNext := (rfl)
@[simp] theorem State.modChain_msixEn (s : State) (f : Chain → Chain) : (s.modChain f).msixEn = s.msixEn := (rfl)
@[simp] theorem State.modChain_msixMask (s : State) (f : Chain → Chain) : (s.modChain f).msixMask = s.msixMask := (rfl)
@[simp] theorem State.modChain_railOut (s : State) (f : Chain → Chain) : (s.modChain f).railOut = s.railOut := (rfl)
@[simp] theorem State.modChain_vinOut (s : State) (f : Chain → Chain) : (s.modChain f).vinOut = s.vinOut := (rfl)
@[simp] theorem State.modChain_out (s : State) (f : Chain → Chain) : (s.modChain f).out = s.out := (rfl)
@[simp] theorem State.modChain_held (s : State) (f : Chain → Chain) : (s.modChain f).held = s.held := (rfl)
@[simp] theorem State.modChain_freeCtr (s : State) (f : Chain → Chain) : (s.modChain f).freeCtr = s.freeCtr := (rfl)
@[simp] theorem State.modChain_pending (s : State) (f : Chain → Chain) : (s.modChain f).pending = s.pending := (rfl)

/-! ### `tick` -/

@[simp] theorem State.tick_variant (s : State) : (s.tick).variant = s.variant := (rfl)
@[simp] theorem State.tick_regs (s : State) : (s.tick).regs = s.regs := (rfl)
@[simp] theorem State.tick_image (s : State) : (s.tick).image = s.image := (rfl)
@[simp] theorem State.tick_store (s : State) : (s.tick).store = s.store := (rfl)
@[simp] theorem State.tick_power (s : State) : (s.tick).power = s.power := (rfl)
@[simp] theorem State.tick_ref (s : State) : (s.tick).ref = s.ref := (rfl)
@[simp] theorem State.tick_pci (s : State) : (s.tick).pci = s.pci := (rfl)
@[simp] theorem State.tick_epoch (s : State) : (s.tick).epoch = s.epoch := (rfl)
@[simp] theorem State.tick_running (s : State) : (s.tick).running = s.running := (rfl)
@[simp] theorem State.tick_leaves (s : State) : (s.tick).leaves = s.leaves := (rfl)
@[simp] theorem State.tick_groups (s : State) : (s.tick).groups = s.groups := (rfl)
@[simp] theorem State.tick_chans (s : State) : (s.tick).chans = s.chans := (rfl)
@[simp] theorem State.tick_engines (s : State) : (s.tick).engines = s.engines := (rfl)
@[simp] theorem State.tick_rings (s : State) : (s.tick).rings = s.rings := (rfl)
@[simp] theorem State.tick_cmds (s : State) : (s.tick).cmds = s.cmds := (rfl)
@[simp] theorem State.tick_holds (s : State) : (s.tick).holds = s.holds := (rfl)
@[simp] theorem State.tick_boxes (s : State) : (s.tick).boxes = s.boxes := (rfl)
@[simp] theorem State.tick_reco (s : State) : (s.tick).reco = s.reco := (rfl)
@[simp] theorem State.tick_chain (s : State) : (s.tick).chain = s.chain := (rfl)
@[simp] theorem State.tick_cal (s : State) : (s.tick).cal = s.cal := (rfl)
@[simp] theorem State.tick_flt (s : State) : (s.tick).flt = s.flt := (rfl)
@[simp] theorem State.tick_therm (s : State) : (s.tick).therm = s.therm := (rfl)
@[simp] theorem State.tick_prot (s : State) : (s.tick).prot = s.prot := (rfl)
@[simp] theorem State.tick_kw (s : State) : (s.tick).kw = s.kw := (rfl)
@[simp] theorem State.tick_tap (s : State) : (s.tick).tap = s.tap := (rfl)
@[simp] theorem State.tick_trims (s : State) : (s.tick).trims = s.trims := (rfl)
@[simp] theorem State.tick_modRecs (s : State) : (s.tick).modRecs = s.modRecs := (rfl)
@[simp] theorem State.tick_occ (s : State) : (s.tick).occ = s.occ := (rfl)
@[simp] theorem State.tick_active (s : State) : (s.tick).active = s.active := (rfl)
@[simp] theorem State.tick_bootQ (s : State) : (s.tick).bootQ = s.bootQ := (rfl)
@[simp] theorem State.tick_bootDropped (s : State) : (s.tick).bootDropped = s.bootDropped := (rfl)
@[simp] theorem State.tick_bootQOn (s : State) : (s.tick).bootQOn = s.bootQOn := (rfl)
@[simp] theorem State.tick_evLost (s : State) : (s.tick).evLost = s.evLost := (rfl)
@[simp] theorem State.tick_linkLost (s : State) : (s.tick).linkLost = s.linkLost := (rfl)
@[simp] theorem State.tick_fetchNext (s : State) : (s.tick).fetchNext = s.fetchNext := (rfl)
@[simp] theorem State.tick_msixEn (s : State) : (s.tick).msixEn = s.msixEn := (rfl)
@[simp] theorem State.tick_msixMask (s : State) : (s.tick).msixMask = s.msixMask := (rfl)
@[simp] theorem State.tick_railOut (s : State) : (s.tick).railOut = s.railOut := (rfl)
@[simp] theorem State.tick_vinOut (s : State) : (s.tick).vinOut = s.vinOut := (rfl)
@[simp] theorem State.tick_out (s : State) : (s.tick).out = s.out := (rfl)
@[simp] theorem State.tick_held (s : State) : (s.tick).held = s.held := (rfl)
@[simp] theorem State.tick_pending (s : State) : (s.tick).pending = s.pending := (rfl)

/-! ### `fresh` -/

@[simp] theorem State.fresh_variant (s : State) : (s.fresh).variant = s.variant := (rfl)
@[simp] theorem State.fresh_regs (s : State) : (s.fresh).regs = s.regs := (rfl)
@[simp] theorem State.fresh_image (s : State) : (s.fresh).image = s.image := (rfl)
@[simp] theorem State.fresh_store (s : State) : (s.fresh).store = s.store := (rfl)
@[simp] theorem State.fresh_power (s : State) : (s.fresh).power = s.power := (rfl)
@[simp] theorem State.fresh_ref (s : State) : (s.fresh).ref = s.ref := (rfl)
@[simp] theorem State.fresh_pci (s : State) : (s.fresh).pci = s.pci := (rfl)
@[simp] theorem State.fresh_epoch (s : State) : (s.fresh).epoch = s.epoch := (rfl)
@[simp] theorem State.fresh_running (s : State) : (s.fresh).running = s.running := (rfl)
@[simp] theorem State.fresh_leaves (s : State) : (s.fresh).leaves = s.leaves := (rfl)
@[simp] theorem State.fresh_groups (s : State) : (s.fresh).groups = s.groups := (rfl)
@[simp] theorem State.fresh_chans (s : State) : (s.fresh).chans = s.chans := (rfl)
@[simp] theorem State.fresh_engines (s : State) : (s.fresh).engines = s.engines := (rfl)
@[simp] theorem State.fresh_rings (s : State) : (s.fresh).rings = s.rings := (rfl)
@[simp] theorem State.fresh_cmds (s : State) : (s.fresh).cmds = s.cmds := (rfl)
@[simp] theorem State.fresh_holds (s : State) : (s.fresh).holds = s.holds := (rfl)
@[simp] theorem State.fresh_boxes (s : State) : (s.fresh).boxes = s.boxes := (rfl)
@[simp] theorem State.fresh_reco (s : State) : (s.fresh).reco = s.reco := (rfl)
@[simp] theorem State.fresh_chain (s : State) : (s.fresh).chain = s.chain := (rfl)
@[simp] theorem State.fresh_cal (s : State) : (s.fresh).cal = s.cal := (rfl)
@[simp] theorem State.fresh_flt (s : State) : (s.fresh).flt = s.flt := (rfl)
@[simp] theorem State.fresh_therm (s : State) : (s.fresh).therm = s.therm := (rfl)
@[simp] theorem State.fresh_prot (s : State) : (s.fresh).prot = s.prot := (rfl)
@[simp] theorem State.fresh_kw (s : State) : (s.fresh).kw = s.kw := (rfl)
@[simp] theorem State.fresh_tap (s : State) : (s.fresh).tap = s.tap := (rfl)
@[simp] theorem State.fresh_trims (s : State) : (s.fresh).trims = s.trims := (rfl)
@[simp] theorem State.fresh_modRecs (s : State) : (s.fresh).modRecs = s.modRecs := (rfl)
@[simp] theorem State.fresh_active (s : State) : (s.fresh).active = s.active := (rfl)
@[simp] theorem State.fresh_bootQ (s : State) : (s.fresh).bootQ = s.bootQ := (rfl)
@[simp] theorem State.fresh_bootDropped (s : State) : (s.fresh).bootDropped = s.bootDropped := (rfl)
@[simp] theorem State.fresh_bootQOn (s : State) : (s.fresh).bootQOn = s.bootQOn := (rfl)
@[simp] theorem State.fresh_evLost (s : State) : (s.fresh).evLost = s.evLost := (rfl)
@[simp] theorem State.fresh_linkLost (s : State) : (s.fresh).linkLost = s.linkLost := (rfl)
@[simp] theorem State.fresh_fetchNext (s : State) : (s.fresh).fetchNext = s.fetchNext := (rfl)
@[simp] theorem State.fresh_msixEn (s : State) : (s.fresh).msixEn = s.msixEn := (rfl)
@[simp] theorem State.fresh_msixMask (s : State) : (s.fresh).msixMask = s.msixMask := (rfl)
@[simp] theorem State.fresh_railOut (s : State) : (s.fresh).railOut = s.railOut := (rfl)
@[simp] theorem State.fresh_vinOut (s : State) : (s.fresh).vinOut = s.vinOut := (rfl)
@[simp] theorem State.fresh_held (s : State) : (s.fresh).held = s.held := (rfl)
@[simp] theorem State.fresh_freeCtr (s : State) : (s.fresh).freeCtr = s.freeCtr := (rfl)
@[simp] theorem State.fresh_pending (s : State) : (s.fresh).pending = s.pending := (rfl)

/-! ### Units and updated fields -/

@[simp] theorem State.setWord_leaf (s : State) (a : Nat) (w : Word) (k : Nat) : (s.setWord a w).leaf k = s.leaf k := (rfl)
@[simp] theorem State.setWord_grp (s : State) (a : Nat) (w : Word) (k : Nat) : (s.setWord a w).grp k = s.grp k := (rfl)
@[simp] theorem State.setWord_chan (s : State) (a : Nat) (w : Word) (k : Nat) : (s.setWord a w).chan k = s.chan k := (rfl)
@[simp] theorem State.setWord_eng (s : State) (a : Nat) (w : Word) (k : Nat) : (s.setWord a w).eng k = s.eng k := (rfl)
@[simp] theorem State.setWord_ring (s : State) (a : Nat) (w : Word) (k : Nat) : (s.setWord a w).ring k = s.ring k := (rfl)
@[simp] theorem State.setWord_box (s : State) (a : Nat) (w : Word) (k : Nat) : (s.setWord a w).box k = s.box k := (rfl)
@[simp] theorem State.wr_leaf (s : State) (b : Nat) (f : Fld) (v : Nat) (k : Nat) : (s.wr b f v).leaf k = s.leaf k := (rfl)
@[simp] theorem State.wr_grp (s : State) (b : Nat) (f : Fld) (v : Nat) (k : Nat) : (s.wr b f v).grp k = s.grp k := (rfl)
@[simp] theorem State.wr_chan (s : State) (b : Nat) (f : Fld) (v : Nat) (k : Nat) : (s.wr b f v).chan k = s.chan k := (rfl)
@[simp] theorem State.wr_eng (s : State) (b : Nat) (f : Fld) (v : Nat) (k : Nat) : (s.wr b f v).eng k = s.eng k := (rfl)
@[simp] theorem State.wr_ring (s : State) (b : Nat) (f : Fld) (v : Nat) (k : Nat) : (s.wr b f v).ring k = s.ring k := (rfl)
@[simp] theorem State.wr_box (s : State) (b : Nat) (f : Fld) (v : Nat) (k : Nat) : (s.wr b f v).box k = s.box k := (rfl)
@[simp] theorem State.flag_leaf (s : State) (b : Nat) (f : Fld) (v : Bool) (k : Nat) : (s.flag b f v).leaf k = s.leaf k := (rfl)
@[simp] theorem State.flag_grp (s : State) (b : Nat) (f : Fld) (v : Bool) (k : Nat) : (s.flag b f v).grp k = s.grp k := (rfl)
@[simp] theorem State.flag_chan (s : State) (b : Nat) (f : Fld) (v : Bool) (k : Nat) : (s.flag b f v).chan k = s.chan k := (rfl)
@[simp] theorem State.flag_eng (s : State) (b : Nat) (f : Fld) (v : Bool) (k : Nat) : (s.flag b f v).eng k = s.eng k := (rfl)
@[simp] theorem State.flag_ring (s : State) (b : Nat) (f : Fld) (v : Bool) (k : Nat) : (s.flag b f v).ring k = s.ring k := (rfl)
@[simp] theorem State.flag_box (s : State) (b : Nat) (f : Fld) (v : Bool) (k : Nat) : (s.flag b f v).box k = s.box k := (rfl)
@[simp] theorem State.inc_leaf (s : State) (b : Nat) (f : Fld) (n : Nat) (k : Nat) : (s.inc b f n).leaf k = s.leaf k := (rfl)
@[simp] theorem State.inc_grp (s : State) (b : Nat) (f : Fld) (n : Nat) (k : Nat) : (s.inc b f n).grp k = s.grp k := (rfl)
@[simp] theorem State.inc_chan (s : State) (b : Nat) (f : Fld) (n : Nat) (k : Nat) : (s.inc b f n).chan k = s.chan k := (rfl)
@[simp] theorem State.inc_eng (s : State) (b : Nat) (f : Fld) (n : Nat) (k : Nat) : (s.inc b f n).eng k = s.eng k := (rfl)
@[simp] theorem State.inc_ring (s : State) (b : Nat) (f : Fld) (n : Nat) (k : Nat) : (s.inc b f n).ring k = s.ring k := (rfl)
@[simp] theorem State.inc_box (s : State) (b : Nat) (f : Fld) (n : Nat) (k : Nat) : (s.inc b f n).box k = s.box k := (rfl)
@[simp] theorem State.clearRegs_leaf (s : State) (lo n : Nat) (k : Nat) : (s.clearRegs lo n).leaf k = s.leaf k := (rfl)
@[simp] theorem State.clearRegs_grp (s : State) (lo n : Nat) (k : Nat) : (s.clearRegs lo n).grp k = s.grp k := (rfl)
@[simp] theorem State.clearRegs_chan (s : State) (lo n : Nat) (k : Nat) : (s.clearRegs lo n).chan k = s.chan k := (rfl)
@[simp] theorem State.clearRegs_eng (s : State) (lo n : Nat) (k : Nat) : (s.clearRegs lo n).eng k = s.eng k := (rfl)
@[simp] theorem State.clearRegs_ring (s : State) (lo n : Nat) (k : Nat) : (s.clearRegs lo n).ring k = s.ring k := (rfl)
@[simp] theorem State.clearRegs_box (s : State) (lo n : Nat) (k : Nat) : (s.clearRegs lo n).box k = s.box k := (rfl)
@[simp] theorem State.setLeaf_grp (s : State) (n : Nat) (l : Leaf) (k : Nat) : (s.setLeaf n l).grp k = s.grp k := (rfl)
@[simp] theorem State.setLeaf_chan (s : State) (n : Nat) (l : Leaf) (k : Nat) : (s.setLeaf n l).chan k = s.chan k := (rfl)
@[simp] theorem State.setLeaf_eng (s : State) (n : Nat) (l : Leaf) (k : Nat) : (s.setLeaf n l).eng k = s.eng k := (rfl)
@[simp] theorem State.setLeaf_ring (s : State) (n : Nat) (l : Leaf) (k : Nat) : (s.setLeaf n l).ring k = s.ring k := (rfl)
@[simp] theorem State.setLeaf_box (s : State) (n : Nat) (l : Leaf) (k : Nat) : (s.setLeaf n l).box k = s.box k := (rfl)
@[simp] theorem State.setLeaf_mode (s : State) (n : Nat) (l : Leaf) : (s.setLeaf n l).mode = s.mode := (rfl)
@[simp] theorem State.modLeaf_grp (s : State) (n : Nat) (f : Leaf → Leaf) (k : Nat) : (s.modLeaf n f).grp k = s.grp k := (rfl)
@[simp] theorem State.modLeaf_chan (s : State) (n : Nat) (f : Leaf → Leaf) (k : Nat) : (s.modLeaf n f).chan k = s.chan k := (rfl)
@[simp] theorem State.modLeaf_eng (s : State) (n : Nat) (f : Leaf → Leaf) (k : Nat) : (s.modLeaf n f).eng k = s.eng k := (rfl)
@[simp] theorem State.modLeaf_ring (s : State) (n : Nat) (f : Leaf → Leaf) (k : Nat) : (s.modLeaf n f).ring k = s.ring k := (rfl)
@[simp] theorem State.modLeaf_box (s : State) (n : Nat) (f : Leaf → Leaf) (k : Nat) : (s.modLeaf n f).box k = s.box k := (rfl)
@[simp] theorem State.modLeaf_mode (s : State) (n : Nat) (f : Leaf → Leaf) : (s.modLeaf n f).mode = s.mode := (rfl)
@[simp] theorem State.setGrp_leaf (s : State) (n : Nat) (x : Grp) (k : Nat) : (s.setGrp n x).leaf k = s.leaf k := (rfl)
@[simp] theorem State.setGrp_chan (s : State) (n : Nat) (x : Grp) (k : Nat) : (s.setGrp n x).chan k = s.chan k := (rfl)
@[simp] theorem State.setGrp_eng (s : State) (n : Nat) (x : Grp) (k : Nat) : (s.setGrp n x).eng k = s.eng k := (rfl)
@[simp] theorem State.setGrp_ring (s : State) (n : Nat) (x : Grp) (k : Nat) : (s.setGrp n x).ring k = s.ring k := (rfl)
@[simp] theorem State.setGrp_box (s : State) (n : Nat) (x : Grp) (k : Nat) : (s.setGrp n x).box k = s.box k := (rfl)
@[simp] theorem State.setGrp_mode (s : State) (n : Nat) (x : Grp) : (s.setGrp n x).mode = s.mode := (rfl)
@[simp] theorem State.modGrp_leaf (s : State) (n : Nat) (f : Grp → Grp) (k : Nat) : (s.modGrp n f).leaf k = s.leaf k := (rfl)
@[simp] theorem State.modGrp_chan (s : State) (n : Nat) (f : Grp → Grp) (k : Nat) : (s.modGrp n f).chan k = s.chan k := (rfl)
@[simp] theorem State.modGrp_eng (s : State) (n : Nat) (f : Grp → Grp) (k : Nat) : (s.modGrp n f).eng k = s.eng k := (rfl)
@[simp] theorem State.modGrp_ring (s : State) (n : Nat) (f : Grp → Grp) (k : Nat) : (s.modGrp n f).ring k = s.ring k := (rfl)
@[simp] theorem State.modGrp_box (s : State) (n : Nat) (f : Grp → Grp) (k : Nat) : (s.modGrp n f).box k = s.box k := (rfl)
@[simp] theorem State.modGrp_mode (s : State) (n : Nat) (f : Grp → Grp) : (s.modGrp n f).mode = s.mode := (rfl)
@[simp] theorem State.setChan_leaf (s : State) (n : Nat) (x : Chan) (k : Nat) : (s.setChan n x).leaf k = s.leaf k := (rfl)
@[simp] theorem State.setChan_grp (s : State) (n : Nat) (x : Chan) (k : Nat) : (s.setChan n x).grp k = s.grp k := (rfl)
@[simp] theorem State.setChan_eng (s : State) (n : Nat) (x : Chan) (k : Nat) : (s.setChan n x).eng k = s.eng k := (rfl)
@[simp] theorem State.setChan_ring (s : State) (n : Nat) (x : Chan) (k : Nat) : (s.setChan n x).ring k = s.ring k := (rfl)
@[simp] theorem State.setChan_box (s : State) (n : Nat) (x : Chan) (k : Nat) : (s.setChan n x).box k = s.box k := (rfl)
@[simp] theorem State.setChan_mode (s : State) (n : Nat) (x : Chan) : (s.setChan n x).mode = s.mode := (rfl)
@[simp] theorem State.modChan_leaf (s : State) (n : Nat) (f : Chan → Chan) (k : Nat) : (s.modChan n f).leaf k = s.leaf k := (rfl)
@[simp] theorem State.modChan_grp (s : State) (n : Nat) (f : Chan → Chan) (k : Nat) : (s.modChan n f).grp k = s.grp k := (rfl)
@[simp] theorem State.modChan_eng (s : State) (n : Nat) (f : Chan → Chan) (k : Nat) : (s.modChan n f).eng k = s.eng k := (rfl)
@[simp] theorem State.modChan_ring (s : State) (n : Nat) (f : Chan → Chan) (k : Nat) : (s.modChan n f).ring k = s.ring k := (rfl)
@[simp] theorem State.modChan_box (s : State) (n : Nat) (f : Chan → Chan) (k : Nat) : (s.modChan n f).box k = s.box k := (rfl)
@[simp] theorem State.modChan_mode (s : State) (n : Nat) (f : Chan → Chan) : (s.modChan n f).mode = s.mode := (rfl)
@[simp] theorem State.setEng_leaf (s : State) (n : Nat) (x : Engine) (k : Nat) : (s.setEng n x).leaf k = s.leaf k := (rfl)
@[simp] theorem State.setEng_grp (s : State) (n : Nat) (x : Engine) (k : Nat) : (s.setEng n x).grp k = s.grp k := (rfl)
@[simp] theorem State.setEng_chan (s : State) (n : Nat) (x : Engine) (k : Nat) : (s.setEng n x).chan k = s.chan k := (rfl)
@[simp] theorem State.setEng_ring (s : State) (n : Nat) (x : Engine) (k : Nat) : (s.setEng n x).ring k = s.ring k := (rfl)
@[simp] theorem State.setEng_box (s : State) (n : Nat) (x : Engine) (k : Nat) : (s.setEng n x).box k = s.box k := (rfl)
@[simp] theorem State.setEng_mode (s : State) (n : Nat) (x : Engine) : (s.setEng n x).mode = s.mode := (rfl)
@[simp] theorem State.modEng_leaf (s : State) (n : Nat) (f : Engine → Engine) (k : Nat) : (s.modEng n f).leaf k = s.leaf k := (rfl)
@[simp] theorem State.modEng_grp (s : State) (n : Nat) (f : Engine → Engine) (k : Nat) : (s.modEng n f).grp k = s.grp k := (rfl)
@[simp] theorem State.modEng_chan (s : State) (n : Nat) (f : Engine → Engine) (k : Nat) : (s.modEng n f).chan k = s.chan k := (rfl)
@[simp] theorem State.modEng_ring (s : State) (n : Nat) (f : Engine → Engine) (k : Nat) : (s.modEng n f).ring k = s.ring k := (rfl)
@[simp] theorem State.modEng_box (s : State) (n : Nat) (f : Engine → Engine) (k : Nat) : (s.modEng n f).box k = s.box k := (rfl)
@[simp] theorem State.modEng_mode (s : State) (n : Nat) (f : Engine → Engine) : (s.modEng n f).mode = s.mode := (rfl)
@[simp] theorem State.setRing_leaf (s : State) (n : Nat) (x : Ring) (k : Nat) : (s.setRing n x).leaf k = s.leaf k := (rfl)
@[simp] theorem State.setRing_grp (s : State) (n : Nat) (x : Ring) (k : Nat) : (s.setRing n x).grp k = s.grp k := (rfl)
@[simp] theorem State.setRing_chan (s : State) (n : Nat) (x : Ring) (k : Nat) : (s.setRing n x).chan k = s.chan k := (rfl)
@[simp] theorem State.setRing_eng (s : State) (n : Nat) (x : Ring) (k : Nat) : (s.setRing n x).eng k = s.eng k := (rfl)
@[simp] theorem State.setRing_box (s : State) (n : Nat) (x : Ring) (k : Nat) : (s.setRing n x).box k = s.box k := (rfl)
@[simp] theorem State.setRing_mode (s : State) (n : Nat) (x : Ring) : (s.setRing n x).mode = s.mode := (rfl)
@[simp] theorem State.modRing_leaf (s : State) (n : Nat) (f : Ring → Ring) (k : Nat) : (s.modRing n f).leaf k = s.leaf k := (rfl)
@[simp] theorem State.modRing_grp (s : State) (n : Nat) (f : Ring → Ring) (k : Nat) : (s.modRing n f).grp k = s.grp k := (rfl)
@[simp] theorem State.modRing_chan (s : State) (n : Nat) (f : Ring → Ring) (k : Nat) : (s.modRing n f).chan k = s.chan k := (rfl)
@[simp] theorem State.modRing_eng (s : State) (n : Nat) (f : Ring → Ring) (k : Nat) : (s.modRing n f).eng k = s.eng k := (rfl)
@[simp] theorem State.modRing_box (s : State) (n : Nat) (f : Ring → Ring) (k : Nat) : (s.modRing n f).box k = s.box k := (rfl)
@[simp] theorem State.modRing_mode (s : State) (n : Nat) (f : Ring → Ring) : (s.modRing n f).mode = s.mode := (rfl)
@[simp] theorem State.setBox_leaf (s : State) (n : Nat) (x : Box) (k : Nat) : (s.setBox n x).leaf k = s.leaf k := (rfl)
@[simp] theorem State.setBox_grp (s : State) (n : Nat) (x : Box) (k : Nat) : (s.setBox n x).grp k = s.grp k := (rfl)
@[simp] theorem State.setBox_chan (s : State) (n : Nat) (x : Box) (k : Nat) : (s.setBox n x).chan k = s.chan k := (rfl)
@[simp] theorem State.setBox_eng (s : State) (n : Nat) (x : Box) (k : Nat) : (s.setBox n x).eng k = s.eng k := (rfl)
@[simp] theorem State.setBox_ring (s : State) (n : Nat) (x : Box) (k : Nat) : (s.setBox n x).ring k = s.ring k := (rfl)
@[simp] theorem State.setBox_mode (s : State) (n : Nat) (x : Box) : (s.setBox n x).mode = s.mode := (rfl)
@[simp] theorem State.modCmd_leaf (s : State) (h : Nat) (f : Cmd → Cmd) (k : Nat) : (s.modCmd h f).leaf k = s.leaf k := (rfl)
@[simp] theorem State.modCmd_grp (s : State) (h : Nat) (f : Cmd → Cmd) (k : Nat) : (s.modCmd h f).grp k = s.grp k := (rfl)
@[simp] theorem State.modCmd_chan (s : State) (h : Nat) (f : Cmd → Cmd) (k : Nat) : (s.modCmd h f).chan k = s.chan k := (rfl)
@[simp] theorem State.modCmd_eng (s : State) (h : Nat) (f : Cmd → Cmd) (k : Nat) : (s.modCmd h f).eng k = s.eng k := (rfl)
@[simp] theorem State.modCmd_ring (s : State) (h : Nat) (f : Cmd → Cmd) (k : Nat) : (s.modCmd h f).ring k = s.ring k := (rfl)
@[simp] theorem State.modCmd_box (s : State) (h : Nat) (f : Cmd → Cmd) (k : Nat) : (s.modCmd h f).box k = s.box k := (rfl)
@[simp] theorem State.modCmd_mode (s : State) (h : Nat) (f : Cmd → Cmd) : (s.modCmd h f).mode = s.mode := (rfl)
@[simp] theorem State.modPower_leaf (s : State) (f : Power → Power) (k : Nat) : (s.modPower f).leaf k = s.leaf k := (rfl)
@[simp] theorem State.modPower_grp (s : State) (f : Power → Power) (k : Nat) : (s.modPower f).grp k = s.grp k := (rfl)
@[simp] theorem State.modPower_chan (s : State) (f : Power → Power) (k : Nat) : (s.modPower f).chan k = s.chan k := (rfl)
@[simp] theorem State.modPower_eng (s : State) (f : Power → Power) (k : Nat) : (s.modPower f).eng k = s.eng k := (rfl)
@[simp] theorem State.modPower_ring (s : State) (f : Power → Power) (k : Nat) : (s.modPower f).ring k = s.ring k := (rfl)
@[simp] theorem State.modPower_box (s : State) (f : Power → Power) (k : Nat) : (s.modPower f).box k = s.box k := (rfl)
@[simp] theorem State.modPower_mode (s : State) (f : Power → Power) : (s.modPower f).mode = s.mode := (rfl)
@[simp] theorem State.modPower_power (s : State) (f : Power → Power) : (s.modPower f).power = f s.power := (rfl)
@[simp] theorem State.modRef_leaf (s : State) (f : RefMon → RefMon) (k : Nat) : (s.modRef f).leaf k = s.leaf k := (rfl)
@[simp] theorem State.modRef_grp (s : State) (f : RefMon → RefMon) (k : Nat) : (s.modRef f).grp k = s.grp k := (rfl)
@[simp] theorem State.modRef_chan (s : State) (f : RefMon → RefMon) (k : Nat) : (s.modRef f).chan k = s.chan k := (rfl)
@[simp] theorem State.modRef_eng (s : State) (f : RefMon → RefMon) (k : Nat) : (s.modRef f).eng k = s.eng k := (rfl)
@[simp] theorem State.modRef_ring (s : State) (f : RefMon → RefMon) (k : Nat) : (s.modRef f).ring k = s.ring k := (rfl)
@[simp] theorem State.modRef_box (s : State) (f : RefMon → RefMon) (k : Nat) : (s.modRef f).box k = s.box k := (rfl)
@[simp] theorem State.modRef_mode (s : State) (f : RefMon → RefMon) : (s.modRef f).mode = s.mode := (rfl)
@[simp] theorem State.modRef_ref (s : State) (f : RefMon → RefMon) : (s.modRef f).ref = f s.ref := (rfl)
@[simp] theorem State.modRef_pci (s : State) (f : RefMon → RefMon) : (s.modRef f).pci = s.pci := (rfl)
@[simp] theorem State.modReco_leaf (s : State) (f : Recorder → Recorder) (k : Nat) : (s.modReco f).leaf k = s.leaf k := (rfl)
@[simp] theorem State.modReco_grp (s : State) (f : Recorder → Recorder) (k : Nat) : (s.modReco f).grp k = s.grp k := (rfl)
@[simp] theorem State.modReco_chan (s : State) (f : Recorder → Recorder) (k : Nat) : (s.modReco f).chan k = s.chan k := (rfl)
@[simp] theorem State.modReco_eng (s : State) (f : Recorder → Recorder) (k : Nat) : (s.modReco f).eng k = s.eng k := (rfl)
@[simp] theorem State.modReco_ring (s : State) (f : Recorder → Recorder) (k : Nat) : (s.modReco f).ring k = s.ring k := (rfl)
@[simp] theorem State.modReco_box (s : State) (f : Recorder → Recorder) (k : Nat) : (s.modReco f).box k = s.box k := (rfl)
@[simp] theorem State.modReco_mode (s : State) (f : Recorder → Recorder) : (s.modReco f).mode = s.mode := (rfl)
@[simp] theorem State.modReco_reco (s : State) (f : Recorder → Recorder) : (s.modReco f).reco = f s.reco := (rfl)
@[simp] theorem State.modCal_leaf (s : State) (f : CalSt → CalSt) (k : Nat) : (s.modCal f).leaf k = s.leaf k := (rfl)
@[simp] theorem State.modCal_grp (s : State) (f : CalSt → CalSt) (k : Nat) : (s.modCal f).grp k = s.grp k := (rfl)
@[simp] theorem State.modCal_chan (s : State) (f : CalSt → CalSt) (k : Nat) : (s.modCal f).chan k = s.chan k := (rfl)
@[simp] theorem State.modCal_eng (s : State) (f : CalSt → CalSt) (k : Nat) : (s.modCal f).eng k = s.eng k := (rfl)
@[simp] theorem State.modCal_ring (s : State) (f : CalSt → CalSt) (k : Nat) : (s.modCal f).ring k = s.ring k := (rfl)
@[simp] theorem State.modCal_box (s : State) (f : CalSt → CalSt) (k : Nat) : (s.modCal f).box k = s.box k := (rfl)
@[simp] theorem State.modCal_mode (s : State) (f : CalSt → CalSt) : (s.modCal f).mode = s.mode := (rfl)
@[simp] theorem State.modCal_cal (s : State) (f : CalSt → CalSt) : (s.modCal f).cal = f s.cal := (rfl)
@[simp] theorem State.modFlt_leaf (s : State) (f : FltSt → FltSt) (k : Nat) : (s.modFlt f).leaf k = s.leaf k := (rfl)
@[simp] theorem State.modFlt_grp (s : State) (f : FltSt → FltSt) (k : Nat) : (s.modFlt f).grp k = s.grp k := (rfl)
@[simp] theorem State.modFlt_chan (s : State) (f : FltSt → FltSt) (k : Nat) : (s.modFlt f).chan k = s.chan k := (rfl)
@[simp] theorem State.modFlt_eng (s : State) (f : FltSt → FltSt) (k : Nat) : (s.modFlt f).eng k = s.eng k := (rfl)
@[simp] theorem State.modFlt_ring (s : State) (f : FltSt → FltSt) (k : Nat) : (s.modFlt f).ring k = s.ring k := (rfl)
@[simp] theorem State.modFlt_box (s : State) (f : FltSt → FltSt) (k : Nat) : (s.modFlt f).box k = s.box k := (rfl)
@[simp] theorem State.modFlt_mode (s : State) (f : FltSt → FltSt) : (s.modFlt f).mode = s.mode := (rfl)
@[simp] theorem State.modFlt_flt (s : State) (f : FltSt → FltSt) : (s.modFlt f).flt = f s.flt := (rfl)
@[simp] theorem State.modProt_leaf (s : State) (f : ProtSt → ProtSt) (k : Nat) : (s.modProt f).leaf k = s.leaf k := (rfl)
@[simp] theorem State.modProt_grp (s : State) (f : ProtSt → ProtSt) (k : Nat) : (s.modProt f).grp k = s.grp k := (rfl)
@[simp] theorem State.modProt_chan (s : State) (f : ProtSt → ProtSt) (k : Nat) : (s.modProt f).chan k = s.chan k := (rfl)
@[simp] theorem State.modProt_eng (s : State) (f : ProtSt → ProtSt) (k : Nat) : (s.modProt f).eng k = s.eng k := (rfl)
@[simp] theorem State.modProt_ring (s : State) (f : ProtSt → ProtSt) (k : Nat) : (s.modProt f).ring k = s.ring k := (rfl)
@[simp] theorem State.modProt_box (s : State) (f : ProtSt → ProtSt) (k : Nat) : (s.modProt f).box k = s.box k := (rfl)
@[simp] theorem State.modProt_mode (s : State) (f : ProtSt → ProtSt) : (s.modProt f).mode = s.mode := (rfl)
@[simp] theorem State.modProt_prot (s : State) (f : ProtSt → ProtSt) : (s.modProt f).prot = f s.prot := (rfl)
@[simp] theorem State.modTherm_leaf (s : State) (f : Therm → Therm) (k : Nat) : (s.modTherm f).leaf k = s.leaf k := (rfl)
@[simp] theorem State.modTherm_grp (s : State) (f : Therm → Therm) (k : Nat) : (s.modTherm f).grp k = s.grp k := (rfl)
@[simp] theorem State.modTherm_chan (s : State) (f : Therm → Therm) (k : Nat) : (s.modTherm f).chan k = s.chan k := (rfl)
@[simp] theorem State.modTherm_eng (s : State) (f : Therm → Therm) (k : Nat) : (s.modTherm f).eng k = s.eng k := (rfl)
@[simp] theorem State.modTherm_ring (s : State) (f : Therm → Therm) (k : Nat) : (s.modTherm f).ring k = s.ring k := (rfl)
@[simp] theorem State.modTherm_box (s : State) (f : Therm → Therm) (k : Nat) : (s.modTherm f).box k = s.box k := (rfl)
@[simp] theorem State.modTherm_mode (s : State) (f : Therm → Therm) : (s.modTherm f).mode = s.mode := (rfl)
@[simp] theorem State.modTherm_therm (s : State) (f : Therm → Therm) : (s.modTherm f).therm = f s.therm := (rfl)
@[simp] theorem State.modChain_leaf (s : State) (f : Chain → Chain) (k : Nat) : (s.modChain f).leaf k = s.leaf k := (rfl)
@[simp] theorem State.modChain_grp (s : State) (f : Chain → Chain) (k : Nat) : (s.modChain f).grp k = s.grp k := (rfl)
@[simp] theorem State.modChain_chan (s : State) (f : Chain → Chain) (k : Nat) : (s.modChain f).chan k = s.chan k := (rfl)
@[simp] theorem State.modChain_eng (s : State) (f : Chain → Chain) (k : Nat) : (s.modChain f).eng k = s.eng k := (rfl)
@[simp] theorem State.modChain_ring (s : State) (f : Chain → Chain) (k : Nat) : (s.modChain f).ring k = s.ring k := (rfl)
@[simp] theorem State.modChain_box (s : State) (f : Chain → Chain) (k : Nat) : (s.modChain f).box k = s.box k := (rfl)
@[simp] theorem State.modChain_mode (s : State) (f : Chain → Chain) : (s.modChain f).mode = s.mode := (rfl)
@[simp] theorem State.modChain_chain (s : State) (f : Chain → Chain) : (s.modChain f).chain = f s.chain := (rfl)
@[simp] theorem State.tick_leaf (s : State) (k : Nat) : (s.tick).leaf k = s.leaf k := (rfl)
@[simp] theorem State.tick_grp (s : State) (k : Nat) : (s.tick).grp k = s.grp k := (rfl)
@[simp] theorem State.tick_chan (s : State) (k : Nat) : (s.tick).chan k = s.chan k := (rfl)
@[simp] theorem State.tick_eng (s : State) (k : Nat) : (s.tick).eng k = s.eng k := (rfl)
@[simp] theorem State.tick_ring (s : State) (k : Nat) : (s.tick).ring k = s.ring k := (rfl)
@[simp] theorem State.tick_box (s : State) (k : Nat) : (s.tick).box k = s.box k := (rfl)
@[simp] theorem State.tick_mode (s : State) : (s.tick).mode = s.mode := (rfl)
@[simp] theorem State.fresh_leaf (s : State) (k : Nat) : (s.fresh).leaf k = s.leaf k := (rfl)
@[simp] theorem State.fresh_grp (s : State) (k : Nat) : (s.fresh).grp k = s.grp k := (rfl)
@[simp] theorem State.fresh_chan (s : State) (k : Nat) : (s.fresh).chan k = s.chan k := (rfl)
@[simp] theorem State.fresh_eng (s : State) (k : Nat) : (s.fresh).eng k = s.eng k := (rfl)
@[simp] theorem State.fresh_ring (s : State) (k : Nat) : (s.fresh).ring k = s.ring k := (rfl)
@[simp] theorem State.fresh_box (s : State) (k : Nat) : (s.fresh).box k = s.box k := (rfl)
@[simp] theorem State.fresh_mode (s : State) : (s.fresh).mode = s.mode := (rfl)
@[simp] theorem State.tick_freeCtr (s : State) : s.tick.freeCtr = s.freeCtr + 1 := (rfl)
@[simp] theorem State.fresh_out (s : State) : s.fresh.out = [] := (rfl)
@[simp] theorem State.fresh_occ (s : State) : s.fresh.occ = [] := (rfl)

/-! ### `raise` and `send` -/

/-- Raising an event changes only the occurrences of the cycle. -/
theorem State.raise_eq (s : State) (e d : Nat) : ∃ l, s.raise e d = { s with occ := l } := by
  simp only [State.raise, State.raiseOcc]
  split
  · exact ⟨s.occ, rfl⟩
  · split
    · exact ⟨s.occ, rfl⟩
    · exact ⟨_, rfl⟩

/-- Sending changes only what is sent and what waits for the link. -/
theorem State.send_eq (s : State) (o : Out) : ∃ l h, s.send o = { s with out := l, held := h } := by
  unfold State.send
  split <;> try split
  all_goals first | exact ⟨_, _, rfl⟩

@[simp] theorem State.raise_variant (s : State) (e d : Nat) : (s.raise e d).variant = s.variant := by
  obtain ⟨l, e⟩ := State.raise_eq s e d; rw [e]
@[simp] theorem State.raise_regs (s : State) (e d : Nat) : (s.raise e d).regs = s.regs := by
  obtain ⟨l, e⟩ := State.raise_eq s e d; rw [e]
@[simp] theorem State.raise_image (s : State) (e d : Nat) : (s.raise e d).image = s.image := by
  obtain ⟨l, e⟩ := State.raise_eq s e d; rw [e]
@[simp] theorem State.raise_store (s : State) (e d : Nat) : (s.raise e d).store = s.store := by
  obtain ⟨l, e⟩ := State.raise_eq s e d; rw [e]
@[simp] theorem State.raise_power (s : State) (e d : Nat) : (s.raise e d).power = s.power := by
  obtain ⟨l, e⟩ := State.raise_eq s e d; rw [e]
@[simp] theorem State.raise_ref (s : State) (e d : Nat) : (s.raise e d).ref = s.ref := by
  obtain ⟨l, e⟩ := State.raise_eq s e d; rw [e]
@[simp] theorem State.raise_pci (s : State) (e d : Nat) : (s.raise e d).pci = s.pci := by
  obtain ⟨l, e⟩ := State.raise_eq s e d; rw [e]
@[simp] theorem State.raise_epoch (s : State) (e d : Nat) : (s.raise e d).epoch = s.epoch := by
  obtain ⟨l, e⟩ := State.raise_eq s e d; rw [e]
@[simp] theorem State.raise_running (s : State) (e d : Nat) : (s.raise e d).running = s.running := by
  obtain ⟨l, e⟩ := State.raise_eq s e d; rw [e]
@[simp] theorem State.raise_leaves (s : State) (e d : Nat) : (s.raise e d).leaves = s.leaves := by
  obtain ⟨l, e⟩ := State.raise_eq s e d; rw [e]
@[simp] theorem State.raise_groups (s : State) (e d : Nat) : (s.raise e d).groups = s.groups := by
  obtain ⟨l, e⟩ := State.raise_eq s e d; rw [e]
@[simp] theorem State.raise_chans (s : State) (e d : Nat) : (s.raise e d).chans = s.chans := by
  obtain ⟨l, e⟩ := State.raise_eq s e d; rw [e]
@[simp] theorem State.raise_engines (s : State) (e d : Nat) : (s.raise e d).engines = s.engines := by
  obtain ⟨l, e⟩ := State.raise_eq s e d; rw [e]
@[simp] theorem State.raise_rings (s : State) (e d : Nat) : (s.raise e d).rings = s.rings := by
  obtain ⟨l, e⟩ := State.raise_eq s e d; rw [e]
@[simp] theorem State.raise_cmds (s : State) (e d : Nat) : (s.raise e d).cmds = s.cmds := by
  obtain ⟨l, e⟩ := State.raise_eq s e d; rw [e]
@[simp] theorem State.raise_holds (s : State) (e d : Nat) : (s.raise e d).holds = s.holds := by
  obtain ⟨l, e⟩ := State.raise_eq s e d; rw [e]
@[simp] theorem State.raise_boxes (s : State) (e d : Nat) : (s.raise e d).boxes = s.boxes := by
  obtain ⟨l, e⟩ := State.raise_eq s e d; rw [e]
@[simp] theorem State.raise_reco (s : State) (e d : Nat) : (s.raise e d).reco = s.reco := by
  obtain ⟨l, e⟩ := State.raise_eq s e d; rw [e]
@[simp] theorem State.raise_chain (s : State) (e d : Nat) : (s.raise e d).chain = s.chain := by
  obtain ⟨l, e⟩ := State.raise_eq s e d; rw [e]
@[simp] theorem State.raise_cal (s : State) (e d : Nat) : (s.raise e d).cal = s.cal := by
  obtain ⟨l, e⟩ := State.raise_eq s e d; rw [e]
@[simp] theorem State.raise_flt (s : State) (e d : Nat) : (s.raise e d).flt = s.flt := by
  obtain ⟨l, e⟩ := State.raise_eq s e d; rw [e]
@[simp] theorem State.raise_therm (s : State) (e d : Nat) : (s.raise e d).therm = s.therm := by
  obtain ⟨l, e⟩ := State.raise_eq s e d; rw [e]
@[simp] theorem State.raise_prot (s : State) (e d : Nat) : (s.raise e d).prot = s.prot := by
  obtain ⟨l, e⟩ := State.raise_eq s e d; rw [e]
@[simp] theorem State.raise_kw (s : State) (e d : Nat) : (s.raise e d).kw = s.kw := by
  obtain ⟨l, e⟩ := State.raise_eq s e d; rw [e]
@[simp] theorem State.raise_tap (s : State) (e d : Nat) : (s.raise e d).tap = s.tap := by
  obtain ⟨l, e⟩ := State.raise_eq s e d; rw [e]
@[simp] theorem State.raise_trims (s : State) (e d : Nat) : (s.raise e d).trims = s.trims := by
  obtain ⟨l, e⟩ := State.raise_eq s e d; rw [e]
@[simp] theorem State.raise_modRecs (s : State) (e d : Nat) : (s.raise e d).modRecs = s.modRecs := by
  obtain ⟨l, e⟩ := State.raise_eq s e d; rw [e]
@[simp] theorem State.raise_active (s : State) (e d : Nat) : (s.raise e d).active = s.active := by
  obtain ⟨l, e⟩ := State.raise_eq s e d; rw [e]
@[simp] theorem State.raise_bootQ (s : State) (e d : Nat) : (s.raise e d).bootQ = s.bootQ := by
  obtain ⟨l, e⟩ := State.raise_eq s e d; rw [e]
@[simp] theorem State.raise_bootDropped (s : State) (e d : Nat) : (s.raise e d).bootDropped = s.bootDropped := by
  obtain ⟨l, e⟩ := State.raise_eq s e d; rw [e]
@[simp] theorem State.raise_bootQOn (s : State) (e d : Nat) : (s.raise e d).bootQOn = s.bootQOn := by
  obtain ⟨l, e⟩ := State.raise_eq s e d; rw [e]
@[simp] theorem State.raise_evLost (s : State) (e d : Nat) : (s.raise e d).evLost = s.evLost := by
  obtain ⟨l, e⟩ := State.raise_eq s e d; rw [e]
@[simp] theorem State.raise_linkLost (s : State) (e d : Nat) : (s.raise e d).linkLost = s.linkLost := by
  obtain ⟨l, e⟩ := State.raise_eq s e d; rw [e]
@[simp] theorem State.raise_fetchNext (s : State) (e d : Nat) : (s.raise e d).fetchNext = s.fetchNext := by
  obtain ⟨l, e⟩ := State.raise_eq s e d; rw [e]
@[simp] theorem State.raise_msixEn (s : State) (e d : Nat) : (s.raise e d).msixEn = s.msixEn := by
  obtain ⟨l, e⟩ := State.raise_eq s e d; rw [e]
@[simp] theorem State.raise_msixMask (s : State) (e d : Nat) : (s.raise e d).msixMask = s.msixMask := by
  obtain ⟨l, e⟩ := State.raise_eq s e d; rw [e]
@[simp] theorem State.raise_railOut (s : State) (e d : Nat) : (s.raise e d).railOut = s.railOut := by
  obtain ⟨l, e⟩ := State.raise_eq s e d; rw [e]
@[simp] theorem State.raise_vinOut (s : State) (e d : Nat) : (s.raise e d).vinOut = s.vinOut := by
  obtain ⟨l, e⟩ := State.raise_eq s e d; rw [e]
@[simp] theorem State.raise_out (s : State) (e d : Nat) : (s.raise e d).out = s.out := by
  obtain ⟨l, e⟩ := State.raise_eq s e d; rw [e]
@[simp] theorem State.raise_held (s : State) (e d : Nat) : (s.raise e d).held = s.held := by
  obtain ⟨l, e⟩ := State.raise_eq s e d; rw [e]
@[simp] theorem State.raise_freeCtr (s : State) (e d : Nat) : (s.raise e d).freeCtr = s.freeCtr := by
  obtain ⟨l, e⟩ := State.raise_eq s e d; rw [e]
@[simp] theorem State.raise_pending (s : State) (e d : Nat) : (s.raise e d).pending = s.pending := by
  obtain ⟨l, e⟩ := State.raise_eq s e d; rw [e]
@[simp] theorem State.raise_leaf (s : State) (e d : Nat) (j : Nat) : (s.raise e d).leaf j = s.leaf j := by
  obtain ⟨l, e⟩ := State.raise_eq s e d; rw [e]; rfl
@[simp] theorem State.raise_grp (s : State) (e d : Nat) (j : Nat) : (s.raise e d).grp j = s.grp j := by
  obtain ⟨l, e⟩ := State.raise_eq s e d; rw [e]; rfl
@[simp] theorem State.raise_chan (s : State) (e d : Nat) (j : Nat) : (s.raise e d).chan j = s.chan j := by
  obtain ⟨l, e⟩ := State.raise_eq s e d; rw [e]; rfl
@[simp] theorem State.raise_eng (s : State) (e d : Nat) (j : Nat) : (s.raise e d).eng j = s.eng j := by
  obtain ⟨l, e⟩ := State.raise_eq s e d; rw [e]; rfl
@[simp] theorem State.raise_ring (s : State) (e d : Nat) (j : Nat) : (s.raise e d).ring j = s.ring j := by
  obtain ⟨l, e⟩ := State.raise_eq s e d; rw [e]; rfl
@[simp] theorem State.raise_box (s : State) (e d : Nat) (j : Nat) : (s.raise e d).box j = s.box j := by
  obtain ⟨l, e⟩ := State.raise_eq s e d; rw [e]; rfl
@[simp] theorem State.raise_word (s : State) (e d : Nat) (a : Nat) : (s.raise e d).word a = s.word a := by
  obtain ⟨l, e⟩ := State.raise_eq s e d; rw [e]; rfl
@[simp] theorem State.raise_rd (s : State) (e d : Nat) (b' : Nat) (f' : Fld) : (s.raise e d).rd b' f' = s.rd b' f' := by
  obtain ⟨l, e⟩ := State.raise_eq s e d; rw [e]; rfl
@[simp] theorem State.raise_mode (s : State) (e d : Nat) : (s.raise e d).mode = s.mode := by
  obtain ⟨l, e⟩ := State.raise_eq s e d; rw [e]; rfl
@[simp] theorem State.graise_variant (s : State) (g k d : Nat) : (s.graise g k d).variant = s.variant := by
  obtain ⟨l, e⟩ := State.raise_eq s (12 * g + k) d; rw [State.graise, e]
@[simp] theorem State.graise_regs (s : State) (g k d : Nat) : (s.graise g k d).regs = s.regs := by
  obtain ⟨l, e⟩ := State.raise_eq s (12 * g + k) d; rw [State.graise, e]
@[simp] theorem State.graise_image (s : State) (g k d : Nat) : (s.graise g k d).image = s.image := by
  obtain ⟨l, e⟩ := State.raise_eq s (12 * g + k) d; rw [State.graise, e]
@[simp] theorem State.graise_store (s : State) (g k d : Nat) : (s.graise g k d).store = s.store := by
  obtain ⟨l, e⟩ := State.raise_eq s (12 * g + k) d; rw [State.graise, e]
@[simp] theorem State.graise_power (s : State) (g k d : Nat) : (s.graise g k d).power = s.power := by
  obtain ⟨l, e⟩ := State.raise_eq s (12 * g + k) d; rw [State.graise, e]
@[simp] theorem State.graise_ref (s : State) (g k d : Nat) : (s.graise g k d).ref = s.ref := by
  obtain ⟨l, e⟩ := State.raise_eq s (12 * g + k) d; rw [State.graise, e]
@[simp] theorem State.graise_pci (s : State) (g k d : Nat) : (s.graise g k d).pci = s.pci := by
  obtain ⟨l, e⟩ := State.raise_eq s (12 * g + k) d; rw [State.graise, e]
@[simp] theorem State.graise_epoch (s : State) (g k d : Nat) : (s.graise g k d).epoch = s.epoch := by
  obtain ⟨l, e⟩ := State.raise_eq s (12 * g + k) d; rw [State.graise, e]
@[simp] theorem State.graise_running (s : State) (g k d : Nat) : (s.graise g k d).running = s.running := by
  obtain ⟨l, e⟩ := State.raise_eq s (12 * g + k) d; rw [State.graise, e]
@[simp] theorem State.graise_leaves (s : State) (g k d : Nat) : (s.graise g k d).leaves = s.leaves := by
  obtain ⟨l, e⟩ := State.raise_eq s (12 * g + k) d; rw [State.graise, e]
@[simp] theorem State.graise_groups (s : State) (g k d : Nat) : (s.graise g k d).groups = s.groups := by
  obtain ⟨l, e⟩ := State.raise_eq s (12 * g + k) d; rw [State.graise, e]
@[simp] theorem State.graise_chans (s : State) (g k d : Nat) : (s.graise g k d).chans = s.chans := by
  obtain ⟨l, e⟩ := State.raise_eq s (12 * g + k) d; rw [State.graise, e]
@[simp] theorem State.graise_engines (s : State) (g k d : Nat) : (s.graise g k d).engines = s.engines := by
  obtain ⟨l, e⟩ := State.raise_eq s (12 * g + k) d; rw [State.graise, e]
@[simp] theorem State.graise_rings (s : State) (g k d : Nat) : (s.graise g k d).rings = s.rings := by
  obtain ⟨l, e⟩ := State.raise_eq s (12 * g + k) d; rw [State.graise, e]
@[simp] theorem State.graise_cmds (s : State) (g k d : Nat) : (s.graise g k d).cmds = s.cmds := by
  obtain ⟨l, e⟩ := State.raise_eq s (12 * g + k) d; rw [State.graise, e]
@[simp] theorem State.graise_holds (s : State) (g k d : Nat) : (s.graise g k d).holds = s.holds := by
  obtain ⟨l, e⟩ := State.raise_eq s (12 * g + k) d; rw [State.graise, e]
@[simp] theorem State.graise_boxes (s : State) (g k d : Nat) : (s.graise g k d).boxes = s.boxes := by
  obtain ⟨l, e⟩ := State.raise_eq s (12 * g + k) d; rw [State.graise, e]
@[simp] theorem State.graise_reco (s : State) (g k d : Nat) : (s.graise g k d).reco = s.reco := by
  obtain ⟨l, e⟩ := State.raise_eq s (12 * g + k) d; rw [State.graise, e]
@[simp] theorem State.graise_chain (s : State) (g k d : Nat) : (s.graise g k d).chain = s.chain := by
  obtain ⟨l, e⟩ := State.raise_eq s (12 * g + k) d; rw [State.graise, e]
@[simp] theorem State.graise_cal (s : State) (g k d : Nat) : (s.graise g k d).cal = s.cal := by
  obtain ⟨l, e⟩ := State.raise_eq s (12 * g + k) d; rw [State.graise, e]
@[simp] theorem State.graise_flt (s : State) (g k d : Nat) : (s.graise g k d).flt = s.flt := by
  obtain ⟨l, e⟩ := State.raise_eq s (12 * g + k) d; rw [State.graise, e]
@[simp] theorem State.graise_therm (s : State) (g k d : Nat) : (s.graise g k d).therm = s.therm := by
  obtain ⟨l, e⟩ := State.raise_eq s (12 * g + k) d; rw [State.graise, e]
@[simp] theorem State.graise_prot (s : State) (g k d : Nat) : (s.graise g k d).prot = s.prot := by
  obtain ⟨l, e⟩ := State.raise_eq s (12 * g + k) d; rw [State.graise, e]
@[simp] theorem State.graise_kw (s : State) (g k d : Nat) : (s.graise g k d).kw = s.kw := by
  obtain ⟨l, e⟩ := State.raise_eq s (12 * g + k) d; rw [State.graise, e]
@[simp] theorem State.graise_tap (s : State) (g k d : Nat) : (s.graise g k d).tap = s.tap := by
  obtain ⟨l, e⟩ := State.raise_eq s (12 * g + k) d; rw [State.graise, e]
@[simp] theorem State.graise_trims (s : State) (g k d : Nat) : (s.graise g k d).trims = s.trims := by
  obtain ⟨l, e⟩ := State.raise_eq s (12 * g + k) d; rw [State.graise, e]
@[simp] theorem State.graise_modRecs (s : State) (g k d : Nat) : (s.graise g k d).modRecs = s.modRecs := by
  obtain ⟨l, e⟩ := State.raise_eq s (12 * g + k) d; rw [State.graise, e]
@[simp] theorem State.graise_active (s : State) (g k d : Nat) : (s.graise g k d).active = s.active := by
  obtain ⟨l, e⟩ := State.raise_eq s (12 * g + k) d; rw [State.graise, e]
@[simp] theorem State.graise_bootQ (s : State) (g k d : Nat) : (s.graise g k d).bootQ = s.bootQ := by
  obtain ⟨l, e⟩ := State.raise_eq s (12 * g + k) d; rw [State.graise, e]
@[simp] theorem State.graise_bootDropped (s : State) (g k d : Nat) : (s.graise g k d).bootDropped = s.bootDropped := by
  obtain ⟨l, e⟩ := State.raise_eq s (12 * g + k) d; rw [State.graise, e]
@[simp] theorem State.graise_bootQOn (s : State) (g k d : Nat) : (s.graise g k d).bootQOn = s.bootQOn := by
  obtain ⟨l, e⟩ := State.raise_eq s (12 * g + k) d; rw [State.graise, e]
@[simp] theorem State.graise_evLost (s : State) (g k d : Nat) : (s.graise g k d).evLost = s.evLost := by
  obtain ⟨l, e⟩ := State.raise_eq s (12 * g + k) d; rw [State.graise, e]
@[simp] theorem State.graise_linkLost (s : State) (g k d : Nat) : (s.graise g k d).linkLost = s.linkLost := by
  obtain ⟨l, e⟩ := State.raise_eq s (12 * g + k) d; rw [State.graise, e]
@[simp] theorem State.graise_fetchNext (s : State) (g k d : Nat) : (s.graise g k d).fetchNext = s.fetchNext := by
  obtain ⟨l, e⟩ := State.raise_eq s (12 * g + k) d; rw [State.graise, e]
@[simp] theorem State.graise_msixEn (s : State) (g k d : Nat) : (s.graise g k d).msixEn = s.msixEn := by
  obtain ⟨l, e⟩ := State.raise_eq s (12 * g + k) d; rw [State.graise, e]
@[simp] theorem State.graise_msixMask (s : State) (g k d : Nat) : (s.graise g k d).msixMask = s.msixMask := by
  obtain ⟨l, e⟩ := State.raise_eq s (12 * g + k) d; rw [State.graise, e]
@[simp] theorem State.graise_railOut (s : State) (g k d : Nat) : (s.graise g k d).railOut = s.railOut := by
  obtain ⟨l, e⟩ := State.raise_eq s (12 * g + k) d; rw [State.graise, e]
@[simp] theorem State.graise_vinOut (s : State) (g k d : Nat) : (s.graise g k d).vinOut = s.vinOut := by
  obtain ⟨l, e⟩ := State.raise_eq s (12 * g + k) d; rw [State.graise, e]
@[simp] theorem State.graise_out (s : State) (g k d : Nat) : (s.graise g k d).out = s.out := by
  obtain ⟨l, e⟩ := State.raise_eq s (12 * g + k) d; rw [State.graise, e]
@[simp] theorem State.graise_held (s : State) (g k d : Nat) : (s.graise g k d).held = s.held := by
  obtain ⟨l, e⟩ := State.raise_eq s (12 * g + k) d; rw [State.graise, e]
@[simp] theorem State.graise_freeCtr (s : State) (g k d : Nat) : (s.graise g k d).freeCtr = s.freeCtr := by
  obtain ⟨l, e⟩ := State.raise_eq s (12 * g + k) d; rw [State.graise, e]
@[simp] theorem State.graise_pending (s : State) (g k d : Nat) : (s.graise g k d).pending = s.pending := by
  obtain ⟨l, e⟩ := State.raise_eq s (12 * g + k) d; rw [State.graise, e]
@[simp] theorem State.graise_leaf (s : State) (g k d : Nat) (j : Nat) : (s.graise g k d).leaf j = s.leaf j := by
  obtain ⟨l, e⟩ := State.raise_eq s (12 * g + k) d; rw [State.graise, e]; rfl
@[simp] theorem State.graise_grp (s : State) (g k d : Nat) (j : Nat) : (s.graise g k d).grp j = s.grp j := by
  obtain ⟨l, e⟩ := State.raise_eq s (12 * g + k) d; rw [State.graise, e]; rfl
@[simp] theorem State.graise_chan (s : State) (g k d : Nat) (j : Nat) : (s.graise g k d).chan j = s.chan j := by
  obtain ⟨l, e⟩ := State.raise_eq s (12 * g + k) d; rw [State.graise, e]; rfl
@[simp] theorem State.graise_eng (s : State) (g k d : Nat) (j : Nat) : (s.graise g k d).eng j = s.eng j := by
  obtain ⟨l, e⟩ := State.raise_eq s (12 * g + k) d; rw [State.graise, e]; rfl
@[simp] theorem State.graise_ring (s : State) (g k d : Nat) (j : Nat) : (s.graise g k d).ring j = s.ring j := by
  obtain ⟨l, e⟩ := State.raise_eq s (12 * g + k) d; rw [State.graise, e]; rfl
@[simp] theorem State.graise_box (s : State) (g k d : Nat) (j : Nat) : (s.graise g k d).box j = s.box j := by
  obtain ⟨l, e⟩ := State.raise_eq s (12 * g + k) d; rw [State.graise, e]; rfl
@[simp] theorem State.graise_word (s : State) (g k d : Nat) (a : Nat) : (s.graise g k d).word a = s.word a := by
  obtain ⟨l, e⟩ := State.raise_eq s (12 * g + k) d; rw [State.graise, e]; rfl
@[simp] theorem State.graise_rd (s : State) (g k d : Nat) (b' : Nat) (f' : Fld) : (s.graise g k d).rd b' f' = s.rd b' f' := by
  obtain ⟨l, e⟩ := State.raise_eq s (12 * g + k) d; rw [State.graise, e]; rfl
@[simp] theorem State.graise_mode (s : State) (g k d : Nat) : (s.graise g k d).mode = s.mode := by
  obtain ⟨l, e⟩ := State.raise_eq s (12 * g + k) d; rw [State.graise, e]; rfl
@[simp] theorem State.send_variant (s : State) (o : Out) : (s.send o).variant = s.variant := by
  obtain ⟨l, h, e⟩ := State.send_eq s o; rw [e]
@[simp] theorem State.send_regs (s : State) (o : Out) : (s.send o).regs = s.regs := by
  obtain ⟨l, h, e⟩ := State.send_eq s o; rw [e]
@[simp] theorem State.send_image (s : State) (o : Out) : (s.send o).image = s.image := by
  obtain ⟨l, h, e⟩ := State.send_eq s o; rw [e]
@[simp] theorem State.send_store (s : State) (o : Out) : (s.send o).store = s.store := by
  obtain ⟨l, h, e⟩ := State.send_eq s o; rw [e]
@[simp] theorem State.send_power (s : State) (o : Out) : (s.send o).power = s.power := by
  obtain ⟨l, h, e⟩ := State.send_eq s o; rw [e]
@[simp] theorem State.send_ref (s : State) (o : Out) : (s.send o).ref = s.ref := by
  obtain ⟨l, h, e⟩ := State.send_eq s o; rw [e]
@[simp] theorem State.send_pci (s : State) (o : Out) : (s.send o).pci = s.pci := by
  obtain ⟨l, h, e⟩ := State.send_eq s o; rw [e]
@[simp] theorem State.send_epoch (s : State) (o : Out) : (s.send o).epoch = s.epoch := by
  obtain ⟨l, h, e⟩ := State.send_eq s o; rw [e]
@[simp] theorem State.send_running (s : State) (o : Out) : (s.send o).running = s.running := by
  obtain ⟨l, h, e⟩ := State.send_eq s o; rw [e]
@[simp] theorem State.send_leaves (s : State) (o : Out) : (s.send o).leaves = s.leaves := by
  obtain ⟨l, h, e⟩ := State.send_eq s o; rw [e]
@[simp] theorem State.send_groups (s : State) (o : Out) : (s.send o).groups = s.groups := by
  obtain ⟨l, h, e⟩ := State.send_eq s o; rw [e]
@[simp] theorem State.send_chans (s : State) (o : Out) : (s.send o).chans = s.chans := by
  obtain ⟨l, h, e⟩ := State.send_eq s o; rw [e]
@[simp] theorem State.send_engines (s : State) (o : Out) : (s.send o).engines = s.engines := by
  obtain ⟨l, h, e⟩ := State.send_eq s o; rw [e]
@[simp] theorem State.send_rings (s : State) (o : Out) : (s.send o).rings = s.rings := by
  obtain ⟨l, h, e⟩ := State.send_eq s o; rw [e]
@[simp] theorem State.send_cmds (s : State) (o : Out) : (s.send o).cmds = s.cmds := by
  obtain ⟨l, h, e⟩ := State.send_eq s o; rw [e]
@[simp] theorem State.send_holds (s : State) (o : Out) : (s.send o).holds = s.holds := by
  obtain ⟨l, h, e⟩ := State.send_eq s o; rw [e]
@[simp] theorem State.send_boxes (s : State) (o : Out) : (s.send o).boxes = s.boxes := by
  obtain ⟨l, h, e⟩ := State.send_eq s o; rw [e]
@[simp] theorem State.send_reco (s : State) (o : Out) : (s.send o).reco = s.reco := by
  obtain ⟨l, h, e⟩ := State.send_eq s o; rw [e]
@[simp] theorem State.send_chain (s : State) (o : Out) : (s.send o).chain = s.chain := by
  obtain ⟨l, h, e⟩ := State.send_eq s o; rw [e]
@[simp] theorem State.send_cal (s : State) (o : Out) : (s.send o).cal = s.cal := by
  obtain ⟨l, h, e⟩ := State.send_eq s o; rw [e]
@[simp] theorem State.send_flt (s : State) (o : Out) : (s.send o).flt = s.flt := by
  obtain ⟨l, h, e⟩ := State.send_eq s o; rw [e]
@[simp] theorem State.send_therm (s : State) (o : Out) : (s.send o).therm = s.therm := by
  obtain ⟨l, h, e⟩ := State.send_eq s o; rw [e]
@[simp] theorem State.send_prot (s : State) (o : Out) : (s.send o).prot = s.prot := by
  obtain ⟨l, h, e⟩ := State.send_eq s o; rw [e]
@[simp] theorem State.send_kw (s : State) (o : Out) : (s.send o).kw = s.kw := by
  obtain ⟨l, h, e⟩ := State.send_eq s o; rw [e]
@[simp] theorem State.send_tap (s : State) (o : Out) : (s.send o).tap = s.tap := by
  obtain ⟨l, h, e⟩ := State.send_eq s o; rw [e]
@[simp] theorem State.send_trims (s : State) (o : Out) : (s.send o).trims = s.trims := by
  obtain ⟨l, h, e⟩ := State.send_eq s o; rw [e]
@[simp] theorem State.send_modRecs (s : State) (o : Out) : (s.send o).modRecs = s.modRecs := by
  obtain ⟨l, h, e⟩ := State.send_eq s o; rw [e]
@[simp] theorem State.send_occ (s : State) (o : Out) : (s.send o).occ = s.occ := by
  obtain ⟨l, h, e⟩ := State.send_eq s o; rw [e]
@[simp] theorem State.send_active (s : State) (o : Out) : (s.send o).active = s.active := by
  obtain ⟨l, h, e⟩ := State.send_eq s o; rw [e]
@[simp] theorem State.send_bootQ (s : State) (o : Out) : (s.send o).bootQ = s.bootQ := by
  obtain ⟨l, h, e⟩ := State.send_eq s o; rw [e]
@[simp] theorem State.send_bootDropped (s : State) (o : Out) : (s.send o).bootDropped = s.bootDropped := by
  obtain ⟨l, h, e⟩ := State.send_eq s o; rw [e]
@[simp] theorem State.send_bootQOn (s : State) (o : Out) : (s.send o).bootQOn = s.bootQOn := by
  obtain ⟨l, h, e⟩ := State.send_eq s o; rw [e]
@[simp] theorem State.send_evLost (s : State) (o : Out) : (s.send o).evLost = s.evLost := by
  obtain ⟨l, h, e⟩ := State.send_eq s o; rw [e]
@[simp] theorem State.send_linkLost (s : State) (o : Out) : (s.send o).linkLost = s.linkLost := by
  obtain ⟨l, h, e⟩ := State.send_eq s o; rw [e]
@[simp] theorem State.send_fetchNext (s : State) (o : Out) : (s.send o).fetchNext = s.fetchNext := by
  obtain ⟨l, h, e⟩ := State.send_eq s o; rw [e]
@[simp] theorem State.send_msixEn (s : State) (o : Out) : (s.send o).msixEn = s.msixEn := by
  obtain ⟨l, h, e⟩ := State.send_eq s o; rw [e]
@[simp] theorem State.send_msixMask (s : State) (o : Out) : (s.send o).msixMask = s.msixMask := by
  obtain ⟨l, h, e⟩ := State.send_eq s o; rw [e]
@[simp] theorem State.send_railOut (s : State) (o : Out) : (s.send o).railOut = s.railOut := by
  obtain ⟨l, h, e⟩ := State.send_eq s o; rw [e]
@[simp] theorem State.send_vinOut (s : State) (o : Out) : (s.send o).vinOut = s.vinOut := by
  obtain ⟨l, h, e⟩ := State.send_eq s o; rw [e]
@[simp] theorem State.send_freeCtr (s : State) (o : Out) : (s.send o).freeCtr = s.freeCtr := by
  obtain ⟨l, h, e⟩ := State.send_eq s o; rw [e]
@[simp] theorem State.send_pending (s : State) (o : Out) : (s.send o).pending = s.pending := by
  obtain ⟨l, h, e⟩ := State.send_eq s o; rw [e]
@[simp] theorem State.send_leaf (s : State) (o : Out) (j : Nat) : (s.send o).leaf j = s.leaf j := by
  obtain ⟨l, h, e⟩ := State.send_eq s o; rw [e]; rfl
@[simp] theorem State.send_grp (s : State) (o : Out) (j : Nat) : (s.send o).grp j = s.grp j := by
  obtain ⟨l, h, e⟩ := State.send_eq s o; rw [e]; rfl
@[simp] theorem State.send_chan (s : State) (o : Out) (j : Nat) : (s.send o).chan j = s.chan j := by
  obtain ⟨l, h, e⟩ := State.send_eq s o; rw [e]; rfl
@[simp] theorem State.send_eng (s : State) (o : Out) (j : Nat) : (s.send o).eng j = s.eng j := by
  obtain ⟨l, h, e⟩ := State.send_eq s o; rw [e]; rfl
@[simp] theorem State.send_ring (s : State) (o : Out) (j : Nat) : (s.send o).ring j = s.ring j := by
  obtain ⟨l, h, e⟩ := State.send_eq s o; rw [e]; rfl
@[simp] theorem State.send_box (s : State) (o : Out) (j : Nat) : (s.send o).box j = s.box j := by
  obtain ⟨l, h, e⟩ := State.send_eq s o; rw [e]; rfl
@[simp] theorem State.send_word (s : State) (o : Out) (a : Nat) : (s.send o).word a = s.word a := by
  obtain ⟨l, h, e⟩ := State.send_eq s o; rw [e]; rfl
@[simp] theorem State.send_rd (s : State) (o : Out) (b' : Nat) (f' : Fld) : (s.send o).rd b' f' = s.rd b' f' := by
  obtain ⟨l, h, e⟩ := State.send_eq s o; rw [e]; rfl
@[simp] theorem State.send_mode (s : State) (o : Out) : (s.send o).mode = s.mode := by
  obtain ⟨l, h, e⟩ := State.send_eq s o; rw [e]; rfl

/-! ### Register words -/

theorem State.word_setWord (s : State) (a b : Nat) (w : Word) : (s.setWord a w).word b = if b = a then w else s.word b := by
  unfold State.word State.setWord
  by_cases h : b = a
  · subst h; simp
  · simp [h, Tab.get_set_ne]

@[simp] theorem State.word_setWord_self (s : State) (a : Nat) (w : Word) : (s.setWord a w).word a = w := by simp [State.word_setWord]

theorem State.word_setWord_ne (s : State) (a b : Nat) (w : Word) (h : b ≠ a) : (s.setWord a w).word b = s.word b := by
  simp [State.word_setWord, h]

theorem State.word_wr (s : State) (b : Nat) (f : Fld) (v a : Nat) :
    (s.wr b f v).word a = if a = b + f.off then putBits (s.word (b + f.off)) f.lsb f.width v else s.word a := by
  simp only [State.wr, State.word_setWord]

theorem State.word_wr_ne (s : State) (b : Nat) (f : Fld) (v a : Nat) (h : a ≠ b + f.off) : (s.wr b f v).word a = s.word a := by
  simp [State.word_wr, h]

theorem State.word_flag_ne (s : State) (b : Nat) (f : Fld) (v : Bool) (a : Nat) (h : a ≠ b + f.off) :
    (s.flag b f v).word a = s.word a := by simp [State.flag, State.word_wr, h]

theorem State.word_inc_ne (s : State) (b : Nat) (f : Fld) (n a : Nat) (h : a ≠ b + f.off) : (s.inc b f n).word a = s.word a := by
  simp [State.inc, State.word_wr, h]

theorem State.word_clearRegs (s : State) (lo n a : Nat) :
    (s.clearRegs lo n).word a = if lo ≤ a ∧ a < lo + n then resetWord s.variant a else s.word a := by
  simp [State.word, State.clearRegs, Tab.get_clearRange]

/-- The field just written. -/
theorem State.rd_wr (s : State) (b : Nat) (f : Fld) (v : Nat) (h : f.lsb + f.width ≤ 32) : (s.wr b f v).rd b f = v % 2 ^ f.width := by
  simp [State.rd, State.word_wr, getBits_putBits _ _ _ _ h]

/-- A field of another word. -/
theorem State.rd_wr_ne (s : State) (b : Nat) (f : Fld) (v b' : Nat) (f' : Fld) (h : b' + f'.off ≠ b + f.off) :
    (s.wr b f v).rd b' f' = s.rd b' f' := by
  simp [State.rd, State.word_wr, h]

/-- Another field of the same word, or of another one. -/
theorem State.rd_wr_apart (s : State) (b : Nat) (f : Fld) (v b' : Nat) (f' : Fld)
    (h : f'.lsb + f'.width ≤ f.lsb ∨ f.lsb + f.width ≤ f'.lsb) : (s.wr b f v).rd b' f' = s.rd b' f' := by
  simp only [State.rd, State.word_wr]
  split
  · next e => rw [getBits_putBits_ne _ _ _ _ _ _ h, e]
  · rfl

theorem State.rd_flag (s : State) (b : Nat) (f : Fld) (v : Bool) (h : f.lsb + f.width ≤ 32) (h1 : f.width = 1) :
    (s.flag b f v).rd b f = b2n v := by
  cases v <;> simp [State.flag, State.rd_wr _ _ _ _ h, h1, b2n]

theorem State.rd_inc (s : State) (b : Nat) (f : Fld) (n : Nat) (h : f.lsb + f.width ≤ 32) :
    (s.inc b f n).rd b f = (s.rd b f + n) % 2 ^ f.width := by simp [State.inc, State.rd_wr _ _ _ _ h]

theorem State.rd_lt (s : State) (b : Nat) (f : Fld) : s.rd b f < 2 ^ f.width := getBits_lt _ _ _

@[simp] theorem State.setLeaf_word (s : State) (n : Nat) (l : Leaf) (a : Nat) : (s.setLeaf n l).word a = s.word a := rfl
@[simp] theorem State.setLeaf_rd (s : State) (n : Nat) (l : Leaf) (b' : Nat) (f' : Fld) : (s.setLeaf n l).rd b' f' = s.rd b' f' := rfl
@[simp] theorem State.modLeaf_word (s : State) (n : Nat) (f : Leaf → Leaf) (a : Nat) : (s.modLeaf n f).word a = s.word a := rfl
@[simp] theorem State.modLeaf_rd (s : State) (n : Nat) (f : Leaf → Leaf) (b' : Nat) (f' : Fld) : (s.modLeaf n f).rd b' f' = s.rd b' f' := rfl
@[simp] theorem State.setGrp_word (s : State) (n : Nat) (x : Grp) (a : Nat) : (s.setGrp n x).word a = s.word a := rfl
@[simp] theorem State.setGrp_rd (s : State) (n : Nat) (x : Grp) (b' : Nat) (f' : Fld) : (s.setGrp n x).rd b' f' = s.rd b' f' := rfl
@[simp] theorem State.modGrp_word (s : State) (n : Nat) (f : Grp → Grp) (a : Nat) : (s.modGrp n f).word a = s.word a := rfl
@[simp] theorem State.modGrp_rd (s : State) (n : Nat) (f : Grp → Grp) (b' : Nat) (f' : Fld) : (s.modGrp n f).rd b' f' = s.rd b' f' := rfl
@[simp] theorem State.setChan_word (s : State) (n : Nat) (x : Chan) (a : Nat) : (s.setChan n x).word a = s.word a := rfl
@[simp] theorem State.setChan_rd (s : State) (n : Nat) (x : Chan) (b' : Nat) (f' : Fld) : (s.setChan n x).rd b' f' = s.rd b' f' := rfl
@[simp] theorem State.modChan_word (s : State) (n : Nat) (f : Chan → Chan) (a : Nat) : (s.modChan n f).word a = s.word a := rfl
@[simp] theorem State.modChan_rd (s : State) (n : Nat) (f : Chan → Chan) (b' : Nat) (f' : Fld) : (s.modChan n f).rd b' f' = s.rd b' f' := rfl
@[simp] theorem State.setEng_word (s : State) (n : Nat) (x : Engine) (a : Nat) : (s.setEng n x).word a = s.word a := rfl
@[simp] theorem State.setEng_rd (s : State) (n : Nat) (x : Engine) (b' : Nat) (f' : Fld) : (s.setEng n x).rd b' f' = s.rd b' f' := rfl
@[simp] theorem State.modEng_word (s : State) (n : Nat) (f : Engine → Engine) (a : Nat) : (s.modEng n f).word a = s.word a := rfl
@[simp] theorem State.modEng_rd (s : State) (n : Nat) (f : Engine → Engine) (b' : Nat) (f' : Fld) : (s.modEng n f).rd b' f' = s.rd b' f' := rfl
@[simp] theorem State.setRing_word (s : State) (n : Nat) (x : Ring) (a : Nat) : (s.setRing n x).word a = s.word a := rfl
@[simp] theorem State.setRing_rd (s : State) (n : Nat) (x : Ring) (b' : Nat) (f' : Fld) : (s.setRing n x).rd b' f' = s.rd b' f' := rfl
@[simp] theorem State.modRing_word (s : State) (n : Nat) (f : Ring → Ring) (a : Nat) : (s.modRing n f).word a = s.word a := rfl
@[simp] theorem State.modRing_rd (s : State) (n : Nat) (f : Ring → Ring) (b' : Nat) (f' : Fld) : (s.modRing n f).rd b' f' = s.rd b' f' := rfl
@[simp] theorem State.setBox_word (s : State) (n : Nat) (x : Box) (a : Nat) : (s.setBox n x).word a = s.word a := rfl
@[simp] theorem State.setBox_rd (s : State) (n : Nat) (x : Box) (b' : Nat) (f' : Fld) : (s.setBox n x).rd b' f' = s.rd b' f' := rfl
@[simp] theorem State.modCmd_word (s : State) (h : Nat) (f : Cmd → Cmd) (a : Nat) : (s.modCmd h f).word a = s.word a := rfl
@[simp] theorem State.modCmd_rd (s : State) (h : Nat) (f : Cmd → Cmd) (b' : Nat) (f' : Fld) : (s.modCmd h f).rd b' f' = s.rd b' f' := rfl
@[simp] theorem State.modPower_word (s : State) (f : Power → Power) (a : Nat) : (s.modPower f).word a = s.word a := rfl
@[simp] theorem State.modPower_rd (s : State) (f : Power → Power) (b' : Nat) (f' : Fld) : (s.modPower f).rd b' f' = s.rd b' f' := rfl
@[simp] theorem State.modRef_word (s : State) (f : RefMon → RefMon) (a : Nat) : (s.modRef f).word a = s.word a := rfl
@[simp] theorem State.modRef_rd (s : State) (f : RefMon → RefMon) (b' : Nat) (f' : Fld) : (s.modRef f).rd b' f' = s.rd b' f' := rfl
@[simp] theorem State.modReco_word (s : State) (f : Recorder → Recorder) (a : Nat) : (s.modReco f).word a = s.word a := rfl
@[simp] theorem State.modReco_rd (s : State) (f : Recorder → Recorder) (b' : Nat) (f' : Fld) : (s.modReco f).rd b' f' = s.rd b' f' := rfl
@[simp] theorem State.modCal_word (s : State) (f : CalSt → CalSt) (a : Nat) : (s.modCal f).word a = s.word a := rfl
@[simp] theorem State.modCal_rd (s : State) (f : CalSt → CalSt) (b' : Nat) (f' : Fld) : (s.modCal f).rd b' f' = s.rd b' f' := rfl
@[simp] theorem State.modFlt_word (s : State) (f : FltSt → FltSt) (a : Nat) : (s.modFlt f).word a = s.word a := rfl
@[simp] theorem State.modFlt_rd (s : State) (f : FltSt → FltSt) (b' : Nat) (f' : Fld) : (s.modFlt f).rd b' f' = s.rd b' f' := rfl
@[simp] theorem State.modProt_word (s : State) (f : ProtSt → ProtSt) (a : Nat) : (s.modProt f).word a = s.word a := rfl
@[simp] theorem State.modProt_rd (s : State) (f : ProtSt → ProtSt) (b' : Nat) (f' : Fld) : (s.modProt f).rd b' f' = s.rd b' f' := rfl
@[simp] theorem State.modTherm_word (s : State) (f : Therm → Therm) (a : Nat) : (s.modTherm f).word a = s.word a := rfl
@[simp] theorem State.modTherm_rd (s : State) (f : Therm → Therm) (b' : Nat) (f' : Fld) : (s.modTherm f).rd b' f' = s.rd b' f' := rfl
@[simp] theorem State.modChain_word (s : State) (f : Chain → Chain) (a : Nat) : (s.modChain f).word a = s.word a := rfl
@[simp] theorem State.modChain_rd (s : State) (f : Chain → Chain) (b' : Nat) (f' : Fld) : (s.modChain f).rd b' f' = s.rd b' f' := rfl
@[simp] theorem State.tick_word (s : State) (a : Nat) : (s.tick).word a = s.word a := rfl
@[simp] theorem State.tick_rd (s : State) (b' : Nat) (f' : Fld) : (s.tick).rd b' f' = s.rd b' f' := rfl
@[simp] theorem State.fresh_word (s : State) (a : Nat) : (s.fresh).word a = s.word a := rfl
@[simp] theorem State.fresh_rd (s : State) (b' : Nat) (f' : Fld) : (s.fresh).rd b' f' = s.rd b' f' := rfl

/-! ### Units -/

theorem State.leaf_setLeaf (s : State) (n m : Nat) (x : Leaf) : (s.setLeaf n x).leaf m = if m = n then x else s.leaf m := by
  simp [State.leaf, State.setLeaf, Tab.get_set]
@[simp] theorem State.leaf_setLeaf_self (s : State) (n : Nat) (x : Leaf) : (s.setLeaf n x).leaf n = x := by simp [State.leaf_setLeaf]
theorem State.grp_setGrp (s : State) (n m : Nat) (x : Grp) : (s.setGrp n x).grp m = if m = n then x else s.grp m := by
  simp [State.grp, State.setGrp, Tab.get_set]
@[simp] theorem State.grp_setGrp_self (s : State) (n : Nat) (x : Grp) : (s.setGrp n x).grp n = x := by simp [State.grp_setGrp]
theorem State.chan_setChan (s : State) (n m : Nat) (x : Chan) : (s.setChan n x).chan m = if m = n then x else s.chan m := by
  simp [State.chan, State.setChan, Tab.get_set]
@[simp] theorem State.chan_setChan_self (s : State) (n : Nat) (x : Chan) : (s.setChan n x).chan n = x := by simp [State.chan_setChan]
theorem State.eng_setEng (s : State) (n m : Nat) (x : Engine) : (s.setEng n x).eng m = if m = n then x else s.eng m := by
  simp [State.eng, State.setEng, Tab.get_set]
@[simp] theorem State.eng_setEng_self (s : State) (n : Nat) (x : Engine) : (s.setEng n x).eng n = x := by simp [State.eng_setEng]
theorem State.ring_setRing (s : State) (n m : Nat) (x : Ring) : (s.setRing n x).ring m = if m = n then x else s.ring m := by
  simp [State.ring, State.setRing, Tab.get_set]
@[simp] theorem State.ring_setRing_self (s : State) (n : Nat) (x : Ring) : (s.setRing n x).ring n = x := by simp [State.ring_setRing]
theorem State.box_setBox (s : State) (n m : Nat) (x : Box) : (s.setBox n x).box m = if m = n then x else s.box m := by
  simp [State.box, State.setBox, Tab.get_set]
@[simp] theorem State.box_setBox_self (s : State) (n : Nat) (x : Box) : (s.setBox n x).box n = x := by simp [State.box_setBox]
theorem State.leaf_modLeaf (s : State) (n m : Nat) (f : Leaf → Leaf) : (s.modLeaf n f).leaf m = if m = n then f (s.leaf n) else s.leaf m := by
  simp [State.modLeaf, State.leaf_setLeaf]
@[simp] theorem State.leaf_modLeaf_self (s : State) (n : Nat) (f : Leaf → Leaf) : (s.modLeaf n f).leaf n = f (s.leaf n) := by simp [State.leaf_modLeaf]
theorem State.grp_modGrp (s : State) (n m : Nat) (f : Grp → Grp) : (s.modGrp n f).grp m = if m = n then f (s.grp n) else s.grp m := by
  simp [State.modGrp, State.grp_setGrp]
@[simp] theorem State.grp_modGrp_self (s : State) (n : Nat) (f : Grp → Grp) : (s.modGrp n f).grp n = f (s.grp n) := by simp [State.grp_modGrp]
theorem State.chan_modChan (s : State) (n m : Nat) (f : Chan → Chan) : (s.modChan n f).chan m = if m = n then f (s.chan n) else s.chan m := by
  simp [State.modChan, State.chan_setChan]
@[simp] theorem State.chan_modChan_self (s : State) (n : Nat) (f : Chan → Chan) : (s.modChan n f).chan n = f (s.chan n) := by simp [State.chan_modChan]
theorem State.eng_modEng (s : State) (n m : Nat) (f : Engine → Engine) : (s.modEng n f).eng m = if m = n then f (s.eng n) else s.eng m := by
  simp [State.modEng, State.eng_setEng]
@[simp] theorem State.eng_modEng_self (s : State) (n : Nat) (f : Engine → Engine) : (s.modEng n f).eng n = f (s.eng n) := by simp [State.eng_modEng]
theorem State.ring_modRing (s : State) (n m : Nat) (f : Ring → Ring) : (s.modRing n f).ring m = if m = n then f (s.ring n) else s.ring m := by
  simp [State.modRing, State.ring_setRing]
@[simp] theorem State.ring_modRing_self (s : State) (n : Nat) (f : Ring → Ring) : (s.modRing n f).ring n = f (s.ring n) := by simp [State.ring_modRing]

/-! ### Control -/

@[simp] theorem State.gate_true (s : State) (f : State → State) : s.gate true f = f s := rfl
@[simp] theorem State.gate_false (s : State) (f : State → State) : s.gate false f = s := rfl

/-- A property that `f` keeps is kept by a gated `f`. -/
theorem State.gate_ind {P : State → Prop} (s : State) (c : Bool) (f : State → State) (h : P s) (hf : c = true → P (f s)) : P (s.gate c f) := by
  cases c
  · exact h
  · exact hf rfl

/-- A property that each round keeps is kept by all of them. -/
theorem forAll_ind {α : Type} {P : State → Prop} (l : List α) (f : α → State → State) (s : State) (h : P s)
    (hf : ∀ k ∈ l, ∀ u, P u → P (f k u)) : P (forAll l f s) := by
  induction l generalizing s with
  | nil => exact h
  | cons a l ih =>
    exact ih (f a s) (hf a (by simp) s h) fun k hk u hu => hf k (by simp [hk]) u hu

theorem iter_ind {P : State → Prop} (n : Nat) (f : Nat → State → State) (s : State) (h : P s) (hf : ∀ k < n, ∀ u, P u → P (f k u)) :
    P (iter n f s) := by
  induction n with
  | zero => exact h
  | succ n ih => exact hf n (by omega) _ (ih fun k hk => hf k (by omega))

end Sys2Proof.Machine
end

