-- ==== Sys2Proof/Laws/Run.lean ====
section
/-! SUPPORT. Laws/Run.lean: what the end of a command does: it reports events, and it changes nothing that `Frame` names. -/

namespace Sys2Proof.Machine

/-! ## Frames -/

theorem Part.same_refl (p : Part) (s : State) : p.same s s := by cases p <;> simp [Part.same]

theorem Part.same_trans (p : Part) {s t u : State} (h : p.same s t) (h' : p.same t u) : p.same s u := by
  cases p <;> simp_all [Part.same]

theorem Frame.refl (s : State) (ps : List Part) (r : Nat → Bool) : Frame s s ps r := ⟨fun p _ => p.same_refl s, fun _ _ _ => rfl⟩

theorem Frame.trans {s t u : State} {ps : List Part} {r : Nat → Bool} (h : Frame s t ps r) (h' : Frame t u ps r) : Frame s u ps r :=
  ⟨fun p hp => p.same_trans (h.1 p hp) (h'.1 p hp), fun a ha he => (h'.2 a ha he).trans (h.2 a ha he)⟩

theorem Frame.mono {s t : State} {ps qs : List Part} {r q : Nat → Bool} (h : Frame s t ps r) (hp : ∀ p ∈ ps, p ∈ qs)
    (hr : ∀ a, q a = false → r a = false) : Frame s t qs q :=
  ⟨fun p h' => h.1 p fun hm => h' (hp p hm), fun a ha he => h.2 a (hr a ha) he⟩

/-- Event reporting: nothing that a frame names changes. -/
def Reported (s t : State) : Prop := Frame s t [] noWords

theorem Reported.refl (s : State) : Reported s s := Frame.refl s _ _

theorem Reported.trans {s t u : State} (h : Reported s t) (h' : Reported t u) : Reported s u := Frame.trans h h'

theorem Reported.of_parts {s t : State} (hp : ∀ p : Part, p.same s t) (hw : ∀ a, a ∉ eventWords → t.word a = s.word a) : Reported s t :=
  ⟨fun p _ => hp p, fun a _ he => hw a he⟩

theorem reported_send (s : State) (o : Out) : Reported s (s.send o) := by
  refine .of_parts (fun p => ?_) (fun a _ => ?_)
  · cases p <;> (unfold State.send; split <;> try split) <;> simp [Part.same, State.ring, State.leaf, State.grp, State.chan, State.eng, State.box]
  · unfold State.send; split <;> try split
    all_goals rfl

theorem reported_wr (s : State) (b : Nat) (f : Fld) (v : Nat) (h : b + f.off ∈ eventWords) : Reported s (s.wr b f v) := by
  refine .of_parts (fun p => ?_) (fun a ha => ?_)
  · cases p <;> simp [Part.same, State.ring, State.leaf, State.grp, State.chan, State.eng, State.box]
  · exact State.word_wr_ne _ _ _ _ _ fun e => ha (e ▸ h)

theorem reported_inc (s : State) (b : Nat) (f : Fld) (n : Nat) (h : b + f.off ∈ eventWords) : Reported s (s.inc b f n) :=
  reported_wr _ _ _ _ h

theorem reported_modRing (s : State) (r : Nat) (f : Ring → Ring)
    (hf : ∀ x, (f x).d = x.d ∧ (f x).stored = x.stored ∧ (f x).cqHead = x.cqHead) : Reported s (s.modRing r f) := by
  refine .of_parts (fun p => ?_) (fun a _ => ?_)
  · cases p <;> simp only [Part.same, State.modRing_variant, State.modRing_image, State.modRing_store, and_self, State.modRing_power,
      State.modRing_ref, State.modRing_pci, State.modRing_epoch, State.modRing_running, State.leaf, State.modRing_leaves, State.grp, State.modRing_groups,
      State.chan, State.modRing_chans, State.eng, State.modRing_engines, State.modRing_cmds, State.modRing_holds, State.box,
      State.modRing_boxes, State.modRing_reco, State.modRing_chain,
      State.modRing_cal, State.modRing_flt, State.modRing_therm, State.modRing_prot, State.modRing_kw, State.modRing_tap,
      State.modRing_trims, State.modRing_modRecs, State.modRing_msixEn, State.modRing_msixMask, State.modRing_linkLost,
      State.modRing_fetchNext, State.modRing_railOut, State.modRing_vinOut, State.modRing_freeCtr, State.modRing_bootQOn, State.modRing_pending]
    next q =>
    rw [State.ring_modRing]
    split
    · next e => subst e; exact hf _
    · exact ⟨rfl, rfl, rfl⟩
  · rfl

theorem pba_mem (v : Nat) (h : v < 64) : HIF + (pbaFld v).off ∈ eventWords := by
  have : v / 32 = 0 ∨ v / 32 = 1 := by omega
  rcases this with h | h <;> simp only [pbaFld, h] <;> decide

theorem reported_fire (s : State) (v : Nat) (h : v < 64) : Reported s (s.fire v) := by
  unfold State.fire
  split
  · exact .refl s
  · split
    · exact reported_wr _ _ _ _ (pba_mem v h)
    · exact reported_send _ _

theorem reported_gate (s : State) (c : Bool) (f : State → State) (h : Reported s (f s)) : Reported s (s.gate c f) :=
  State.gate_ind s c f (.refl s) fun _ => h

theorem Ring.vec_lt (x : Ring) : x.vec < 64 := getBits_lt _ _ _

theorem reported_signal (s : State) (r : Nat) (irq : Bool) : Reported s (s.signal r irq) := by
  unfold State.signal
  dsimp only
  split
  · refine Reported.trans (t := s.setRing r { s.ring r with unsig := 0 })
      (reported_modRing s r (fun x => { x with unsig := 0 }) fun _ => ⟨rfl, rfl, rfl⟩) ?_
    exact reported_gate _ _ _ (reported_fire _ _ (Ring.vec_lt _))
  · exact reported_modRing s r (fun x => { x with unsig := x.unsig + 1 }) fun _ => ⟨rfl, rfl, rfl⟩

theorem reported_vectorPin (s : State) (o : Occ) : Reported s (s.vectorPin o) := by
  unfold State.vectorPin
  dsimp only
  generalize hu : s.gate _ _ = u
  have h0 : Reported s u := hu ▸ reported_gate _ _ _ (reported_fire _ _ (Nat.mod_lt _ (by decide)))
  exact h0.trans (reported_gate _ _ _ (reported_inc _ _ _ _ (by decide)))

/-- Fields that no frame names do not matter. -/
theorem reported_quiet (s : State) (out held : List Out) (occ : List Occ) (active : List (Nat × Nat)) (q : List (Occ × Nat × Nat))
    (n : Nat) (l : Bool) :
    Reported s { s with out := out, held := held, occ := occ, active := active, bootQ := q, bootDropped := n, evLost := l } := by
  refine .of_parts (fun p => ?_) (fun a _ => rfl)
  cases p <;> simp [Part.same, State.ring, State.leaf, State.grp, State.chan, State.eng, State.box]

theorem reported_evRecordAt (s : State) (o : Occ) (ep sec : Nat) : Reported s (s.evRecordAt o ep sec) := by
  unfold State.evRecordAt
  dsimp only
  generalize hu : s.inc EVT R.EVT_SEQ = u
  have h0 : Reported s u := hu ▸ reported_inc s EVT R.EVT_SEQ 1 (by decide)
  refine h0.trans ?_
  split
  · exact (reported_inc u HIF R.HIF_EVLOST 1 (by decide)).trans (reported_quiet (u.inc HIF R.HIF_EVLOST) _ _ _ _ _ _ true)
  · generalize hv : u.send _ = v
    have h1 : Reported u v := hv ▸ reported_send _ _
    refine h1.trans ?_
    generalize hw : ({ v with evLost := false } : State) = w
    have h2 : Reported v w := hw ▸ reported_quiet v _ _ _ _ _ _ false
    refine h2.trans ?_
    generalize hx : w.wr (RB 16) R.HIF_RSTAT_CQTAIL _ = x
    have h3 : Reported w x := hx ▸ reported_wr _ _ _ _ (by decide)
    refine h3.trans ?_
    generalize hy : x.gate _ _ = y
    have h4 : Reported x y := hy ▸ reported_gate _ _ _ (reported_modRing _ 16 _ fun _ => ⟨rfl, rfl, rfl⟩)
    refine h4.trans ?_
    exact (reported_signal y 16 false).trans (reported_gate _ _ _ (reported_vectorPin _ _))

theorem reported_takeOcc (s : State) (o : Occ) : Reported s (s.takeOcc o) := by
  unfold State.takeOcc
  dsimp only
  refine Reported.trans ?_ (reported_vectorPin _ _)
  split
  · exact reported_evRecordAt _ _ _ _
  · split
    · split
      · exact reported_quiet _ _ _ _ _ _ _ _
      · exact (reported_inc s HIF R.HIF_EVLOST 1 (by decide)).trans (reported_quiet (s.inc HIF R.HIF_EVLOST) _ _ _ _ _ _ _)
    · exact .refl _

theorem reported_endCycle (s : State) : Reported s s.endCycle := by
  unfold State.endCycle
  dsimp only
  split
  · exact reported_quiet _ _ _ _ _ _ _ _
  · refine Reported.trans (t := forAll (sortOccs (s.occ ++ s.levelOccs)) (fun o s => s.takeOcc o) { s with occ := [] }) ?_ ?_
    · exact forAll_ind (P := Reported s) _ _ _ (reported_quiet _ _ _ _ _ _ _ _) fun o _ u hu => hu.trans (reported_takeOcc u o)
    · exact reported_quiet _ _ _ _ _ _ _ _

theorem reported_settle (s : State) : Reported s s.settle := by
  unfold State.settle
  refine forAll_ind (P := Reported s) _ _ _ (.refl s) fun c hc u hu => ?_
  have hd : c.phase = .done := by
    have := (List.mem_filter.mp hc).2
    simp only [Bool.and_eq_true, beq_iff_eq] at this
    exact this.1
  simp only
  split
  · refine hu.trans (.of_parts (fun p => ?_) fun _ _ => rfl)
    cases p <;> simp only [Part.same, State.ring, State.leaf, State.grp, State.chan, State.eng, State.box, and_self]
    rw [List.filter_filter]
    refine List.filter_congr fun x _ => ?_
    cases x.phase <;> simp
  · split
    · exact hu
    · exact hu.trans (reported_modRing _ _ _ fun _ => ⟨rfl, rfl, rfl⟩)

theorem reported_finish (u : State) : Reported u u.finish := (reported_settle u).trans (reported_endCycle _)


/-! ## The end of a cycle -/

/-- What `levels` reads is the same. -/
theorem levels_quiet (s : State) (out held : List Out) (occ : List Occ) (active : List (Nat × Nat)) :
    ({ s with out := out, held := held, occ := occ, active := active } : State).levels = s.levels := rfl

theorem settled_endCycle (s : State) : s.endCycle.Settled := by
  by_cases h : s.power.aon = true
  · have hp : s.endCycle.power = s.power := (reported_endCycle s).1 .power (by simp)
    refine ⟨?_, ?_⟩
    · simp [State.endCycle, h]
    · rw [hp, h]
      simp only [State.endCycle, h, Bool.not_true, Bool.false_eq_true, ↓reduceIte]
      rfl
  · have h : s.power.aon = false := by simpa using h
    simp [State.Settled, State.endCycle, h]

theorem settled_finish (u : State) : u.finish.Settled := settled_endCycle _

/-! ## A command -/

/-- The state that the effect `f` of a command leaves, before the end of its cycle. -/
def effect (s : State) (f : State → State) : State := { f s.fresh with pending := s.pending, variant := s.variant }

theorem run_eq (s : State) (f : State → State) : run s f = .next (effect s f).finish := rfl

/-- Everything a command can do: its effect, but for the queue and the variant, which stay, and the reporting of events, after
which the state is settled. -/
theorem run_next (s : State) (f : State → State) :
    ∃ t, run s f = .next t ∧ Reported (effect s f) t ∧ t.Settled ∧ t.pending = s.pending ∧ t.variant = s.variant := by
  have h := reported_finish (effect s f)
  exact ⟨_, rfl, h, settled_finish _, h.1 .queue (by simp), (h.1 .config (by simp)).1⟩

/-- A command completes with `P` when its effect gives a state from which reporting leads to `P`. -/
theorem next_run {s : State} {f : State → State} {P : State → Prop}
    (h : ∀ t, Reported (effect s f) t → t.Settled → P t) : Next (run s f) P := by
  obtain ⟨t, e, hr, hs, -⟩ := run_next s f
  exact ⟨t, e, h t hr hs⟩

theorem Reported.facts {s t : State} (h : Reported s t) (p : Part) : p.same s t := h.1 p (by simp)

/-- An effect that leaves the queue and the variant as they are. -/
theorem effect_eq {s u : State} {f : State → State} (e : f s.fresh = u) (hp : u.pending = s.pending) (hv : u.variant = s.variant) :
    effect s f = u := by
  subst e
  unfold effect
  rw [← hp, ← hv]

/-- A command whose effect on the state is `u`. -/
theorem next_upd {s u : State} {f : State → State} {P : State → Prop} (e : f s.fresh = u) (hp : u.pending = s.pending)
    (hv : u.variant = s.variant) (h : ∀ t, Reported u t → t.Settled → P t) : Next (run s f) P :=
  next_run (effect_eq e hp hv ▸ h)

/-- A frame before the events of the cycle are reported is a frame after it. -/
theorem Frame.reported {s u t : State} {ps : List Part} {rs : Nat → Bool} (hf : Frame s u ps rs) (h : Reported u t) : Frame s t ps rs :=
  hf.trans (h.mono (by simp) (fun _ _ => rfl))

/-- The frame of a command is that of its effect. -/
theorem next_frame {s : State} {f : State → State} {ps : List Part} {rs : Nat → Bool} {P : State → Prop}
    (hf : Frame s (effect s f) ps rs) (h : ∀ t, Reported (effect s f) t → t.Settled → P t) :
    Next (run s f) fun t => P t ∧ Frame s t ps rs :=
  next_run fun t hr hs => ⟨h t hr hs, hf.trans (hr.mono (by simp) (fun _ _ => rfl))⟩

/-- A register word that reporting does not touch. -/
theorem Reported.word {s t : State} (h : Reported s t) {a : Nat} (ha : a ∉ eventWords) : t.word a = s.word a := h.2 a rfl ha

theorem Reported.rd {s t : State} (h : Reported s t) {b : Nat} {f : Fld} (ha : b + f.off ∉ eventWords) : t.rd b f = s.rd b f := by
  simp [State.rd, h.word ha]

end Sys2Proof.Machine
end

