-- ==== Sys2Proof/Tests/Slice0.lean ====
section
/-! SUPPORT. Tests/Slice0.lean: the smoke test of WellFormed.lean, small runs against values worked out from the spec, and, for each
statement, states and operands that meet the hypotheses of each of its clauses. -/

namespace Sys2Proof.Machine

/-! ## States for tests -/

/-- The module in STANDBY with the link up, every domain of the module on and SYS leaf A serving. -/
def up : State :=
  ((State.reset.modPower fun p => { p with aon := true, host := true, clk := true, clkRoot := 0, bootPhase := 6, perst := false }).wr GLB
    R.GLB_MODE_CUR MODE_STANDBY).wr HIF R.HIF_LINK_UP 1
/-- The module in mode m, otherwise as `up`. -/
def inMode (m : Nat) : State := up.wr GLB R.GLB_MODE_CUR m
/-- RUN with group 0 on, both its leaves LOCKED, and one site enabled. -/
def running : State :=
  (((inMode MODE_RUN).modGrp 0 fun x => { x with on := true, siteMap := [3, 12, 0, 0], siteCfg := [1, 1, 1, 1] }).wr (LP 0)
    R.LP_LSTATE_STATE L_LOCKED).wr (LP 1) R.LP_LSTATE_STATE L_LOCKED
/-- Engine 0 of a running module about to issue the program word w. -/
def issuing (w : Word) : State := running.modEng 0 fun x => { x with on := true, st := E_RUN, prog := [(0, w)] }
def State.withCmds (s : State) (l : List Cmd) : State := { s with cmds := l }
def State.withHolds (s : State) (l : List Hold) : State := { s with holds := l }
def State.withTap (s : State) (x : TapSt) : State := { s with tap := x }
def State.withRun (s : State) (b : Bool) : State := { s with running := b }
def State.withLinkLost (s : State) (b : Bool) : State := { s with linkLost := b }
def State.withModRecs (s : State) (l : List (Nat × Nat × List Word)) : State := { s with modRecs := l }
def State.withKw (s : State) (l : List KwFrame) : State := { s with kw := { bufs := l } }
def State.withVariant (s : State) (v : Variant) : State := { s with variant := v }

end Sys2Proof.Machine

section
set_option Elab.async false

open Sys2Proof Sys2Proof.Machine

/-- The state after one command. -/
def after (c : Instr) (s : State) : State :=
  match exec c s with
  | .next t => t
  | _ => s

/-! ## The form of operands: a term that has it and one that has not, for each check -/

/-- A telemetry frame with every list empty. -/
def noFrame : Telemetry :=
  { vin := 0, pin := 0, vinOut := false, vinIn := false, volts := [], amps := [], bins := [], outs := [], ins := [], hold := false,
    energy := 0, bankNj := [], restNj := 0, held := [] }

/-- A telemetry frame with an entry for every rail and bank. -/
def frame0 : Telemetry :=
  { noFrame with volts := List.replicate 6 0, amps := List.replicate 6 0, bins := List.replicate 6 0,
                 outs := List.replicate 6 false, ins := List.replicate 6 true, bankNj := List.replicate 4 0 }

theorem test_wf_telemetry :
    (Instr.telemetryFrame frame0 false).wf = true ∧ (Instr.telemetryFrame noFrame false).wf = false
    ∧ (Instr.telemetryFrame { frame0 with held := [(0, [1])] } false).wf = false
    ∧ (Instr.telemetryFrame { frame0 with vinOut := true, vinIn := true } false).wf = false
    ∧ (Instr.telemetryFrame { frame0 with outs := List.replicate 6 true } false).wf = false := by decide
theorem test_wf_missing_edge :
    (Instr.missingEdge 0 0 (List.replicate 34 0)).wf = true ∧ (Instr.missingEdge 0 0 (List.replicate 33 0)).wf = false := by decide
theorem test_wf_monitor_gate :
    (Instr.monitorGateEnd 0 0 (List.replicate 34 0) 0 0 0).wf = true ∧ (Instr.monitorGateEnd 0 0 [] 0 0 0).wf = false := by decide
theorem test_wf_measure :
    (Instr.measureComplete 0 0 0 0 (List.replicate 34 0) 0).wf = true
    ∧ (Instr.measureComplete 0 0 0 0 (List.replicate 35 0) 0).wf = false := by decide
theorem test_wf_descriptor :
    (Instr.descriptorFetch (List.replicate 16 0)).wf = true ∧ (Instr.descriptorFetch (List.replicate 15 0)).wf = false := by decide
theorem test_wf_keyway_write :
    (Instr.keywayWriteFrame 0 0 (List.replicate 256 0) 0).wf = true
    ∧ (Instr.keywayWriteFrame 0 0 (List.replicate 257 0) 0).wf = false := by decide +kernel
theorem test_wf_evaluation :
    (Instr.hkEvaluation ⟨List.replicate 24 0, 0, 0, 0⟩ [] [] 0).wf = true
    ∧ (Instr.hkEvaluation ⟨List.replicate 23 0, 0, 0, 0⟩ [] [] 0).wf = false := by decide
theorem test_wf_register_write :
    (Instr.registerWrite .pcie 0x0C 0 0xF ⟨0, 0, 0, 0, false, 0, false⟩).wf = true
    ∧ (Instr.registerWrite .pcie 0x0E 0 0xF ⟨0, 0, 0, 0, false, 0, false⟩).wf = false := by decide
theorem test_wf_stall :
    (Instr.stallTimeout .pcie 0x20 true).wf = true ∧ (Instr.stallTimeout .pcie 0x21 true).wf = false := by decide
theorem test_wf_bypass : (Instr.bypass 0xFF).wf = true ∧ (Instr.bypass 0x10).wf = false := by decide

/-! ## Values that the spec works out -/

/-- No row of the opcode table has bits, so no word spells a command. -/
theorem test_no_word_spells_a_command : decodeTableWord 32 0x74000000 = none := by decide

/-- R228's encoding examples: LKI 0, FMAC.N g5, g2, g4 and CMPI.LT p1, g13, 5. -/
theorem test_encodings :
    opcodeOf 0x74000000 = 0x1D ∧ fieldD 0x74000000 = 0
    ∧ opcodeOf 0xAD492000 = 0x2B ∧ fieldD 0xAD492000 = 5 ∧ fieldA 0xAD492000 = 2 ∧ fieldB 0xAD492000 = 4 ∧ getBits 0xAD492000 13 1 = 1
    ∧ opcodeOf 0x355A0005 = 0x0D ∧ getBits 0x355A0005 24 2 = 1 ∧ getBits 0x355A0005 0 17 = 5 := by decide

/-- Chapter 20, worked example: decoding addresses. -/
theorem test_addresses :
    blkAt 0x1A6208 = some (.ch 166) ∧ reduceOff (.ch 166) 0x1A6208 = 0x208
    ∧ blkAt 0x019708 = some (.gs 9) ∧ reduceOff (.gs 9) 0x019708 = 0x308
    ∧ blkAt 0x025E40 = some (.out 5) ∧ reduceOff (.out 5) 0x025E40 = 0x640
    ∧ blkAt 0x88600C = some (.eng 289) ∧ reduceOff (.eng 289) 0x88600C = 0x200C
    ∧ blkAt 0x004FF8 = some .hk ∧ reduceOff .hk 0x004FF8 = 0x1F8 ∧ rowAt .hk 0x1F8 = none
    ∧ blkAt 0x0B2000 = none := by decide +kernel

/-- Chapter 03, worked examples: 8.292 GHz as 41 + 23/50 and as a binary fraction, legal at LBW 5 from 100 MHz doubled. -/
theorem test_ratios :
    ratioOfWords 0x17 0x32 0x20029 = { fmt := 2, n := 41, num := 23, den := 50 }
    ∧ ratioOfWords 0xC28F5C29 0x75 0x10029 = { fmt := 1, n := 41, num := 505775348777, den := 2 ^ 40 }
    ∧ fvcoOf 100000000 true 1 { fmt := 2, n := 41, num := 23, den := 50 } = (8292000000 * 50, 50)
    ∧ legal 100000000 true 1 5 { fmt := 2, n := 41, num := 23, den := 50 } = true := by decide +kernel

/-- Chapter 04, worked example: waypoint 57 after its capture. -/
theorem test_waypoint :
    wpOfWords [0x25, 0x22A82900, 0x065EB6CC, 0x5927C03A] =
      { fracLo := 37, n := 41, fmt := 2, band := 42, lbw := 2, tpre := 1740, icp := 11, ttag := 47, cache := true, cap := true,
        next := 58, dwell := 37500 * 2 ^ 5 } := by decide +kernel

/-- Chapter 05, worked example: J = −3,149,849 fs as the mailbox shows it. -/
theorem test_phase_jump_words :
    let s := after (.pjComplete 0) ((running.modLeaf 0 fun l => { l with jump := -3149849 }).setBox (GS 0 + R.GS_PJ_CTRL_GO.off)
      { busy := true })
    s.word (GS 0 + R.GS_PJ_Q0.off) = 0xFFCFEFE7 ∧ s.word (GS 0 + R.GS_PJ_Q1.off) = 0xFFFFFFFF := by decide +kernel

/-- Chapter 12, worked example: the write of waypoint 57 completes as software writes INDEX 100. -/
theorem test_index_meets_increment :
    let s0 := (running.modGrp 9 fun x => { x with on := true }).wr (RT 9) R.RT_INDEX 57
    let s1 := (((s0.setWord (RT 9 + R.RT_D0.off) 0x25).setWord (RT 9 + R.RT_D1.off) 0x20082900).setWord (RT 9 + R.RT_D2.off)
      0x07000000).setWord (RT 9 + R.RT_D3.off) 0x5927C03A
    let s := after (.rtMailboxComplete 9 (some (.pcie, 100))) (after (.wrWp .pcie 9 true) s1)
    s.rd (RT 9) R.RT_INDEX = 100 ∧ s.rd GLB R.GLB_LOSTUPD = 1 ∧ s.word (RT 9) = 0x29 ∧ (s.grp 9).wp 57 = wpOfWords [0x25, 0x20082900, 0x07000000, 0x5927C03A] := by
  decide +kernel

/-- Chapter 16, worked example, evaluation r + 1: TS09 jumps by 25 °C and its substitute is 122 °C. -/
theorem test_substitute :
    let s := after (.hkEvaluation ⟨(List.replicate 8 800) ++ [892, 736, 896] ++ List.replicate 7 800 ++ [872] ++ List.replicate 5 800, 800, 800, 0⟩ [] [] 0)
      (up.modTherm fun t => { t with sens := [(9, { prev := some 936 })] })
    s.readReg (HK + 0x10C) = 0x00297A70 ∧ s.readReg (HK + 0x140 + 4 * 9) = 0x007A52E0 ∧ s.readReg (HK + 0x108) = 0x27 := by
  decide +kernel

/-- Chapter 18, worked example: the second key opens SERVICE for 30 minutes. -/
theorem test_second_key :
    let s0 := ((up.wr PROT R.PROT_CTRL_LIVE 1).wr PROT R.PROT_CTRL_AOK 1).wr PROT R.PROT_CHAL 0x6B1F09D4
    let s := after (.keybWrite .keyway 0x6B1F09D4 0) (s0.modProt fun p => { p with kind := 2, arg := 30 })
    s.readReg PROT = 0x1E06 ∧ s.rd PROT R.PROT_CTRL_RESULT = 2 := by decide +kernel

/-- Chapter 15, worked example: the third occurrence within 10 s retires leaf A of group 5. -/
theorem test_third_occurrence :
    let s := (((running.modGrp 5 fun x => { x with on := true }).modLeaf 10 fun l => { l with on := true }).modFlt fun f =>
      { f with hist := [(538, [0, 3200])] }).leafFault 10 7 8900
    s.rd FLT R.FLT_LEAFRET = 0x400 ∧ s.word (FLT + R.FLT_LAST_UNIT.off) = 0x000D3A1A := by decide +kernel

/-- Chapter 14, worked example: CMP_H of CH166 is −52 with residuals of 0.9 mV and 1.1 mV out of 5 mV: CQ 22. -/
theorem test_rolling_item :
    let s := after (.calItemMeasured 171 5 0 true false false [(-52, 180000, 220000)])
      (up.modCal fun c => { c with run := true, items := 0x30, groups := 0x20, todo := [171], reached := [(171, 5)] })
    (Tab.get {} s.cal.work 171).cqAt 4 = 22 ∧ getBits (Tab.get 0 s.cal.fresh (CH 166 + 0x208)) 0 10 = 0x3CC := by decide +kernel

/-! ## One step each: values from the rules -/

/-- R36, R30: VIN rising through 4.3 V in OFF starts BOOT at B1. -/
theorem test_vin_rise : (after .vinRise State.reset).mode = MODE_BOOT ∧ (after .vinRise State.reset).power.bootPhase = 1 := by
  decide +kernel
/-- R45: a reference frequency outside 10 MHz to 500 MHz is refused. -/
theorem test_ref_hz :
    (after (.sysRefHzWrite .pcie 10000000) up).refHz = 10000000 ∧ (after (.sysRefHzWrite .pcie 9999999) up).refHz = 100000000 := by
  decide +kernel
/-- R25: TARGET 1 and 5 are ILLEGAL. -/
theorem test_illegal_target : (after (.modeReqIllegalTarget .pcie true) up).rd GLB R.GLB_MODE_RESULT = 1 := by decide +kernel
/-- R247, R248: a tail outside the queue changes nothing and counts in DBERR. -/
theorem test_tail_outside :
    let s := after (.sqTailDoorbell 0 64 true) ((up.wr (RB 0) R.HIF_RSTAT_STATE RS_ACTIVE).modRing 0 fun x =>
      { x with d := [0, 0, 0, 0, 6, 0, 0] })
    s.rd (RB 0) R.HIF_DBERR = 1 ∧ s.rd (RB 0) R.HIF_RNEXT_SQTAIL = 0 := by decide +kernel

/-- g3 after the instruction w on g1 = a and g2 = b. -/
def g3 (c : Instr) (w a b : Word) : Word :=
  Tab.get 0 ((after c ((issuing w).modEng 0 fun x => { x with g := [(1, a), (2, b)] })).eng 0).g 3

/-- R228: integer arithmetic wraps. -/
theorem test_add_wraps : g3 (.engAdd 0) 0x04C48000 0xFFFFFFFF 2 = 1 := by decide +kernel
theorem test_sub_wraps : g3 (.engSub 0) 0x08C48000 0 1 = 0xFFFFFFFF := by decide +kernel
theorem test_sra_keeps_the_sign : g3 (.engSra 0) 0x1CC40004 0x80000000 0 = 0xF8000000 := by decide +kernel
theorem test_lui : g3 (.engLui 0) 0x2CC3FFFF 0 0 = 0xFFFFC000 := by decide +kernel
/-- R228: binary32 arithmetic, its invalid operations and its flushing of subnormals. -/
theorem test_fadd : g3 (.engFadd 0) 0xA0C48000 0x3F800000 0x3F800000 = 0x40000000 ∧ g3 (.engFadd 0) 0xA0C48000 0x7F800000 0xFF800000 = 0x7FC00000 := by
  decide +kernel
theorem test_fmul_flushes : g3 (.engFmul 0) 0xA8C48000 0x00800000 0x3F000000 = 0 ∧ g3 (.engFmul 0) 0xA8C48000 0x00000001 0x7F800000 = 0x7FC00000 := by
  decide +kernel
theorem test_fdiv : g3 (.engFdiv 0) 0xB0C48000 0x3F800000 0x40400000 = 0x3EAAAAAB ∧ g3 (.engFdiv 0) 0xB0C48000 0 0 = 0x7FC00000 := by
  decide +kernel
theorem test_fsqrt : g3 (.engFsqrt 0) 0xB4C40000 0x40000000 0 = 0x3FB504F3 ∧ g3 (.engFsqrt 0) 0xB4C40000 0xBF800000 0 = 0x7FC00000 := by
  decide +kernel
theorem test_fint : g3 (.engFint 0) 0xC0C40000 0x40200000 0 = 2 ∧ g3 (.engFint 0) 0xC0C40000 0x7FC00000 0 = 0x80000000 := by
  decide +kernel
/-- R234, R235: opcode 0x32 is illegal: exception 1, with the PC of the instruction. -/
theorem test_illegal_opcode :
    let s := after (.engIllegalOpcode 0) (issuing 0xC8000000)
    (s.eng 0).st = E_EXC ∧ s.rd (ENG 0) R.ENG_EXCINFO_CODE = 1 ∧ s.rd (ENG 0) R.ENG_EXCCNT = 1 := by decide +kernel

/-! ## The hypotheses of the statements -/

/-- The hypotheses of Obligations.BootFromVinRiseToB3 can be met, clause by clause. -/
theorem witness_BootFromVinRiseToB3 :
    (let s : State := State.reset
     s.mode = MODE_OFF ∧ (s.power.latched = false ∨ s.power.lowSinceTrip = true))
    ∧ (let s : State := State.reset |>.modPower (fun p => { p with latched := true })
       s.mode = MODE_OFF ∧ s.power.latched = true ∧ s.power.lowSinceTrip = false)
    ∧ (let s : State := inMode 1 |>.modPower (fun p => { p with bootPhase := 1 })
       s.mode = MODE_BOOT ∧ s.power.bootStopped = false ∧ s.power.bootPhase = 1)
    ∧ (let s : State := inMode 1 |>.modPower (fun p => { p with bootPhase := 2 })
       s.mode = MODE_BOOT ∧ s.power.bootStopped = false ∧ s.power.bootPhase = 2)
    ∧ (let s : State := inMode 1 |>.modPower (fun p => { p with bootPhase := 3 })
       s.mode = MODE_BOOT ∧ s.power.bootStopped = false ∧ s.power.bootPhase = 3) := by
  refine ⟨?_, ?_, ?_, ?_, ?_⟩ <;> decide +kernel

/-- The hypotheses of Obligations.BootPhasesB4AndB5 can be met, clause by clause. -/
theorem witness_BootPhasesB4AndB5 :
    (let s : State := inMode 1 |>.modPower (fun p => { p with bootPhase := 4 })
     s.mode = MODE_BOOT ∧ s.power.bootStopped = false ∧ s.power.bootPhase = 4)
    ∧ (let s : State := inMode 1 |>.modPower (fun p => { p with bootPhase := 5 })
       s.mode = MODE_BOOT ∧ s.power.bootStopped = false ∧ s.power.bootPhase = 5 ∧ s.rd HK R.HK_PHASES_FAILED = 0 ∧
       (s.power.sysLocked = false ∨ s.sysServes s.sysAct = true ∧ s.sysAble s.sysIdle = true))
    ∧ (let s : State := inMode 1 |>.modPower (fun p => { p with bootPhase := 5 })
       s.mode = MODE_BOOT ∧ s.power.bootStopped = false ∧ s.power.bootPhase = 5 ∧ s.Quiet ∧ s.power.reqPending = false ∧
       s.rd HK R.HK_PHASES_FAILED = 0) := by
  refine ⟨?_, ?_, ?_⟩ <;> decide +kernel

/-- The hypotheses of Obligations.VinLossEntersSafe can be met, clause by clause. -/
theorem witness_VinLossEntersSafe :
    (let s : State := inMode 1
     s.power.vinLost = false ∧ s.is PROT R.PROT_CTRL_LIVE = false ∧ s.mode = MODE_BOOT)
    ∧ (let s : State := inMode 7
       s.power.vinLost = false ∧ s.is PROT R.PROT_CTRL_LIVE = false ∧ s.mode = MODE_SAFE ∧ s.power.sysExit = false ∧
       s.power.exitWait = false)
    ∧ (let s : State := up
       s.power.vinLost = false ∧ s.is PROT R.PROT_CTRL_LIVE = false ∧ 2 ≤ s.mode ∧ s.mode ≤ 6 ∧ s.Quiet ∧
       s.power.reqPending = false ∧ (∀ (g : Nat), g < s.variant.groups → s.is (GS g) R.GS_HOPCTL_GO = false))
    ∧ (let s : State := inMode 1 |>.modPower (fun p => { p with vinLost := true })
       s.power.vinLost = true ∧ s.mode = MODE_BOOT)
    ∧ (let s : State := inMode 7 |>.modPower (fun p => { p with vinLost := true }) |>.modPower (fun p => { p with clk := false })
       s.power.vinLost = true ∧ s.mode = MODE_SAFE ∧ s.Quiet ∧ s.power.clk = false) := by
  refine ⟨?_, ?_, ?_, ?_, ?_⟩ <;> decide +kernel

/-- The hypotheses of Obligations.HoldUpSequence can be met, clause by clause. -/
theorem witness_HoldUpSequence :
    (let s : State := inMode 7 |>.modPower (fun p => { p with vinLost := true }) |>.modPower (fun p => { p with holdStep := 1 })
     s.mode = MODE_SAFE ∧ s.power.vinLost = true ∧ s.Quiet ∧ s.power.holdStep = 1)
    ∧ (let s : State := inMode 7 |>.modPower (fun p => { p with vinLost := true }) |>.modPower (fun p => { p with holdStep := 2 })
       s.mode = MODE_SAFE ∧ s.power.vinLost = true ∧ s.Quiet ∧ s.power.holdStep = 2 ∧ s.power.downStep ≠ 2 ∧
       (∀ (r : Nat), r < 16 → (s.ring r).waiting = []))
    ∧ (let s : State := inMode 7 |>.modPower (fun p => { p with vinLost := true }) |>.modPower (fun p => { p with holdStep := 3 }) |>.modReco (fun r => { r with waiting := [{ seq := 9, typ := 1 }] })
       let d : RecData := (s.reco.waiting).headD {}
       s.mode = MODE_SAFE ∧ s.power.vinLost = true ∧ s.Quiet ∧ s.power.holdStep = 3 ∧ s.reco.recovering = false ∧
       s.reco.die.answers = true ∧ s.reco.waiting = [d] ∧ d.typ = 1)
    ∧ (let s : State := inMode 7 |>.modPower (fun p => { p with vinLost := true }) |>.modPower (fun p => { p with holdStep := 4 })
       s.mode = MODE_SAFE ∧ s.power.vinLost = true ∧ s.Quiet ∧ s.power.holdStep = 4 ∧ s.power.clk = true)
    ∧ (let s : State := State.reset |>.modPower (fun p => { p with vinLost := true }) |>.wr GLB R.GLB_MODE_CUR 1
       s.power.vinLost = true ∧ (s.mode = MODE_BOOT ∨ s.power.holdStep = 5))
    ∧ (let s : State := State.reset
       s.power.holdStep ≠ 1) := by
  refine ⟨?_, ?_, ?_, ?_, ?_, ?_⟩ <;> decide +kernel

/-- The hypotheses of Obligations.TripsPhasesAndTelemetry can be met, clause by clause. -/
theorem witness_TripsPhasesAndTelemetry :
    (let s : State := up
     s.mode ≠ MODE_OFF ∧ s.power.tripNotice = false ∧ s.is PROT R.PROT_CTRL_LIVE = false)
    ∧ (let s : State := up |>.wr PROT R.PROT_CTRL_LIVE 1
       s.mode ≠ MODE_OFF ∧ s.power.tripNotice = false ∧ s.is PROT R.PROT_CTRL_LIVE = true)
    ∧ (let s : State := State.reset |>.modPower (fun p => { p with tripNotice := true })
       s.power.tripNotice = true)
    ∧ (let s : State := up
       let m : Nat := setBit (s.rd HK R.HK_PHASES_FAILED) (0) true
       let n : Nat := (List.filter (fun i => bitOf m i) (List.range 16)).length
       s.power.aon = true ∧ bitOf (s.rd HK R.HK_PHASES_FAILED) 0 = false ∧ n < 3)
    ∧ (let s : State := up |>.wr HK R.HK_PHASES_FAILED 3
       let m : Nat := setBit (s.rd HK R.HK_PHASES_FAILED) (15) true
       let n : Nat := (List.filter (fun i => bitOf m i) (List.range 16)).length
       s.power.aon = true ∧ bitOf (s.rd HK R.HK_PHASES_FAILED) 15 = false ∧ n = 3 ∧ 2 ≤ s.mode ∧ s.mode ≤ 6 ∧ s.Quiet ∧
       s.power.reqPending = false ∧ (∀ (g : Nat), g < s.variant.groups → s.is (GS g) R.GS_HOPCTL_GO = false))
    ∧ (let s : State := up
       let m : Telemetry := { vin := 0xa030#16, pin := 0x4d#16, vinOut := true, vinIn := false, volts := [0x1#16, 0x2#16, 0x3#16, 0x4#16, 0x5#16, 0xa030#16], amps := [0x6#16, 0x5#16, 0x4#16, 0x3#16, 0x2#16, 0x1#16], bins := [0, 1, 2, 0, 0, 0], outs := [true, false, true, false, false, false], ins := [false, true, false, false, true, false], hold := true, energy := 0x1f4#16, bankNj := [0xa#32, 0x14#32, 0x1e#32, 0x28#32], restNj := 0x32#32, held := [] }
       let overrun : Bool := false
       s.power.aon = true ∧ (Instr.telemetryFrame m overrun).wf = true) := by
  refine ⟨?_, ?_, ?_, ?_, ?_, ?_⟩ <;> decide +kernel

/-- The hypotheses of Obligations.RequestsOfTheStandbyModes can be met, clause by clause. -/
theorem witness_RequestsOfTheStandbyModes :
    (let s : State := up
     let calv : Word := 0x0#32
     let ppm : Word := 0x0#32
     let c : Instr := Instr.modeReqStandby (Src.pcie)
     s.access .pcie = true ∧ s.is GLB R.GLB_MODE_REQ_GO = false ∧
     (s.mode = MODE_STANDBY ∧ c = Instr.modeReqStandby .pcie ∨ s.mode = MODE_CONFIGURE ∧ c = Instr.modeReqConfigure .pcie ∨ s.mode = MODE_ARMED ∧ c = Instr.modeReqArmed .pcie ∨ s.mode = MODE_CALIBRATE ∧ c = Instr.modeReqCalibrate .pcie calv ppm ∨ s.mode = MODE_SAFE ∧ c = Instr.modeReqSafe .pcie))
    ∧ (let s : State := up
       s.access .pcie = true ∧ s.is GLB R.GLB_MODE_REQ_GO = false ∧ s.Quiet ∧ s.ownedSites = 0 ∧ s.mode = MODE_STANDBY ∧
       s.extest = false ∧ s.power.clkRoot ≠ 2 ∧ (s.is GLB R.GLB_MODE_IMGDEF = false ∨ s.power.cfgWritten = true))
    ∧ (let s : State := up |>.wr GLB R.GLB_MODE_IMGDEF 1
       s.access .pcie = true ∧ s.is GLB R.GLB_MODE_REQ_GO = false ∧ s.Quiet ∧ s.ownedSites = 0 ∧ s.mode = MODE_STANDBY ∧
       (s.power.clkRoot = 2 ∨ s.extest = true ∨ s.is GLB R.GLB_MODE_IMGDEF = true ∧ s.power.cfgWritten = false))
    ∧ (let s : State := inMode 4
       s.access .pcie = true ∧ s.is GLB R.GLB_MODE_REQ_GO = false ∧ s.Quiet ∧ s.ownedSites = 0 ∧ s.mode = MODE_ARMED)
    ∧ (let s : State := inMode 3
       s.access .pcie = true ∧ s.is GLB R.GLB_MODE_REQ_GO = false ∧ s.Quiet ∧ s.ownedSites = 0 ∧
       (s.mode = MODE_CONFIGURE ∨ s.mode = MODE_ARMED))
    ∧ (let s : State := inMode 3 |>.wr (LP 32) R.LP_LSTATE_STATE 3
       s.access .pcie = true ∧ s.is GLB R.GLB_MODE_REQ_GO = false ∧ s.mode = MODE_CONFIGURE ∧
       (∀ (n : Nat), n ∈ s.requiredLeaves → (s.leaf n).staged = none) ∧
       (s.sysServes 32 = true ∨ s.sysServes 33 = true) ∧ s.armReady = true)
    ∧ (let s : State := inMode 3 |>.wr (LP 32) R.LP_LSTATE_STATE 3 |>.withCmds [{ op := 1, phase := .running, sites := 1, args := [BitVec.ofNat 32 (268435456 + 3), 5], rbuf := 0x1000, rlen := 256, groupsLeft := 2 }]
       s.access .pcie = true ∧ s.is GLB R.GLB_MODE_REQ_GO = false ∧ s.mode = MODE_CONFIGURE ∧
       (∀ (n : Nat), n ∈ s.requiredLeaves → (s.leaf n).staged = none) ∧
       (s.sysServes 32 = true ∨ s.sysServes 33 = true) ∧ s.armReady = false)
    ∧ (let s : State := inMode 3
       s.access .pcie = true ∧ s.is GLB R.GLB_MODE_REQ_GO = false ∧ s.mode = MODE_CONFIGURE ∧
       (∀ (n : Nat), n ∈ s.requiredLeaves → (s.leaf n).staged = none) ∧ s.sysServes 32 = false ∧ s.sysServes 33 = false)
    ∧ (let s : State := inMode 3 |>.modPower (fun p => { p with armWait := true })
       let c : Instr := Instr.modeArmedLocked
       s.power.armWait = true ∧ s.mode = MODE_CONFIGURE ∧ s.armReady = true ∧
       (c = Instr.modeArmedLocked ∨ c = Instr.modeArmedTimeout))
    ∧ (let s : State := inMode 3 |>.modPower (fun p => { p with armWait := true }) |>.withCmds [{ op := 1, phase := .running, sites := 1, args := [BitVec.ofNat 32 (268435456 + 3), 5], rbuf := 0x1000, rlen := 256, groupsLeft := 2 }]
       s.power.armWait = true ∧ s.mode = MODE_CONFIGURE ∧ s.armReady = false) := by
  refine ⟨?_, ?_, ?_, ?_, ?_, ?_, ?_, ?_, ?_, ?_⟩ <;> decide +kernel

/-- The hypotheses of Obligations.SafeOnRequestAndBack can be met, clause by clause. -/
theorem witness_SafeOnRequestAndBack :
    (let s : State := up
     s.access .pcie = true ∧ s.is GLB R.GLB_MODE_REQ_GO = false ∧ s.Quiet ∧ 2 ≤ s.mode ∧ s.mode ≤ 6 ∧
     (∀ (g : Nat), g < s.variant.groups → s.is (GS g) R.GS_HOPCTL_GO = false) ∧ s.reco.erase = none ∧
     s.reco.eraseQ = [])
    ∧ (let s : State := inMode 7
       s.access .keyway = true ∧ s.is GLB R.GLB_MODE_REQ_GO = false ∧ s.mode = MODE_SAFE ∧
       (.keyway = Src.keyway ∨ s.causePersists = true))
    ∧ (let s : State := inMode 7
       s.access .pcie = true ∧ s.is GLB R.GLB_MODE_REQ_GO = false ∧ s.mode = MODE_SAFE ∧ .pcie = Src.pcie ∧
       s.causePersists = false ∧ s.power.clk = true)
    ∧ (let s : State := inMode 7 |>.modPower (fun p => { p with clk := false })
       s.access .pcie = true ∧ s.is GLB R.GLB_MODE_REQ_GO = false ∧ s.mode = MODE_SAFE ∧ .pcie = Src.pcie ∧
       s.causePersists = false ∧ s.power.clk = false ∧ s.rd GLB R.GLB_MODE_SAFE_CAUSE ≠ SC_SYSLOST)
    ∧ (let s : State := State.reset |>.modPower (fun p => { p with sysExit := true })
       s.power.sysExit = true)
    ∧ (let s : State := up
       s.access .pcie = true ∧ s.is GLB R.GLB_MODE_REQ_GO = false ∧ s.Quiet ∧
       (s.mode = MODE_STANDBY ∨ s.mode = MODE_SAFE)) := by
  refine ⟨?_, ?_, ?_, ?_, ?_, ?_⟩ <;> decide +kernel

/-- The hypotheses of Obligations.CalibrateNeedsReferencesAndQuiet can be met, clause by clause. -/
theorem witness_CalibrateNeedsReferencesAndQuiet :
    (let s : State := inMode 4
     let calv : Word := 0x0#32
     let ppm : Word := 0x0#32
     let v : Bool := s.calvOk (BitVec.toNat calv)
     let r : Bool := !bitOf (s.rd CAL R.CAL_ITEMS_SETS) 10 || s.caltOk (toSigned 32 (BitVec.toNat ppm))
     s.access .pcie = true ∧ s.is GLB R.GLB_MODE_REQ_GO = false ∧ s.mode = MODE_ARMED ∧ (v = false ∨ r = false))
    ∧ (let s : State := inMode 4 |>.wr CAL R.CAL_VDECL 1000000
       let calv : Word := 0xf4240#32
       let ppm : Word := 0xf4240#32
       let v : Bool := s.calvOk (BitVec.toNat calv)
       let r : Bool := !bitOf (s.rd CAL R.CAL_ITEMS_SETS) 10 || s.caltOk (toSigned 32 (BitVec.toNat ppm))
       s.access .pcie = true ∧ s.is GLB R.GLB_MODE_REQ_GO = false ∧ s.mode = MODE_ARMED ∧ v = true ∧ r = true ∧
       (s.trafficLeft = true ∨ s.calReady = false))
    ∧ (let s : State := running |>.wr GLB R.GLB_MODE_CUR MODE_ARMED |>.wr CAL R.CAL_VDECL 5000000 |>.wr CAL R.CAL_CFG_GROUPS 1 |>.wr CAL R.CAL_ITEMS_SETS 1 |>.modRef (fun r => { r with qualified := true })
       let calv : Word := 5000000
       let ppm : Word := 0
       let v : Bool := s.calvOk (BitVec.toNat calv)
       let r : Bool := !bitOf (s.rd CAL R.CAL_ITEMS_SETS) 10 || s.caltOk (toSigned 32 (BitVec.toNat ppm))
       s.access .pcie = true ∧ s.is GLB R.GLB_MODE_REQ_GO = false ∧ s.mode = MODE_ARMED ∧ v = true ∧ r = true ∧
       s.trafficLeft = false ∧ s.calReady = true) := by
  refine ⟨?_, ?_, ?_⟩ <;> decide +kernel

/-- The hypotheses of Obligations.RatioMailbox can be met, clause by clause. -/
theorem witness_RatioMailbox :
    (let s : State := up
     let r : Ratio := s.rmbOperand 32
     let res : Nat := firstOf [(!s.legalFor (32) r none, 1), (decide (32 ≤ 32) || s.phaseHeld (32 / 2), 6), (s.cmdOn (32 / 2), 4)]
     s.Takes .pcie (LP 32) R.LP_RMB_CTRL_GO ∧ res ≠ 0)
    ∧ (let s : State := running |>.wr (LP 0) R.LP_LCFG_REFDIV 1 |>.wr (LP 0) R.LP_RMB_D2 100
       let r : Ratio := s.rmbOperand 0
       let res : Nat := firstOf [(!s.legalFor (0) r none, 1), (decide (32 ≤ 0) || s.phaseHeld (0 / 2), 6), (s.cmdOn (0 / 2), 4)]
       s.Takes .pcie (LP 0) R.LP_RMB_CTRL_GO ∧ res = 0)
    ∧ (let s : State := State.reset |>.setBox (LP 0 + R.LP_RMB_CTRL_GO.off) { busy := true, q := [1, 2, 3] }
       let x : Box := { busy := true, result := 0, q := [0x1#32, 0x2#32, 0x3#32], op := 0, aux := 0 }
       s.box (LP 0 + R.LP_RMB_CTRL_GO.off) = x ∧ x.busy = true ∧ x.q.length = 3) := by
  refine ⟨?_, ?_, ?_⟩ <;> decide +kernel

/-- The hypotheses of Obligations.SmallStepsAndBoost can be met, clause by clause. -/
theorem witness_SmallStepsAndBoost :
    (let s : State := State.reset |>.wr (LP 0) R.LP_LSTAT_SLEWING 1
     s.is (LP 0) R.LP_LSTAT_SLEWING = true)
    ∧ (let s : State := State.reset
       s.is (LP 0) R.LP_LSTAT_SLEWING = false)
    ∧ (let s : State := State.reset |>.modLeaf 0 (fun l => { l with boostSteps := 5 })
       (s.leaf 0).boostSteps = 5)
    ∧ (let s : State := State.reset |>.modLeaf 0 (fun l => { l with boostSteps := 1 })
       (s.leaf 0).boostSteps = 1 ∧ 1 ∈ [1, 2, 3, 4]) := by
  refine ⟨?_, ?_, ?_, ?_⟩ <;> decide +kernel

/-- The hypotheses of Obligations.BandSearchAndCachedHop can be met, clause by clause. -/
theorem witness_BandSearchAndCachedHop :
    (let s : State := State.reset |>.wr (LP 0) R.LP_LSTATE_STATE 1 |>.modLeaf 0 (fun l => { l with window := 1 })
     s.lst 0 = L_SEARCH ∧ (s.leaf 0).window = 1 ∧ 1 ≤ 1 ∧ 1 ≤ 5)
    ∧ (let s : State := State.reset |>.wr (LP 0) R.LP_LSTATE_STATE 1 |>.modLeaf 0 (fun l => { l with window := 8 })
       s.lst 0 = L_SEARCH ∧ (s.leaf 0).window = 8 ∧ 8 = 8)
    ∧ (let s : State := up |>.wr (LP 0) R.LP_LSTATE_STATE L_ACQUIRE |>.wr (LP 0) R.LP_HDAC_ENG 1
       s.cachedHold 0 = true ∧ (s.leaf 0).kind ≠ LockKind.fromOff)
    ∧ (let s : State := State.reset |>.wr (LP 0) R.LP_LSTATE_STATE 2
       let reached : Bool := true
       let vt : BitVec 16 := 0x84c0#16
       s.lst 0 = L_ACQUIRE ∧ (s.leaf 0).searched = false ∧ (reached = true ∧ 12000 ≤ vt.toNat ∧ vt.toNat ≤ 60000))
    ∧ (let s : State := State.reset |>.wr (LP 0) R.LP_LSTATE_STATE 2
       let reached : Bool := false
       let vt : BitVec 16 := 0x5#16
       s.lst 0 = L_ACQUIRE ∧ (s.leaf 0).searched = false ∧ (¬(reached = true ∧ 12000 ≤ vt.toNat ∧ vt.toNat ≤ 60000))) := by
  refine ⟨?_, ?_, ?_, ?_, ?_⟩ <;> decide +kernel

/-- The hypotheses of Obligations.ReferenceFrequencyIsBolted can be met, clause by clause. -/
theorem witness_ReferenceFrequencyIsBolted :
    (let s : State := inMode 1
     let v : Word := 0x5f5e100#32
     s.access .pcie = true ∧ BitVec.toNat v = s.refHz ∧ s.mode ≠ MODE_STANDBY ∧ s.mode ≠ MODE_SAFE)
    ∧ (let s : State := up
       let v : Word := 0x5f5e100#32
       s.access .pcie = true ∧ BitVec.toNat v = s.refHz ∧ (s.mode = MODE_STANDBY ∨ s.mode = MODE_SAFE))
    ∧ (let s : State := up
       let v : Word := 0x0#32
       s.access .pcie = true ∧ BitVec.toNat v ≠ s.refHz ∧
       (s.mode ≠ MODE_STANDBY ∧ s.mode ≠ MODE_SAFE ∨ BitVec.toNat v < 10000000 ∨ 500000000 < BitVec.toNat v))
    ∧ (let s : State := inMode MODE_SAFE
       let v : Word := 10000000
       s.access .pcie = true ∧ BitVec.toNat v ≠ s.refHz ∧ 10000000 ≤ BitVec.toNat v ∧ BitVec.toNat v ≤ 500000000 ∧
       s.mode = MODE_SAFE)
    ∧ (let s : State := up
       let v : Word := 500000000
       s.access .pcie = true ∧ BitVec.toNat v ≠ s.refHz ∧ 10000000 ≤ BitVec.toNat v ∧ BitVec.toNat v ≤ 500000000 ∧
       s.mode = MODE_STANDBY ∧ s.sysAble s.sysIdle = true) := by
  refine ⟨?_, ?_, ?_, ?_, ?_⟩ <;> decide +kernel

/-- The hypotheses of Obligations.RegisterWriteByAccessCode can be met, clause by clause. -/
theorem witness_RegisterWriteByAccessCode :
    (let s : State := State.reset
     let a : BitVec 24 := 0x5000#24
     let at_ : Nat := a.toNat / 4 * 4
     (blkAt at_ = none ∨ s.access .pcie = false))
    ∧ (let s : State := up
       let a : BitVec 24 := 0x5000#24
       let be : BitVec 4 := 0x3#4
       let at_ : Nat := a.toNat / 4 * 4
       let b : Blk := Blk.recd
       blkAt at_ = some b ∧ s.access .pcie = true ∧ b ∈ moduleBlks ∧ b ≠ Blk.cal ∧ b ≠ Blk.msc ∧
       s.absentReg b (reduceOff b at_) = false ∧ be ≠ 15)
    ∧ (let s : State := up |>.wr HIF R.HIF_RSET_CTRL_GO 1
       let a : BitVec 24 := 0x2010#24
       let v : Word := 0x0#32
       let be : BitVec 4 := 0xf#4
       let m : Meas := { w0 := 0x0#32, w1 := 0x0#32, w2 := 0x0#32, vt := 0x0#16, flag := false, ms := 5 }
       let at_ : Nat := a.toNat / 4 * 4
       let b : Blk := Blk.hif
       let o : Nat := reduceOff b at_
       let w : Word := s.word (b.base + o)
       let r : RegRow := { off := 16, count := 1, stride := 4, rw := 255, go := 256, cn := 0, sh := 0, shp := 0, bolt := 0, img := 0, slot := 0, tmb := 0, rst := 0 }
       blkAt at_ = some b ∧ s.access .keyway = true ∧ b ∈ moduleBlks ∧ b ≠ Blk.cal ∧ b ≠ Blk.msc ∧
       s.absentReg b (reduceOff b at_) = false ∧ be = 15 ∧ busOwn .keyway b o v m s = none ∧ rowAt b o = some r ∧
       r.go ≠ 0 ∧ w &&& BitVec.ofNat 32 r.go ≠ 0 ∧
       (v &&& BitVec.ofNat 32 r.go = 0 ∨ v &&& BitVec.ofNat 32 r.go &&& w ≠ 0))
    ∧ (let s : State := up
       let a : BitVec 24 := 0x5000#24
       let v : Word := 0x0#32
       let be : BitVec 4 := 0xf#4
       let m : Meas := { w0 := 0x0#32, w1 := 0x0#32, w2 := 0x0#32, vt := 0x0#16, flag := false, ms := 5, met := false }
       let at_ : Nat := a.toNat / 4 * 4
       let b : Blk := Blk.recd
       let o : Nat := reduceOff b at_
       let r : RegRow := { off := 0, count := 1, stride := 4, rw := 2047, go := 0, cn := 0, sh := 0, shp := 0, bolt := 0, img := 2047, slot := 0, tmb := 0, rst := 60 }
       blkAt at_ = some b ∧ s.access .pcie = true ∧ b ∈ moduleBlks ∧ b ≠ Blk.cal ∧ b ≠ Blk.msc ∧
       s.absentReg b (reduceOff b at_) = false ∧ be = 15 ∧ busOwn .pcie b o v m s = none ∧ rowAt b o = some r ∧
       r.go = 0 ∧ r.shp = 0 ∧ b ≠ Blk.glb ∧ b ≠ Blk.prot ∧ ¬b.base + o ∈ eventWords)
    ∧ (let s : State := up
       s.access .pcie = true ∧ s.is GLB R.GLB_MODE_REQ_GO = false)
    ∧ (let s : State := up
       s.access .pcie = true ∧ s.is PROT R.PROT_CTRL_ARM = false ∧ s.is PROT R.PROT_CTRL_ABORT = false)
    ∧ (let s : State := up
       s.access .pcie = true ∧ s.is HIF R.HIF_RSET_CTRL_GO = false) := by
  refine ⟨?_, ?_, ?_, ?_, ?_, ?_, ?_⟩ <;> decide +kernel

/-- The hypotheses of Obligations.StallTimeoutDiscards can be met. -/
theorem witness_StallTimeoutDiscards :
    let s : State := up
    s.access .pcie = true := by
  decide +kernel

/-- The hypotheses of Obligations.KeywayFrames can be met, clause by clause. -/
theorem witness_KeywayFrames :
    (let s : State := up
     let hdr : BitVec 64 := 0x200000100700e1ec#64
     let edges : BitVec 16 := 0x70#16
     let ws : List Word := []
     let crc : BitVec 16 := 0x84c0#16
     let h : KwHeader := kwHeader hdr
     let l : Nat := s.kwLen
     s.kwOpen = true ∧ (Instr.keywayWriteFrame hdr edges ws crc).wf = true ∧ 64 ≤ edges.toNat ∧ h.fails = 0 ∧
     h.op = 2 ∧ edges.toNat = 80 + l ∧ crcBits 65535 ws l = crc.toNat ∧ s.kw.bufs.length < 2 ∧ s.kwReady h.base = true)
    ∧ (let s : State := up
       let hdr : BitVec 64 := 0x200000100700e1ec#64
       let edges : BitVec 16 := 0x6f#16
       let ws : List Word := []
       let crc : BitVec 16 := 0x5#16
       let h : KwHeader := kwHeader hdr
       let l : Nat := s.kwLen
       s.kwOpen = true ∧ (Instr.keywayWriteFrame hdr edges ws crc).wf = true ∧ 64 ≤ edges.toNat ∧ h.fails = 0 ∧
       h.op = 2 ∧
       (edges.toNat < 80 + l ∧ 1 = 1 ∨ 80 + l < edges.toNat ∧ 1 = 2 ∨ edges.toNat = 80 + l ∧ crcBits 65535 ws l ≠ crc.toNat ∧ 1 = 3))
    ∧ (let s : State := up
       let hdr : BitVec 64 := 0x200000100700e1ec#64
       let edges : BitVec 16 := 0x5#16
       let ws : List Word := []
       let crc : BitVec 16 := 0x5#16
       s.kwOpen = true ∧ (Instr.keywayWriteFrame hdr edges ws crc).wf = true ∧ edges.toNat < 64)
    ∧ (let s : State := up
       let hdr : BitVec 64 := 0x1100a0600300757a#64
       let edges : BitVec 16 := 0x70#16
       let strobes : BitVec 16 := 0x70#16
       s.kwOpen = true ∧ 64 ≤ edges.toNat ∧ (kwHeader hdr).fails = 0 ∧ s.kwReadable (kwHeader hdr) = true ∧
       s.kwLen + 32 ≤ strobes.toNat)
    ∧ (let s : State := up
       let hdr : BitVec 64 := 0x1100a0600300757a#64
       let k : BitVec 9 := 0x0#9
       s.kwOpen = true ∧ (kwHeader hdr).fails = 0 ∧ (kwHeader hdr).op = 1 ∧ k.toNat < kwWords s.kwLen)
    ∧ (let s : State := up |>.withKw [{ base := 0x9000, off := 0x64, inc := true, words := [7, 9] }]
       let w : Word := 0x7#32
       s.kwNext = some (36964, w, true) ∧ 36964 < 2 ^ 24 ∧ 36964 = EVT + R.EVT_PSEEN.off ∧ s.access Src.keyway = true) := by
  refine ⟨?_, ?_, ?_, ?_, ?_, ?_⟩ <;> decide +kernel

/-- The hypotheses of Obligations.RouteMailboxReads can be met, clause by clause. -/
theorem witness_RouteMailboxReads :
    (let s : State := running
     s.Takes .pcie (RT 0) R.RT_CTRL_GO ∧ (s.grp 0).on = true)
    ∧ (let s : State := up
       let g : Fin 16 := 0
       let inc : Bool := false
       let c : Instr := Instr.rdWp (Src.pcie) 0 false
       s.Takes .pcie (RT 0) R.RT_CTRL_GO ∧ (s.grp 0).on = false ∧
       (c, 0) ∈ [(Instr.rdWp .pcie g inc, 0), (Instr.wrWp .pcie g inc, 1), (Instr.rdRat .pcie g inc, 2), (Instr.wrRat .pcie g inc, 3), (Instr.rdCb .pcie g inc, 4), (Instr.wrCb .pcie g inc, 5), (Instr.rtClr .pcie g inc, 6), (Instr.rtReservedOp .pcie g inc, 7)]) := by
  refine ⟨?_, ?_⟩ <;> decide +kernel

/-- The hypotheses of Obligations.RouteMailboxWrites can be met, clause by clause. -/
theorem witness_RouteMailboxWrites :
    (let s : State := running |>.setWord (RT 0 + R.RT_D1.off) (BitVec.ofNat 32 (100 * 2 ^ 8 + 9 * 2 ^ 28)) |>.setWord (RT 0 + R.RT_D2.off) (BitVec.ofNat 32 (0x80 * 2 ^ 17)) |>.setWord (RT 0 + R.RT_D3.off) (BitVec.ofNat 32 (200 * 2 ^ 12))
     let d : Nat → Word := fun k => s.word (RT 0 + R.RT_D0.off + 4 * k)
     let res : Nat := s.wrWpResult 0 [d 0, d 1, d 2, d 3]
     s.Takes .pcie (RT 0) R.RT_CTRL_GO ∧ (s.grp 0).on = true ∧ res = 0)
    ∧ (let s : State := running
       let d : Nat → Word := fun k => s.word (RT 0 + R.RT_D0.off + 4 * k)
       let res : Nat := s.wrWpResult 0 [d 0, d 1, d 2, d 3]
       s.Takes .pcie (RT 0) R.RT_CTRL_GO ∧ (s.grp 0).on = true ∧ res ≠ 0)
    ∧ (let s : State := running
       s.Takes .pcie (RT 0) R.RT_CTRL_GO ∧ (s.grp 0).on = true ∧ s.rtBusy 0 = false)
    ∧ (let s : State := running |>.wr (GS 0) R.GS_RSTAT_HOPPING 1
       s.Takes .pcie (RT 0) R.RT_CTRL_GO ∧ (s.grp 0).on = true ∧ s.rtBusy 0 = true)
    ∧ (([0, 0, 0, 0] : List Word).length = 4 ∧ (4095 : Nat) ≠ 0) := by
  refine ⟨?_, ?_, ?_, ?_, ?_⟩ <;> decide +kernel

/-- The hypotheses of Obligations.RouteMailboxCompletion can be met. -/
theorem witness_RouteMailboxCompletion :
    let s : State := State.reset |>.setBox (RT 0 + R.RT_CTRL_GO.off) { busy := true, q := [] }
    let x : Box := { busy := true, result := 0, q := [], op := 0, aux := 0 }
    s.box (RT 0 + R.RT_CTRL_GO.off) = x ∧ x.busy = true ∧ x.q.length ≤ 4 := by
  decide +kernel

/-- The hypotheses of Obligations.RoutesOnTheRegisterPath can be met, clause by clause. -/
theorem witness_RoutesOnTheRegisterPath :
    (let s : State := running |>.modGrp 0 (fun x => { x with route := some { byReg := true } })
     s.Takes .pcie (GS 0) R.GS_RCTL_GO ∧ 2 = firstOf [(s.phaseHeld 0, 4), (s.cmdOn 0 || s.routeOn 0, 2)] ∧ 2 ≠ 0)
    ∧ (let s : State := running
       s.Takes .pcie (GS 0) R.GS_RCTL_GO ∧ 0 = firstOf [(s.phaseHeld 0, 4), (s.cmdOn 0 || s.routeOn 0, 2)] ∧ 0 = 0 ∧
       s.pingPong 0 = false)
    ∧ (let s : State := running
       let g : Fin 16 := 0
       let start : BitVec 12 := 0x0#12
       let c : Instr := Instr.rctlNext (Src.pcie) 0 0x0#12
       s.Takes .pcie (GS 0) R.GS_RCTL_GO ∧ 3 = firstOf [(s.phaseHeld 0, 4), (s.cmdOn 0, 2), (!s.regRoute 0, 3)] ∧
       3 ≠ 0 ∧ (c = Instr.rctlNext .pcie g start ∨ c = Instr.rctlStop .pcie g start))
    ∧ (let s : State := running |>.modGrp 0 (fun x => { x with route := some { byReg := true, begun := true } }) |>.modGrp 0 (fun x => x.setWp 0 [0, BitVec.ofNat 32 (100 * 2 ^ 8 + 9 * 2 ^ 28), BitVec.ofNat 32 (0x80 * 2 ^ 17 + 3 * 2 ^ 27), BitVec.ofNat 32 (200 * 2 ^ 12 + 1)])
       let r : Route := ((s.grp 0).route).getD {}
       let w : Wp := (s.grp 0).wp (s.rd (GS 0) R.GS_RSTAT_CUR)
       s.Takes .pcie (GS 0) R.GS_RCTL_GO ∧ 0 = firstOf [(s.phaseHeld 0, 4), (s.cmdOn 0, 2), (!s.regRoute 0, 3)] ∧
       0 = 0 ∧ (s.grp 0).route = some r ∧ r.begun = true ∧ r.trigHeld = false ∧ r.due = false ∧ w.adv = 3 ∧
       r.dwellDone = false)
    ∧ (let s : State := running |>.modGrp 0 (fun x => { x with route := some { byReg := true } })
       let r : Route := ((s.grp 0).route).getD {}
       let w : Wp := (s.grp 0).wp (s.rd (GS 0) R.GS_RSTAT_CUR)
       s.Takes .pcie (GS 0) R.GS_RCTL_GO ∧ 0 = firstOf [(s.phaseHeld 0, 4), (s.cmdOn 0, 2), (!s.regRoute 0, 3)] ∧
       0 = 0 ∧ (s.grp 0).route = some r ∧ w.adv ≠ 3)
    ∧ (let s : State := running |>.modGrp 0 (fun x => { x with route := some { byReg := true } })
       let r : Route := ((s.grp 0).route).getD {}
       s.Takes .pcie (GS 0) R.GS_RCTL_GO ∧ 0 = firstOf [(s.phaseHeld 0, 4), (s.cmdOn 0, 2), (!s.regRoute 0, 3)] ∧
       0 = 0 ∧ (s.grp 0).route = some r ∧ s.pingPong 0 = false) := by
  refine ⟨?_, ?_, ?_, ?_, ?_, ?_⟩ <;> decide +kernel

/-- The hypotheses of Obligations.DwellsAndTriggers can be met, clause by clause. -/
theorem witness_DwellsAndTriggers :
    (let s : State := State.reset
     (s.grp 0).route = none)
    ∧ (let s : State := State.reset |>.modGrp 0 (fun x => { x with route := some { byReg := true, begun := true } })
       let r : Route := ((s.grp 0).route).getD {}
       let w : Wp := (s.grp 0).wp (s.rd (GS 0) R.GS_RSTAT_CUR)
       (s.grp 0).route = some r ∧ r.begun = true ∧ r.dwellDone = false ∧ r.due = false ∧ w.adv = 0 ∧ w.last = false ∧
       (r.hoplim = 0 ∨ r.hops < r.hoplim))
    ∧ (let s : State := State.reset |>.modGrp 0 (fun x => { x with route := some { byReg := true, begun := true } }) |>.modGrp 0 (fun x => x.setWp 0 [0, BitVec.ofNat 32 (100 * 2 ^ 8 + 9 * 2 ^ 28), BitVec.ofNat 32 (0x80 * 2 ^ 17 + 2 ^ 27), BitVec.ofNat 32 (200 * 2 ^ 12 + 1)])
       let r : Route := ((s.grp 0).route).getD {}
       let w : Wp := (s.grp 0).wp (s.rd (GS 0) R.GS_RSTAT_CUR)
       (s.grp 0).route = some r ∧ r.begun = true ∧ r.dwellDone = false ∧ r.due = false ∧ w.adv ≠ 0 ∧
       (w.adv = 4 ∨ r.trigHeld = false))
    ∧ (let s : State := State.reset |>.modGrp 0 (fun x => { x with route := some { byReg := true, begun := true } }) |>.modGrp 0 (fun x => x.setWp 0 [0, BitVec.ofNat 32 (100 * 2 ^ 8 + 9 * 2 ^ 28), BitVec.ofNat 32 (0x80 * 2 ^ 17 + 2 ^ 30), BitVec.ofNat 32 (200 * 2 ^ 12 + 1)])
       let r : Route := ((s.grp 0).route).getD {}
       let w : Wp := (s.grp 0).wp (s.rd (GS 0) R.GS_RSTAT_CUR)
       (s.grp 0).route = some r ∧ r.begun = true ∧ r.dwellDone = false ∧ r.due = false ∧ w.adv = 0 ∧ w.last = true ∧
       r.byReg = true ∧ s.pingPong 0 = false)
    ∧ (let s : State := State.reset |>.modGrp 0 (fun x => { x with route := some { byReg := true, begun := true } })
       let r : Route := ((s.grp 0).route).getD {}
       let w : Wp := (s.grp 0).wp (s.rd (GS 0) R.GS_RSTAT_CUR)
       let j : Bool := false
       (s.grp 0).route = some r ∧ r.begun = true ∧ (j = false ∨ r.trigHeld = true ∨ r.due = true ∨ w.adv ≠ 0 + 1))
    ∧ (let s : State := State.reset |>.modGrp 0 (fun x => { x with route := some { byReg := true, begun := true } }) |>.modGrp 0 (fun x => x.setWp 0 [0, BitVec.ofNat 32 (100 * 2 ^ 8 + 9 * 2 ^ 28), BitVec.ofNat 32 (0x80 * 2 ^ 17 + 2 ^ 27), BitVec.ofNat 32 (200 * 2 ^ 12 + 1)])
       let r : Route := ((s.grp 0).route).getD {}
       let w : Wp := (s.grp 0).wp (s.rd (GS 0) R.GS_RSTAT_CUR)
       (s.grp 0).route = some r ∧ r.begun = true ∧ r.trigHeld = false ∧ r.due = false ∧ w.adv = 0 + 1 ∧
       r.dwellDone = false)
    ∧ (let s : State := State.reset |>.modGrp 0 (fun x => x.setWp 0 [0, BitVec.ofNat 32 (100 * 2 ^ 8 + 9 * 2 ^ 28), BitVec.ofNat 32 (0x80 * 2 ^ 17 + 2 ^ 27), BitVec.ofNat 32 (200 * 2 ^ 12 + 1)]) |>.modGrp 0 (fun x => { x with route := some { byReg := true, begun := true, dwellDone := true } })
       let r : Route := ((s.grp 0).route).getD {}
       let w : Wp := (s.grp 0).wp (s.rd (GS 0) R.GS_RSTAT_CUR)
       (s.grp 0).route = some r ∧ r.begun = true ∧ r.trigHeld = false ∧ r.due = false ∧ w.adv = 0 + 1 ∧
       r.dwellDone = true ∧ s.hopping 0 = false ∧ w.last = false ∧ (r.hoplim = 0 ∨ r.hops < r.hoplim)) := by
  refine ⟨?_, ?_, ?_, ?_, ?_, ?_, ?_⟩ <;> decide +kernel

/-- The hypotheses of Obligations.SingleHopsAndHops can be met, clause by clause. -/
theorem witness_SingleHopsAndHops :
    (let s : State := running
     let i : BitVec 12 := 0x0#12
     let staged : Bool := false
     s.Takes .pcie (GS 0) R.GS_HOPCTL_GO ∧
     1 = firstOf [(s.hopIllegal (0) (s.actLeaf 0) i.toNat staged, 1), (s.phaseHeld 0, 4), (s.cmdOn 0 || s.routeOn 0 || (s.grp 0).hop.isSome || (s.grp 0).swing.isSome, 2), (s.noLeaf 0, 5)] ∧
     1 ≠ 0)
    ∧ (let s : State := running |>.modGrp 0 (fun x => x.setWp 0 [0, BitVec.ofNat 32 (100 * 2 ^ 8 + 9 * 2 ^ 28), BitVec.ofNat 32 (0x80 * 2 ^ 17 + 0), BitVec.ofNat 32 (200 * 2 ^ 12 + 1)])
       let i : BitVec 12 := 0x0#12
       let staged : Bool := false
       s.Takes .pcie (GS 0) R.GS_HOPCTL_GO ∧
       0 = firstOf [(s.hopIllegal (0) (s.actLeaf 0) i.toNat staged, 1), (s.phaseHeld 0, 4), (s.cmdOn 0 || s.routeOn 0 || (s.grp 0).hop.isSome || (s.grp 0).swing.isSome, 2), (s.noLeaf 0, 5)] ∧
       0 = 0)
    ∧ (let s : State := State.reset |>.modGrp 0 (fun x => { x with hop := some { src := .reg, index := 1 } }) |>.wr (LP 0) R.LP_LSTATE_STATE 1
       let h : Hop := { src := HopBy.reg, index := 1, staged := false, begun := false, dueEpoch := 0, p0 := 0, fallback := false, alone := false }
       let held : Bool := s.is (GS 0) R.GS_RSTAT_HELD
       s.dueHop 0 = some h ∧ s.noLeaf 0 = false ∧ held = false ∧
       (s.lst (s.actLeaf 0) ≠ L_LOCKED ∧ s.lst (s.actLeaf 0) ≠ L_OFF ∨ s.hopBusy 0 = true))
    ∧ (let s : State := State.reset |>.modGrp 0 (fun x => { x with hop := some { src := .reg, index := 1 } }) |>.wr (LP 0) R.LP_LSTATE_STATE 3
       let h : Hop := { src := HopBy.reg, index := 1, staged := false, begun := false, dueEpoch := 0, p0 := 0, fallback := false, alone := false }
       let held : Bool := s.is (GS 0) R.GS_RSTAT_HELD
       s.dueHop 0 = some h ∧ s.noLeaf 0 = false ∧ s.lst (s.actLeaf 0) = L_LOCKED ∧ s.hopping 0 = false ∧
       h.src = HopBy.reg ∧ held = false ∧ s.hopIllegal (0) (s.actLeaf 0) h.index h.staged = true)
    ∧ (let s : State := State.reset |>.modGrp 0 (fun x => { x with hop := some { src := .reg, index := 1 } }) |>.wr (LP 0) R.LP_LSTATE_STATE 3 |>.modGrp 0 (fun x => x.setWp 1 [0, BitVec.ofNat 32 (100 * 2 ^ 8 + 9 * 2 ^ 28), BitVec.ofNat 32 (0x80 * 2 ^ 17 + 0), BitVec.ofNat 32 (200 * 2 ^ 12 + 1)])
       let h : Hop := { src := HopBy.reg, index := 1, staged := false, begun := false, dueEpoch := 0, p0 := 0, fallback := false, alone := false }
       let held : Bool := s.is (GS 0) R.GS_RSTAT_HELD
       s.dueHop 0 = some h ∧ s.noLeaf 0 = false ∧ s.lst (s.actLeaf 0) = L_LOCKED ∧ s.hopping 0 = false ∧
       h.src = HopBy.reg ∧ held = false ∧ s.hopIllegal (0) (s.actLeaf 0) h.index h.staged = false ∧ s.pingPong 0 = false)
    ∧ (let s : State := State.reset |>.modGrp 0 (fun x => { x with hop := some { src := .reg, index := 1 } }) |>.wr (LP 0) R.LP_LSTATE_STATE 3 |>.modGrp 0 (fun x => x.setWp 1 [0, BitVec.ofNat 32 (100 * 2 ^ 8 + 9 * 2 ^ 28), BitVec.ofNat 32 (0x80 * 2 ^ 17 + 0), BitVec.ofNat 32 (200 * 2 ^ 12 + 1)]) |>.wr (GS 0) R.GS_RSTAT_HELD 1
       let h : Hop := { src := HopBy.reg, index := 1, staged := false, begun := false, dueEpoch := 0, p0 := 0, fallback := false, alone := false }
       let held : Bool := s.is (GS 0) R.GS_RSTAT_HELD
       s.dueHop 0 = some h ∧ s.noLeaf 0 = false ∧ s.lst (s.actLeaf 0) = L_LOCKED ∧ s.hopping 0 = false ∧
       h.src = HopBy.reg ∧ s.hopIllegal (0) (s.actLeaf 0) h.index h.staged = false ∧ s.pingPong 0 = false ∧ held = true)
    ∧ (let s : State := State.reset |>.wr (LP 0) R.LP_LSTATE_STATE 3 |>.modGrp 0 (fun x => { x with hop := some { src := .reg, index := 1, begun := true } })
       let h : Hop := { src := HopBy.reg, index := 1, staged := false, begun := true, dueEpoch := 0, p0 := 0, fallback := false, alone := false }
       (s.grp 0).hop = some h ∧ h.begun = true ∧ h.src = HopBy.reg ∧ (s.grp 0).swing = none ∧
       (∀ (n : Nat), n ∈ s.hopLeaves 0 → s.atSetting n = true) ∧ (s.grp 0).route = none ∧ s.pingPong 0 = false) := by
  refine ⟨?_, ?_, ?_, ?_, ?_, ?_, ?_⟩ <;> decide +kernel

/-- The hypotheses of Obligations.PrelockAndRouteQueue can be met, clause by clause. -/
theorem witness_PrelockAndRouteQueue :
    (let s : State := State.reset
     (s.pingPong 0 = false ∨ (s.grp 0).route = none))
    ∧ (let s : State := State.reset |>.modGrp 0 (fun x => { x with route := some { byReg := true } }) |>.wr (GS 0) R.GS_SWSTAT_POLIF 1 |>.wr (LP 0) R.LP_LSTATE_STATE 3 |>.modGrp 0 (fun x => x.setWp 0 [0, BitVec.ofNat 32 (100 * 2 ^ 8 + 9 * 2 ^ 28), BitVec.ofNat 32 (0x80 * 2 ^ 17 + 0), BitVec.ofNat 32 (200 * 2 ^ 12 + 1)])
       let r : Route := ((s.grp 0).route).getD {}
       s.pingPong 0 = true ∧ (s.grp 0).route = some r ∧ (s.grp 0).prelock = none ∧ s.hopping 0 = false ∧ s.lastWaypoint (0) r = false ∧ s.lst (s.actLeaf 0) = L_LOCKED ∧ (s.lst (s.idleLeaf 0) = L_OFF ∨ s.lst (s.idleLeaf 0) = L_LOCKED) ∧ have w := (s.grp 0).wp (s.nextIndex (0) r)
       s.legalFor (s.idleLeaf 0) ((s.grp 0).wpRatio w) (some w) = true)
    ∧ (let s : State := State.reset |>.modGrp 0 (fun x => { x with queue := [{ handle := 0 }] }) |>.modGrp 0 (fun x => { x with hop := some { src := .reg, index := 1 } })
       let e : QEntry := { handle := 0, isRoute := false, start := 0, staged := false, atMilestone := false, hoplim := 0 }
       let rest : List QEntry := []
       (s.grp 0).queue = e :: rest ∧ s.queueFree 0 = false)
    ∧ (let s : State := State.reset |>.modGrp 0 (fun x => { x with queue := [{ handle := 0 }] })
       let e : QEntry := { handle := 0, isRoute := false, start := 0, staged := false, atMilestone := false, hoplim := 0 }
       let rest : List QEntry := []
       (s.grp 0).queue = e :: rest ∧ s.queueFree 0 = true ∧ s.cmd? e.handle = none)
    ∧ (let s : State := State.reset |>.modGrp 0 (fun x => { x with queue := [{ handle := 0 }] }) |>.withCmds [{ phase := .queued }]
       let e : QEntry := { handle := 0, isRoute := false, start := 0, staged := false, atMilestone := false, hoplim := 0 }
       let rest : List QEntry := []
       let c : Cmd := (s.cmd? e.handle).getD {}
       (s.grp 0).queue = e :: rest ∧ s.queueFree 0 = true ∧ s.cmd? e.handle = some c ∧ c.phase = CmdPhase.queued ∧
       e.isRoute = false) := by
  refine ⟨?_, ?_, ?_, ?_, ?_⟩ <;> decide +kernel

/-- The hypotheses of Obligations.LockInWindowReportsLocked can be met, clause by clause. -/
theorem witness_LockInWindowReportsLocked :
    (let s : State := State.reset
     s.lst 0 ≠ L_ACQUIRE ∧ s.lst 0 ≠ L_RELOCK)
    ∧ (let s : State := State.reset |>.wr (LP 1) R.LP_LSTATE_STATE 1 |>.wr (LP 0) R.LP_LSTATE_STATE 2
       let x : Leaf := s.leaf 0
       0 < 32 ∧ x.cause = 0 ∧ x.joining = false ∧ x.waypoint = none ∧ (s.grp (0 / 2)).prelock = none ∧
       (s.hopping (0 / 2) = true ∨ (s.leaf (s.idleLeaf (0 / 2))).joined = true ∨ s.idleLeaf (0 / 2) ≠ 0 ∧ s.lst (s.idleLeaf (0 / 2)) ≠ L_LOCKED ∧ s.lst (s.idleLeaf (0 / 2)) ≠ L_OFF) ∧
       (s.lst 0 = L_ACQUIRE ∨ s.lst 0 = L_RELOCK ∧ x.slewing = false))
    ∧ (let s : State := State.reset |>.wr (LP 1) R.LP_LSTATE_STATE 1 |>.wr (LP 0) R.LP_LSTATE_STATE 5 |>.modLeaf 0 (fun l => { l with slewing := true })
       let x : Leaf := s.leaf 0
       0 < 32 ∧ x.cause = 0 ∧ x.joining = false ∧ x.waypoint = none ∧ (s.grp (0 / 2)).prelock = none ∧
       (s.hopping (0 / 2) = true ∨ (s.leaf (s.idleLeaf (0 / 2))).joined = true ∨ s.idleLeaf (0 / 2) ≠ 0 ∧ s.lst (s.idleLeaf (0 / 2)) ≠ L_LOCKED ∧ s.lst (s.idleLeaf (0 / 2)) ≠ L_OFF) ∧
       s.lst 0 = L_RELOCK ∧ x.slewing = true)
    ∧ (let s : State := State.reset |>.wr (LP 32) R.LP_LSTATE_STATE 2
       32 ≤ 32 ∧ s.lst 32 = L_ACQUIRE ∧ (s.leaf 32).cause = 0 ∧ s.power.clkRoot = 2 ∧ s.power.sysExit = false) := by
  refine ⟨?_, ?_, ?_, ?_⟩ <;> decide +kernel

/-- The hypotheses of Obligations.UnlockAndLockTimer can be met, clause by clause. -/
theorem witness_UnlockAndLockTimer :
    (let s : State := State.reset
     s.lst 0 ≠ L_LOCKED)
    ∧ (let s : State := running
       let g : Nat := 0 / 2
       0 < 32 ∧ s.lst 0 = L_LOCKED ∧ s.is (LP 0) R.LP_LSTAT_SLEWING = false ∧ (s.leaf 0).widened = false ∧
       (s.actLeaf g ≠ 0 ∨ s.guardIn g = false))
    ∧ (let s : State := running |>.modLeaf 1 (fun l => { l with joined := true })
       let g : Nat := 0 / 2
       0 < 32 ∧ s.lst 0 = L_LOCKED ∧ s.is (LP 0) R.LP_LSTAT_SLEWING = false ∧ (s.leaf 0).widened = false ∧
       s.actLeaf g = 0 ∧ s.guardIn g = true ∧ s.thirdFault (leafUnit 0) (s.opMs 0) = false ∧
       (Tab.get [] s.flt.hist (leafUnit 0)).length ≤ 1)
    ∧ (let s : State := State.reset
       (s.lst 0 ≠ L_SEARCH ∧ s.lst 0 ≠ L_ACQUIRE ∧ s.lst 0 ≠ L_RELOCK ∨ (s.leaf 0).kind = LockKind.none))
    ∧ (let s : State := State.reset |>.modLeaf 0 (fun l => { l with kind := .fromOff }) |>.wr (LP 0) R.LP_LSTATE_STATE 1
       0 < 32 ∧ (s.leaf 0).kind ≠ LockKind.none ∧ (s.lst 0 = L_SEARCH ∨ s.lst 0 = L_ACQUIRE) ∧
       s.rd (LP 0) R.LP_LSTATE_RETRY < 3)
    ∧ (let s : State := State.reset |>.modLeaf 0 (fun l => { l with kind := .fromOff }) |>.wr (LP 0) R.LP_LSTATE_STATE 5
       0 < 32 ∧ (s.leaf 0).kind ≠ LockKind.none ∧ s.lst 0 = L_RELOCK ∧ s.rd (LP 0) R.LP_LSTATE_RETRY < 3)
    ∧ (let s : State := State.reset |>.modLeaf 0 (fun l => { l with kind := .fromOff }) |>.wr (LP 0) R.LP_LSTATE_STATE 5 |>.wr (LP 0) R.LP_LSTATE_RETRY 3 |>.wr (GS 0) R.GS_SWSTAT_ACT 1
       let g : Nat := 0 / 2
       0 < 32 ∧ (s.leaf 0).kind ≠ LockKind.none ∧ (s.lst 0 = L_SEARCH ∨ s.lst 0 = L_ACQUIRE ∨ s.lst 0 = L_RELOCK) ∧
       s.rd (LP 0) R.LP_LSTATE_RETRY = 3 ∧ s.actLeaf g ≠ 0) := by
  refine ⟨?_, ?_, ?_, ?_, ?_, ?_, ?_⟩ <;> decide +kernel

/-- The hypotheses of Obligations.LossOfTheReference can be met, clause by clause. -/
theorem witness_LossOfTheReference :
    (let s : State := up |>.modRef (fun r => { r with qualified := false, newHz := false, good := 0 })
     s.lossOpen = false)
    ∧ (let s : State := State.reset
       s.power.clk = false)
    ∧ (let s : State := up |>.modRef (fun r => { r with qualified := true })
       let count : BitVec 24 := 0
       let own : BitVec 34 := 1
       let exc : Bool := excursion s.ref.inForce count.toNat
       s.power.clk = true ∧ (exc = true ∨ own ≠ 0) ∧ s.lossOpen = true ∧
       (s.power.sysLocked = false ∨ s.sysServes s.sysAct = true))
    ∧ (let s : State := up |>.modRef (fun r => { r with qualified := false, newHz := false, good := 0 })
       let count : BitVec 24 := 0
       let own : BitVec 34 := 0
       let exc : Bool := excursion s.ref.inForce count.toNat
       s.power.clk = true ∧ (exc = false ∧ own = 0 ∨ s.lossOpen = false) ∧ 0 ≠ s.sysAct)
    ∧ (let s : State := up |>.modRef (fun r => { r with qualified := false, newHz := false, good := 0 }) |>.wr (LP 32) R.LP_HCFG_QUAL 3
       let count : BitVec 24 := 0
       let own : BitVec 34 := 0
       let exc : Bool := excursion s.ref.inForce count.toNat
       s.power.clk = true ∧ (exc = false ∧ own = 0 ∨ s.lossOpen = false) ∧ 32 = s.sysAct ∧ s.ref.qualified = false ∧
       s.ref.good < s.rd (LP 32) R.LP_HCFG_QUAL)
    ∧ (let s : State := up |>.modRef (fun r => { r with qualified := false, newHz := false, good := 0 }) |>.wr (LP 32) R.LP_HCFG_QUAL 0 |>.modRef (fun r => { r with inForce := 100000000 })
       let count : BitVec 24 := 131072
       let own : BitVec 34 := 0
       let exc : Bool := excursion s.ref.inForce count.toNat
       s.power.clk = true ∧ (exc = false ∧ own = 0 ∨ s.lossOpen = false) ∧ 32 = s.sysAct ∧ s.ref.qualified = false ∧
       s.ref.good = s.rd (LP 32) R.LP_HCFG_QUAL ∧ exc = false ∧ s.ref.missed = false ∧ s.power.sysLocked = false) := by
  refine ⟨?_, ?_, ?_, ?_, ?_, ?_⟩ <;> decide +kernel

/-- The hypotheses of Obligations.ReturnFromHoldover can be met, clause by clause. -/
theorem witness_ReturnFromHoldover :
    (let s : State := State.reset
     let g : Nat := 0 / 2
     let idle : Bool := !(s.returning 0).contains 0 || s.phaseHeld g || s.lst (s.actLeaf g) == L_HOLDOVER && s.actLeaf g != 0
     idle = true)
    ∧ (let s : State := running |>.wr (LP 0) R.LP_LSTATE_STATE L_HOLDOVER |>.wr (LP 0) R.LP_LSTATE_REFOK 1
       let g : Nat := 0 / 2
       let idle : Bool := !(s.returning 0).contains 0 || s.phaseHeld g || s.lst (s.actLeaf g) == L_HOLDOVER && s.actLeaf g != 0
       idle = false)
    ∧ (let s : State := running
       s.lst 0 ≠ L_RELOCK ∧ s.lst 1 ≠ L_RELOCK)
    ∧ (let s : State := running |>.wr (LP 0) R.LP_LSTATE_STATE L_RELOCK |>.modLeaf 0 (fun l => { l with slewing := true }) |>.modLeaf 1 (fun l => { l with joined := true })
       s.lst 0 = L_RELOCK ∧ (s.leaf 0).slewing = true ∧ (s.leaf 0).kind = .none ∧ (s.leaf 0).cause = 0 ∧
       (s.leaf 0).joining = false ∧ s.lst 1 ≠ L_RELOCK ∧ (s.grp 0).prelock = none ∧
       (s.leaf (s.idleLeaf 0)).joined = true)
    ∧ (let s : State := State.reset
       s.lst 0 ≠ L_HOLDOVER)
    ∧ (let s : State := State.reset |>.wr (LP 1) R.LP_LSTATE_STATE 4
       s.lst 1 = L_HOLDOVER ∧ 1 < 32 ∧ s.actLeaf (1 / 2) ≠ 1 ∧ (s.grp (1 / 2)).prelock = none ∧
       s.is (LP 1) R.LP_LSTAT_SLEWING = false ∧ (s.leaf 1).widened = false ∧
       (Tab.get [] s.flt.hist (leafUnit 1)).length ≤ 1) := by
  refine ⟨?_, ?_, ?_, ?_, ?_, ?_⟩ <;> decide +kernel

/-- The hypotheses of Obligations.EpochOffsetAndPhaseJumpMailbox can be met, clause by clause. -/
theorem witness_EpochOffsetAndPhaseJumpMailbox :
    (let s : State := running
     s.Takes .pcie (GS 0) R.GS_HOLDCTL_CLROFS)
    ∧ (let s : State := State.reset
       (s.rd (GS 0) R.GS_HOLDCTL_CLROFS = 0 ∨ s.cmdOn 0 = true ∨ s.phaseHeld 0 = true))
    ∧ (let s : State := State.reset |>.wr (GS 0) R.GS_HOLDCTL_CLROFS 1
       s.rd (GS 0) R.GS_HOLDCTL_CLROFS = 1 ∧ s.cmdOn 0 = false ∧ s.phaseHeld 0 = false)
    ∧ (let s : State := State.reset
       (s.grp 0).clrSlew = false)
    ∧ (let s : State := State.reset |>.modGrp 0 (fun x => { x with clrSlew := true })
       (s.grp 0).clrSlew = true)
    ∧ (let s : State := running
       s.Takes .pcie (GS 0) R.GS_PJ_CTRL_GO)
    ∧ (let s : State := State.reset |>.setBox (GS 0 + R.GS_PJ_CTRL_GO.off) { busy := true, q := [] }
       let x : Box := { busy := true, result := 0, q := [], op := 0, aux := 0 }
       s.box (GS 0 + R.GS_PJ_CTRL_GO.off) = x ∧ x.busy = true) := by
  refine ⟨?_, ?_, ?_, ?_, ?_, ?_, ?_⟩ <;> decide +kernel

/-- The hypotheses of Obligations.OutputEnableAndApply can be met, clause by clause. -/
theorem witness_OutputEnableAndApply :
    (let s : State := State.reset
     (s.access .pcie = false ∨ s.blockOn (OP 0 0) = false ∨ s.outExists 0 = false))
    ∧ (let s : State := running
       s.access .pcie = true ∧ s.blockOn (OP 0 0) = true ∧ s.outExists 0 = true)
    ∧ (let s : State := running |>.wr (LP 0) R.LP_LSTATE_STATE 0
       let res : Nat := firstOf [(s.phaseHeld 0, 2), (s.routeOn 0 || s.hopping 0 || s.cmdOn 0, 1), (s.lst (s.actLeaf 0) != L_LOCKED, 3)]
       s.Takes .pcie (OUT 0) R.OUT_APPLY_GO ∧ res ≠ 0)
    ∧ (let s : State := running
       let res : Nat := firstOf [(s.phaseHeld 0, 2), (s.routeOn 0 || s.hopping 0 || s.cmdOn 0, 1), (s.lst (s.actLeaf 0) != L_LOCKED, 3)]
       s.Takes .pcie (OUT 0) R.OUT_APPLY_GO ∧ res = 0) := by
  refine ⟨?_, ?_, ?_, ?_⟩ <;> decide +kernel

/-- The hypotheses of Obligations.MilestonesAndEpochSnapshot can be met, clause by clause. -/
theorem witness_MilestonesAndEpochSnapshot :
    (let s : State := State.reset
     (s.nextMs = none ∨ s.running = false))
    ∧ (let s : State := State.reset |>.modChain (fun c => { c with sched := true, interval := 5, next := 2, base := 3 }) |>.withRun true
       let b : Bool := false
       s.nextMs = some (2, 13, b) ∧ s.running = true ∧ s.chain.rejoin ≠ 3 ∧ (∀ (g : Fin 16), (s.grp ↑g).route = none))
    ∧ (let s : State := up
       s.Takes .pcie SYS R.SYS_EP_CTRL_GO) := by
  refine ⟨?_, ?_, ?_⟩ <;> decide +kernel

/-- The hypotheses of Obligations.PhaseMeasurement can be met, clause by clause. -/
theorem witness_PhaseMeasurement :
    (let s : State := running
     s.Takes .pcie (OUT 0) R.OUT_PM_CTRL_GO)
    ∧ (let s : State := State.reset
       let x : Box := { busy := false, result := 0, q := [], op := 0, aux := 0 }
       s.box (OUT 0 + R.OUT_PM_CTRL_GO.off) = x ∧ x.busy = false)
    ∧ (let s : State := State.reset |>.setBox (OUT 0 + R.OUT_PM_CTRL_GO.off) { busy := true, q := [] }
       let x : Box := { busy := true, result := 0, q := [], op := 0, aux := 0 }
       s.box (OUT 0 + R.OUT_PM_CTRL_GO.off) = x ∧ x.busy = true) := by
  refine ⟨?_, ?_, ?_⟩ <;> decide +kernel

/-- The hypotheses of Obligations.SwingsOfTheOutputTree can be met, clause by clause. -/
theorem witness_SwingsOfTheOutputTree :
    (let s : State := State.reset |>.modGrp 0 (fun x => { x with swing := some .fault }) |>.wr (LP 1) R.LP_LSTATE_STATE 1
     let k : SwingKind := SwingKind.fault
     (s.grp 0).swing = some k ∧ (s.grp 0).hop = none ∧
     (s.lst (s.idleLeaf 0) ≠ L_LOCKED ∧ s.lst (s.idleLeaf 0) ≠ L_OFF ∨ (s.leaf (s.idleLeaf 0)).joined = true))
    ∧ (let s : State := State.reset
       let atS : Bool := false
       s.actLeaf 0 = 0 ∧ (atS = false ∨ (s.grp 0).swing ≠ some SwingKind.route) ∧ (s.lst 0 = L_OFF ∨ s.lst 0 = L_FAULT))
    ∧ (let s : State := running |>.modLeaf 1 (fun l => { l with joined := true })
       let atS : Bool := false
       s.actLeaf 0 = 0 ∧ (atS = false ∨ (s.grp 0).swing ≠ some SwingKind.route) ∧ (s.grp 0).on = true ∧
       (s.grp 0).gapFailed = none ∧ s.lst 0 = L_LOCKED ∧ s.is (LP 0) R.LP_LSTAT_SLEWING = false ∧
       (s.leaf 0).widened = false ∧ (Tab.get [] s.flt.hist (leafUnit 0)).length ≤ 1 ∧ s.guardIn 0 = true ∧
       s.hopping 0 = false)
    ∧ (let s : State := running |>.wr (GS 0) R.GS_SWSTAT_POLIF 1 |>.modLeaf 1 (fun l => { l with on := true })
       let atS : Bool := false
       s.actLeaf 0 = 0 ∧ (atS = false ∨ (s.grp 0).swing ≠ some SwingKind.route) ∧ (s.grp 0).on = true ∧
       (s.grp 0).gapFailed = none ∧ s.lst 0 = L_LOCKED ∧ s.is (LP 0) R.LP_LSTAT_SLEWING = false ∧
       (s.leaf 0).widened = false ∧ (Tab.get [] s.flt.hist (leafUnit 0)).length ≤ 1 ∧ s.guardIn 0 = false ∧
       s.exposed 0 = true ∧ s.hopping 0 = false ∧ s.leafFree (s.idleLeaf 0) = true ∧
       (¬(s.lst (s.idleLeaf 0) = L_HOLDOVER ∧ s.is (LP (s.idleLeaf 0)) R.LP_LSTATE_FOLLOW = true)))
    ∧ (let s : State := State.reset
       (s.guardIn 0 = false ∨ s.hopping 0 = true ∨ (s.grp 0).swing ≠ none))
    ∧ (let s : State := running |>.modLeaf 1 (fun l => { l with joined := true })
       s.guardIn 0 = true ∧ s.lst (s.actLeaf 0) = L_LOCKED ∧ s.hopping 0 = false ∧ (s.grp 0).swing = none ∧
       (Tab.get [] s.flt.hist (leafUnit (s.actLeaf 0))).length ≤ 1)
    ∧ (let s : State := running
       s.Takes .pcie (GS 0) R.GS_POLICY_FORCE) := by
  refine ⟨?_, ?_, ?_, ?_, ?_, ?_, ?_⟩ <;> decide +kernel

/-- The hypotheses of Obligations.PolicyAndRecovery can be met, clause by clause. -/
theorem witness_PolicyAndRecovery :
    (let s : State := State.reset
     let free : Bool := s.is (GS 0) R.GS_SWSTAT_POLPEND && !s.leafRetired (2 * 0) && !s.leafRetired (2 * 0 + 1) && !s.routeOn 0 && (s.grp 0).hop.isNone && !s.hopping 0 && (s.grp 0).swing.isNone && !s.cmdOn 0 && !s.phaseHeld 0 && !s.guardHeld 0
     free = false)
    ∧ (let s : State := State.reset |>.wr (GS 0) R.GS_SWSTAT_POLPEND 1 |>.wr (GS 0) R.GS_POLICY_POL 1
       let free : Bool := s.is (GS 0) R.GS_SWSTAT_POLPEND && !s.leafRetired (2 * 0) && !s.leafRetired (2 * 0 + 1) && !s.routeOn 0 && (s.grp 0).hop.isNone && !s.hopping 0 && (s.grp 0).swing.isNone && !s.cmdOn 0 && !s.phaseHeld 0 && !s.guardHeld 0
       free = true ∧
       (s.is (GS 0) R.GS_POLICY_POL = true ∨ s.lst (s.idleLeaf 0) ≠ L_LOCKED ∧ s.lst (s.idleLeaf 0) ≠ L_OFF ∨ (s.leaf (s.idleLeaf 0)).joined = true))
    ∧ (let s : State := State.reset |>.wr (GS 0) R.GS_SWSTAT_POLPEND 1 |>.wr (LP 1) R.LP_LSTATE_STATE 3 |>.modLeaf 1 (fun l => { l with on := true }) |>.wr (LP 0) R.LP_LSTATE_STATE 3
       let free : Bool := s.is (GS 0) R.GS_SWSTAT_POLPEND && !s.leafRetired (2 * 0) && !s.leafRetired (2 * 0 + 1) && !s.routeOn 0 && (s.grp 0).hop.isNone && !s.hopping 0 && (s.grp 0).swing.isNone && !s.cmdOn 0 && !s.phaseHeld 0 && !s.guardHeld 0
       free = true ∧ s.is (GS 0) R.GS_POLICY_POL = false ∧ (s.grp 0).prelock = none ∧ (s.grp 0).gapFailed = none ∧
       s.lst (s.idleLeaf 0) = L_LOCKED ∧ (s.leaf (s.idleLeaf 0)).joined = false ∧ (s.leaf (s.idleLeaf 0)).on = true ∧
       s.lst (s.actLeaf 0) = L_LOCKED ∧ s.is (LP (s.idleLeaf 0)) R.LP_LSTAT_SLEWING = false ∧
       (s.leaf (s.idleLeaf 0)).widened = false)
    ∧ (let s : State := State.reset
       s.actLeaf 0 = 0 ∧ (s.grp 0).gapFailed = none)
    ∧ (let s : State := State.reset |>.modGrp 0 (fun x => { x with gapFailed := some 1 })
       s.actLeaf 0 = 0 ∧ (s.grp 0).gapFailed = some 1 ∧ s.actLeaf 0 ≠ 1)
    ∧ (let s : State := State.reset
       let ok : Bool := s.is (GS 0) R.GS_SWSTAT_GAP && (s.grp 0).gapFailed.isNone && (s.lst 0 == L_LOCKED || s.lst 0 == L_HOLDOVER || s.lst 0 == L_ACQUIRE && !(s.leaf 0).missed)
       s.actLeaf 0 = 0 ∧ ok = false)
    ∧ (let s : State := running |>.wr (LP 1) R.LP_LSTATE_STATE L_OFF |>.modLeaf 1 (fun l => { l with joined := true }) |>.wr (GS 0) R.GS_SWSTAT_GAP 1
       let n : Nat := s.actLeaf 0
       let ok : Bool := s.is (GS 0) R.GS_SWSTAT_GAP && (s.grp 0).gapFailed.isNone && (s.lst n == L_LOCKED || s.lst n == L_HOLDOVER || s.lst n == L_ACQUIRE && !(s.leaf n).missed)
       ok = true ∧
       (s.lst (s.idleLeaf 0) ≠ L_LOCKED ∧ s.lst (s.idleLeaf 0) ≠ L_OFF ∨ (s.leaf (s.idleLeaf 0)).joined = true)) := by
  refine ⟨?_, ?_, ?_, ?_, ?_, ?_, ?_⟩ <;> decide +kernel

/-- The hypotheses of Obligations.ChainReceiversAndFrames can be met, clause by clause. -/
theorem witness_ChainReceiversAndFrames :
    (let s : State := State.reset |>.wr MSC R.MSC_STAT_DNLINK 1
     let dn : Bool := true
     (s.variant.mc = false ∨ s.is MSC (if dn = true then R.MSC_STAT_DNLINK else R.MSC_STAT_UPLINK) = true))
    ∧ (let s : State := State.reset
       let dn : Bool := false
       (s.variant.mc = false ∨ s.is MSC (if dn = true then R.MSC_STAT_DNLINK else R.MSC_STAT_UPLINK) = false))
    ∧ (let s : State := up
       s.variant.mc = true ∧ s.power.aon = true ∧ s.chain.cfgHead = false ∧ s.power.clk = true ∧
       s.is MSC R.MSC_STAT_UPLINK = false)
    ∧ (let s : State := up |>.wr MSC R.MSC_STAT_UPLINK 1
       s.variant.mc = true ∧ s.power.aon = true ∧ s.chain.cfgHead = false ∧ s.power.clk = true ∧
       s.is MSC R.MSC_STAT_UPLINK = true)
    ∧ (let s : State := up
       s.variant.mc = true ∧ s.power.aon = true ∧ s.chain.cfgHead = false ∧ s.power.clk = true ∧ s.chSt = C_DOWN ∧
       s.chain.upSeen = false)
    ∧ (let s : State := up |>.wr MSC R.MSC_STAT_STATE 1
       s.variant.mc = true ∧ s.power.aon = true ∧ s.chain.cfgHead = false ∧ s.power.clk = true ∧
       (s.chSt ≠ C_DOWN ∨ s.chain.upSeen = true))
    ∧ (let s : State := up |>.wr MSC R.MSC_STAT_DNLINK 1
       let up : Bool := false
       let cs : List (BitVec 8) := []
       s.variant.mc = true ∧ s.power.clk = true ∧
       s.is MSC (if up = true then R.MSC_STAT_UPLINK else R.MSC_STAT_DNLINK) = true ∧ s.chain.cfgHead = false ∧
       frameOk cs = false)
    ∧ (let s : State := up |>.wr MSC R.MSC_STAT_DNLINK 1
       let up : Bool := false
       let cs : List (BitVec 8) := [0x0#8, 0x0#8, 0x0#8, 0x0#8, 0x0#8, 0x0#8, 0x0#8, 0x0#8, 0x0#8, 0x0#8, 0x0#8, 0x0#8, 0x0#8, 0x0#8, 0x0#8, 0x0#8, 0x0#8, 0x0#8, 0x0#8, 0x0#8, 0x0#8, 0x0#8, 0x0#8, 0x0#8, 0x0#8, 0x0#8, 0x0#8, 0x0#8, 0x0#8, 0x0#8, 0x0#8, 0x0#8, 0x0#8, 0x1#8, 0x2#8, 0x3#8, 0x4#8, 0x5#8, 0x6#8, 0x7#8, 0x8#8, 0x9#8, 0xa#8, 0xb#8, 0xc#8, 0xd#8, 0xe#8, 0x0#8, 0x0#8, 0x0#8, 0x0#8, 0x9#8, 0x9#8, 0x9#8, 0x9#8, 0x9#8, 0x9#8, 0x9#8, 0x9#8, 0x9#8, 0x9#8, 0x9#8, 0x9#8, 0x9#8, 0x9#8, 0x0#8, 0x0#8, 0x0#8, 0x0#8, 0x0#8, 0x0#8, 0x0#8, 0x0#8, 0x0#8, 0x0#8, 0x0#8, 0x0#8, 0x0#8, 0x0#8, 0x0#8, 0x0#8, 0x0#8, 0x0#8, 0x0#8, 0x0#8, 0x0#8, 0x0#8, 0x0#8, 0x0#8, 0x0#8, 0x0#8, 0x0#8, 0x0#8, 0x0#8, 0x0#8, 0x0#8, 0x0#8, 0x0#8, 0x0#8, 0x0#8, 0x0#8, 0x0#8, 0x0#8, 0x0#8, 0x0#8, 0x0#8, 0x0#8, 0x0#8, 0x0#8, 0x0#8, 0x0#8, 0x0#8, 0x0#8, 0x0#8, 0x0#8, 0x0#8, 0x0#8, 0x0#8, 0x0#8, 0x0#8, 0x0#8, 0x0#8, 0x0#8, 0x0#8, 0x0#8, 0x65#8, 0x69#8]
       let ty : Nat := frameField cs 1 1
       let posf : Nat := frameField cs 26 2
       s.variant.mc = true ∧ s.power.clk = true ∧
       s.is MSC (if up = true then R.MSC_STAT_UPLINK else R.MSC_STAT_DNLINK) = true ∧ s.chain.cfgHead = false ∧
       frameOk cs = true ∧ bitOf ty 4 = false ∧ bitOf posf 13 = false ∧ s.chSt ≠ C_HEAD)
    ∧ (let s : State := up |>.wr MSC R.MSC_STAT_UPLINK 1
       let up : Bool := true
       let cs : List (BitVec 8) := [0x0#8, 0x0#8, 0x0#8, 0x0#8, 0x0#8, 0x0#8, 0x0#8, 0x0#8, 0x0#8, 0x0#8, 0x0#8, 0x0#8, 0x0#8, 0x0#8, 0x0#8, 0x0#8, 0x0#8, 0x0#8, 0x0#8, 0x0#8, 0x0#8, 0x0#8, 0x0#8, 0x0#8, 0x0#8, 0x0#8, 0x0#8, 0x0#8, 0x0#8, 0x0#8, 0x0#8, 0x0#8, 0x0#8, 0x1#8, 0x2#8, 0x3#8, 0x4#8, 0x5#8, 0x6#8, 0x7#8, 0x8#8, 0x9#8, 0xa#8, 0xb#8, 0xc#8, 0xd#8, 0xe#8, 0x0#8, 0x0#8, 0x0#8, 0x0#8, 0x9#8, 0x9#8, 0x9#8, 0x9#8, 0x9#8, 0x9#8, 0x9#8, 0x9#8, 0x9#8, 0x9#8, 0x9#8, 0x9#8, 0x9#8, 0x9#8, 0x0#8, 0x0#8, 0x0#8, 0x0#8, 0x0#8, 0x0#8, 0x0#8, 0x0#8, 0x0#8, 0x0#8, 0x0#8, 0x0#8, 0x0#8, 0x0#8, 0x0#8, 0x0#8, 0x0#8, 0x0#8, 0x0#8, 0x0#8, 0x0#8, 0x0#8, 0x0#8, 0x0#8, 0x0#8, 0x0#8, 0x0#8, 0x0#8, 0x0#8, 0x0#8, 0x0#8, 0x0#8, 0x0#8, 0x0#8, 0x0#8, 0x0#8, 0x0#8, 0x0#8, 0x0#8, 0x0#8, 0x0#8, 0x0#8, 0x0#8, 0x0#8, 0x0#8, 0x0#8, 0x0#8, 0x0#8, 0x0#8, 0x0#8, 0x0#8, 0x0#8, 0x0#8, 0x0#8, 0x0#8, 0x0#8, 0x0#8, 0x0#8, 0x0#8, 0x0#8, 0x65#8, 0x69#8]
       let ty : Nat := frameField cs 1 1
       let posf : Nat := frameField cs 26 2
       s.variant.mc = true ∧ s.power.clk = true ∧
       s.is MSC (if up = true then R.MSC_STAT_UPLINK else R.MSC_STAT_DNLINK) = true ∧ s.chain.cfgHead = false ∧
       frameOk cs = true ∧ bitOf ty 4 = false ∧ bitOf ty 3 = false ∧ bitOf posf 12 = false)
    ∧ (let s : State := up |>.wr MSC R.MSC_STAT_UPLINK 1 |>.wr MSC R.MSC_STAT_STATE 4
       let up : Bool := true
       let cs : List (BitVec 8) := [0x8#8, 0x0#8, 0x0#8, 0x0#8, 0x0#8, 0x0#8, 0x0#8, 0x0#8, 0x0#8, 0x0#8, 0x0#8, 0x0#8, 0x0#8, 0x0#8, 0x0#8, 0x0#8, 0x0#8, 0x0#8, 0x0#8, 0x0#8, 0x0#8, 0x0#8, 0x0#8, 0x0#8, 0x0#8, 0x0#8, 0x0#8, 0x0#8, 0x0#8, 0x0#8, 0x0#8, 0x0#8, 0x0#8, 0x1#8, 0x2#8, 0x3#8, 0x4#8, 0x5#8, 0x6#8, 0x7#8, 0x8#8, 0x9#8, 0xa#8, 0xb#8, 0xc#8, 0xd#8, 0xe#8, 0x0#8, 0x0#8, 0x0#8, 0x0#8, 0x9#8, 0x9#8, 0x9#8, 0x9#8, 0x9#8, 0x9#8, 0x9#8, 0x9#8, 0x9#8, 0x9#8, 0x9#8, 0x9#8, 0x9#8, 0x9#8, 0x0#8, 0x0#8, 0x0#8, 0x0#8, 0x0#8, 0x0#8, 0x0#8, 0x0#8, 0x0#8, 0x0#8, 0x0#8, 0x0#8, 0x0#8, 0x0#8, 0x0#8, 0x0#8, 0x0#8, 0x0#8, 0x0#8, 0x0#8, 0x0#8, 0x0#8, 0x0#8, 0x0#8, 0x0#8, 0x0#8, 0x0#8, 0x0#8, 0x0#8, 0x0#8, 0x0#8, 0x0#8, 0x0#8, 0x0#8, 0x0#8, 0x0#8, 0x0#8, 0x0#8, 0x0#8, 0x0#8, 0x0#8, 0x0#8, 0x0#8, 0x0#8, 0x0#8, 0x0#8, 0x0#8, 0x0#8, 0x0#8, 0x0#8, 0x0#8, 0x0#8, 0x0#8, 0x0#8, 0x0#8, 0x0#8, 0x0#8, 0x0#8, 0x0#8, 0x0#8, 0x78#8, 0x94#8]
       let ty : Nat := frameField cs 1 1
       let posf : Nat := frameField cs 26 2
       s.variant.mc = true ∧ s.power.clk = true ∧
       s.is MSC (if up = true then R.MSC_STAT_UPLINK else R.MSC_STAT_DNLINK) = true ∧ s.chain.cfgHead = false ∧
       frameOk cs = true ∧ bitOf ty 4 = false ∧ bitOf ty 3 = true ∧ s.chSt = C_ALIGNED ∧ bitOf ty 1 = false ∧
       bitOf posf 12 = false ∧ s.chain.sched = false)
    ∧ (let s : State := up |>.wr MSC R.MSC_STAT_DNLINK 1 |>.wr MSC R.MSC_STAT_STATE 3
       let up : Bool := false
       let cs : List (BitVec 8) := [0x10#8, 0x0#8, 0x0#8, 0x0#8, 0x0#8, 0x0#8, 0x0#8, 0x0#8, 0x0#8, 0x0#8, 0x0#8, 0x0#8, 0x0#8, 0x0#8, 0x0#8, 0x0#8, 0x0#8, 0x0#8, 0x0#8, 0x0#8, 0x0#8, 0x0#8, 0x0#8, 0x0#8, 0x0#8, 0x0#8, 0x0#8, 0x0#8, 0x0#8, 0x0#8, 0x0#8, 0x0#8, 0x0#8, 0x1#8, 0x2#8, 0x3#8, 0x4#8, 0x5#8, 0x6#8, 0x7#8, 0x8#8, 0x9#8, 0xa#8, 0xb#8, 0xc#8, 0xd#8, 0xe#8, 0x5#8, 0x0#8, 0x0#8, 0x0#8, 0x9#8, 0x9#8, 0x9#8, 0x9#8, 0x9#8, 0x9#8, 0x9#8, 0x9#8, 0x9#8, 0x9#8, 0x9#8, 0x9#8, 0x9#8, 0x9#8, 0x0#8, 0x0#8, 0x0#8, 0x0#8, 0x0#8, 0x0#8, 0x0#8, 0x0#8, 0x0#8, 0x0#8, 0x0#8, 0x0#8, 0x0#8, 0x0#8, 0x0#8, 0x0#8, 0x0#8, 0x0#8, 0x0#8, 0x0#8, 0x0#8, 0x0#8, 0x0#8, 0x0#8, 0x0#8, 0x0#8, 0x0#8, 0x0#8, 0x0#8, 0x0#8, 0x0#8, 0x0#8, 0x0#8, 0x0#8, 0x0#8, 0x0#8, 0x0#8, 0x0#8, 0x0#8, 0x0#8, 0x0#8, 0x0#8, 0x0#8, 0x0#8, 0x0#8, 0x0#8, 0x0#8, 0x0#8, 0x0#8, 0x0#8, 0x0#8, 0x0#8, 0x0#8, 0x0#8, 0x0#8, 0x0#8, 0x0#8, 0x0#8, 0x0#8, 0x0#8, 0xc4#8, 0x4d#8]
       let ty : Nat := frameField cs 1 1
       let h : Nat := frameField cs 48 4
       let posf : Nat := frameField cs 26 2
       s.variant.mc = true ∧ s.power.clk = true ∧
       s.is MSC (if up = true then R.MSC_STAT_UPLINK else R.MSC_STAT_DNLINK) = true ∧ s.chain.cfgHead = false ∧
       frameOk cs = true ∧ bitOf ty 4 = true ∧ bitOf posf 13 = false ∧ s.chSt ≠ C_HEAD ∧ bitOf h 24 = false ∧
       s.hasPos = true ∧ h / 4096 % 4096 = s.rd MSC R.MSC_STAT_POS) := by
  refine ⟨?_, ?_, ?_, ?_, ?_, ?_, ?_, ?_, ?_, ?_, ?_⟩ <;> decide +kernel

/-- The hypotheses of Obligations.EnumerationMeasurementAndSchedule can be met, clause by clause. -/
theorem witness_EnumerationMeasurementAndSchedule :
    (let s : State := up |>.wr MSC R.MSC_STAT_UPLINK 1 |>.wr MSC R.MSC_STAT_STATE 1
     let p : BitVec 13 := 0x0#13
     let hz : Word := 0x5f5e100#32
     s.variant.mc = true ∧ s.power.clk = true ∧ s.is MSC R.MSC_STAT_UPLINK = true ∧ s.chain.cfgHead = false ∧
     s.power.clkRoot ≠ 2 ∧ s.chSt ≠ C_DOWN ∧ s.chSt ≠ C_HEAD ∧ p.toNat ≤ 4095 ∧ BitVec.toNat hz = s.refHz)
    ∧ (let s : State := up |>.wr MSC R.MSC_STAT_UPLINK 1 |>.wr MSC R.MSC_STAT_STATE 1
       let p : BitVec 13 := 0x0#13
       let hz : Word := 0x0#32
       s.variant.mc = true ∧ s.power.clk = true ∧ s.is MSC R.MSC_STAT_UPLINK = true ∧ s.chain.cfgHead = false ∧
       s.power.clkRoot ≠ 2 ∧ s.chSt ≠ C_DOWN ∧ s.chSt ≠ C_HEAD ∧ (4095 < p.toNat ∨ BitVec.toNat hz ≠ s.refHz))
    ∧ (let s : State := up |>.wr MSC R.MSC_STAT_DNLINK 1 |>.wr MSC R.MSC_STAT_STATE 3
       s.variant.mc = true ∧ s.power.clk = true ∧ s.is MSC R.MSC_STAT_DNLINK = true ∧ s.hasPos = true)
    ∧ (let s : State := up |>.wr MSC R.MSC_STAT_DNLINK 1
       s.variant.mc = true ∧ s.power.clk = true ∧ s.is MSC R.MSC_STAT_DNLINK = true ∧ s.hasPos = false)
    ∧ (let s : State := State.reset
       s.chain.measuring = false ∧ s.chSt ≠ C_ALIGNED ∧ s.chSt ≠ C_SEGMENT)
    ∧ (let s : State := up |>.wr MSC R.MSC_STAT_STATE 4
       s.variant.mc = true ∧ s.power.clk = true ∧ (s.chain.measuring = true ∨ s.chSt = C_ALIGNED ∨ s.chSt = C_SEGMENT) ∧
       s.ref.qualified = false)
    ∧ (let s : State := up
       s.Takes .pcie MSC R.MSC_CTRL_GO) := by
  refine ⟨?_, ?_, ?_, ?_, ?_, ?_, ?_⟩ <;> decide +kernel

/-- The hypotheses of Obligations.ChainMailboxRejoinAndMessages can be met, clause by clause. -/
theorem witness_ChainMailboxRejoinAndMessages :
    (let s : State := up
     s.Takes .pcie MSC R.MSC_MB_CTRL_GO)
    ∧ (let s : State := State.reset
       let late : Bool := false
       let ok : Bool := s.chSt == C_SEGHEAD && s.chain.rejoin == 1 && (late || s.noneAway)
       ok = false)
    ∧ (let s : State := up |>.wr MSC R.MSC_STAT_STATE C_SEGHEAD |>.modChain (fun x => { x with rejoin := 1 })
       let late : Bool := true
       let ok : Bool := s.chSt == C_SEGHEAD && s.chain.rejoin == 1 && (late || s.noneAway)
       ok = true)
    ∧ (let s : State := State.reset
       (s.chSt ≠ C_SEGHEAD ∨ s.chain.rejoin ≠ 2))
    ∧ (let s : State := State.reset |>.wr MSC R.MSC_STAT_STATE 6 |>.modChain (fun c => { c with rejoin := 2 })
       s.chSt = C_SEGHEAD ∧ s.chain.rejoin = 2)
    ∧ (let s : State := up
       s.Takes .pcie MSC R.MSC_MSG_TX_GO)
    ∧ (let s : State := up
       s.Takes .pcie MSC R.MSC_MSG_RX_POP) := by
  refine ⟨?_, ?_, ?_, ?_, ?_, ?_, ?_⟩ <;> decide +kernel

/-- The hypotheses of Obligations.ChannelAndSiteSettings can be met, clause by clause. -/
theorem witness_ChannelAndSiteSettings :
    (let s : State := State.reset
     (0 = if 0 < 512 then 0 / 32 else 0 - 512) ∧
     (s.rd (CH 0) R.CH_CSTAT_PEND = 0 ∨ s.stepOn 0 = true ∨ 512 ≤ 0 ∧ (s.chan 0).serves ≠ none))
    ∧ (let s : State := State.reset |>.wr (CH 0) R.CH_CSTAT_PEND 1
       (0 = if 0 < 512 then 0 / 32 else 0 - 512) ∧ s.rd (CH 0) R.CH_CSTAT_PEND = 1 ∧ s.stepOn 0 = false ∧
       (0 < 512 ∨ (s.chan 0).serves = none))
    ∧ (let s : State := State.reset
       ((s.grp 0).on = false ∨ s.stepOn 0 = true))
    ∧ (let s : State := running
       (s.grp 0).on = true ∧ s.stepOn 0 = false)
    ∧ (let s : State := State.reset
       (s.chan 0).swing = none)
    ∧ (let s : State := State.reset
       ((s.chan 0).swing = none ∨ s.stepOn (0 / 32) = false))
    ∧ (let s : State := State.reset |>.modChan 0 (fun x => { x with swing := some true }) |>.modGrp 0 (fun x => { x with cur := some { steps := [{ handle := 0, sites := 1 }] } })
       (s.chan 0).swing = some true ∧ (s.roll (0 / 32)).step = 0 ∧ s.stepOn (0 / 32) = true)
    ∧ (let s : State := State.reset |>.modChan 0 (fun x => { x with swing := some true })
       (s.chan 0).swing = some true ∧ (s.roll (0 / 32)).step = 0 ∧ s.stepOn (0 / 32) = false)
    ∧ (let s : State := State.reset |>.modChan 0 (fun x => { x with swing := some false })
       (s.chan 0).swing = some false ∧ (s.roll (0 / 32)).step = 0 ∧ s.stepOn (0 / 32) = false) := by
  refine ⟨?_, ?_, ?_, ?_, ?_, ?_, ?_, ?_, ?_⟩ <;> decide +kernel

/-- The hypotheses of Obligations.SamplesEnterTheFifo can be met, clause by clause. -/
theorem witness_SamplesEnterTheFifo :
    (let s : State := State.reset
     let g : Nat := 0 / 32
     let set : Bool := (s.setsOn g).testBit (0 % 32)
     set = false)
    ∧ (let s : State := running |>.modCal (fun c => { c with run := true, groups := 1 }) |>.modChan 0 (fun x => { x with inf := [(0, 0xFFFFFFFF)] })
       let g : Nat := 0 / 32
       let set : Bool := (s.setsOn g).testBit (0 % 32)
       let conv : Bool := s.infF (0) R.CH_CMODE_MODE != 0 && s.infF (0) R.CH_CMODE_ADCEN != 0
       set = true ∧ conv = true) := by
  refine ⟨?_, ?_⟩ <;> decide +kernel

/-- The hypotheses of Obligations.TestStepsStartAndEnd can be met, clause by clause. -/
theorem witness_TestStepsStartAndEnd :
    (let s : State := State.reset
     (s.stepOn 0 = true ∨ (s.grp 0).on = false ∨ (s.grp 0).replay ≠ [] ∨ (s.grp 0).steps = []))
    ∧ (let s : State := inMode MODE_ARMED |>.wr (GS 0) R.GS_PCFG_WIDTH 8 |>.modGrp 0 (fun x => { x with on := true, siteCfg := [1, 0, 0, 0], steps := [{ sites := 1 }] })
       let u : TStep := ((s.grp 0).steps).headD {}
       (s.grp 0).steps = [u] ∧ s.stepOn 0 = false ∧ (s.grp 0).on = true ∧ (s.grp 0).replay = [] ∧
       s.stepReady (0) u = true ∧ s.throttle < 2)
    ∧ (let s : State := State.reset |>.modGrp 0 (fun x => { x with steps := [{ handle := 0, sites := 1 }] }) |>.modGrp 0 (fun x => { x with on := true })
       let u : TStep := ((s.grp 0).steps).headD {}
       (s.grp 0).steps = [u] ∧ s.stepOn 0 = false ∧ (s.grp 0).on = true ∧ (s.grp 0).replay = [] ∧
       s.stepWaits (0) u = true ∧ s.throttle < 3 ∧ s.t2Waits (0) u.sites = false)
    ∧ (let s : State := State.reset |>.modGrp 0 (fun x => { x with steps := [{ handle := 0, sites := 1 }] }) |>.modGrp 0 (fun x => { x with on := true }) |>.wr GLB R.GLB_MODE_CUR 4
       let u : TStep := ((s.grp 0).steps).headD {}
       (s.grp 0).steps = [u] ∧ s.stepOn 0 = false ∧ (s.grp 0).on = true ∧ (s.grp 0).replay = [] ∧
       s.stepWaits (0) u = false ∧ s.stepSetup (0) u = true)
    ∧ (let s : State := State.reset
       (s.grp 0).cur = none)
    ∧ (let s : State := State.reset |>.modGrp 0 (fun x => { x with pat := [(3, 160)], cur := some { steps := [{ handle := 0, sites := 1 }] } })
       let st : Machine.Stream := ((s.grp 0).cur).getD {}
       (s.grp 0).cur = some st ∧ lineOp ((s.grp 0).line st.line) = 10 ∧ s.is (GS 0) R.GS_PSTAT_FHOLD = false ∧
       (s.grp 0).cmp.length < 512) := by
  refine ⟨?_, ?_, ?_, ?_, ?_, ?_⟩ <;> decide +kernel

/-- The hypotheses of Obligations.PatternMicroOperations can be met, clause by clause. -/
theorem witness_PatternMicroOperations :
    (let s : State := State.reset
     let g : Fin 16 := 0
     let f : Word := 0x0#32
     let c : Word := 0x0#32
     let st : Bool := false
     let i : Instr := Instr.patNext 0 0x0#32 0x0#32 false
     (i, 0) ∈ [(Instr.patNext g f c st, 0), (Instr.patRepeat g f c st, 1), (Instr.patLset g f c st, 2), (Instr.patLend g f c st, 3), (Instr.patJump g f c st, 4), (Instr.patMatch g f c st, 5), (Instr.patRadv g f c st, 6), (Instr.patMark g f c st, 7), (Instr.patWait g f c st, 8), (Instr.patNorpl g f c st, 9), (Instr.patHalt g f c st, 10)] ∧
     ((s.grp 0).cur = none ∨ s.is (GS 0) R.GS_PSTAT_FHOLD = true ∨ 512 ≤ (s.grp 0).cmp.length ∨ ∀ (x : Machine.Stream), (s.grp 0).cur = some x → lineOp ((s.grp 0).line x.line) ≠ 0))
    ∧ (let s : State := State.reset |>.modGrp 0 (fun x => { x with pat := [(3, 16)], cur := some { steps := [{ handle := 0, sites := 1 }] } })
       let st : Machine.Stream := ((s.grp 0).cur).getD {}
       let l : List Word := (s.grp 0).line st.line
       (s.grp 0).cur = some st ∧ st.line < 131071 ∧ s.is (GS 0) R.GS_PSTAT_FHOLD = false ∧ (s.grp 0).cmp.length < 512 ∧
       lineOp l = 1)
    ∧ (let s : State := State.reset |>.modGrp 0 (fun x => { x with pat := [(3, 32)], cur := some { steps := [{ handle := 0, sites := 1 }] } })
       let st : Machine.Stream := ((s.grp 0).cur).getD {}
       let l : List Word := (s.grp 0).line st.line
       (s.grp 0).cur = some st ∧ st.line < 131071 ∧ s.is (GS 0) R.GS_PSTAT_FHOLD = false ∧ (s.grp 0).cmp.length < 512 ∧
       lineOp l = 2)
    ∧ (let s : State := State.reset |>.modGrp 0 (fun x => { x with pat := [(3, 48)], cur := some { steps := [{ handle := 0, sites := 1 }] } })
       let st : Machine.Stream := ((s.grp 0).cur).getD {}
       let l : List Word := (s.grp 0).line st.line
       (s.grp 0).cur = some st ∧ st.line < 131071 ∧ s.is (GS 0) R.GS_PSTAT_FHOLD = false ∧ (s.grp 0).cmp.length < 512 ∧
       lineOp l = 3)
    ∧ (let s : State := State.reset |>.modGrp 0 (fun x => { x with pat := [(3, 64)], cur := some { steps := [{ handle := 0, sites := 1 }] } })
       let st : Machine.Stream := ((s.grp 0).cur).getD {}
       let l : List Word := (s.grp 0).line st.line
       (s.grp 0).cur = some st ∧ st.line < 131071 ∧ s.is (GS 0) R.GS_PSTAT_FHOLD = false ∧ (s.grp 0).cmp.length < 512 ∧
       lineOp l = 4)
    ∧ (let s : State := running |>.wr (GS 0) R.GS_PCFG_WIDTH 8 |>.modChan 0 (fun x => { x with inf := [(0, 2)] }) |>.modGrp 0 (fun x => { x with pat := [(0, 2), (3, 336)], cur := some { steps := [{ sites := 1 }] } })
       let st : Machine.Stream := ((s.grp 0).cur).getD {}
       let l : List Word := (s.grp 0).line st.line
       let arg : Nat := lineArg l
       let f : Word := 1
       let en : Nat := (s.grp 0).enabled
       (s.grp 0).cur = some st ∧ st.line < 131071 ∧ s.is (GS 0) R.GS_PSTAT_FHOLD = false ∧ (s.grp 0).cmp.length < 512 ∧
       lineOp l = 5 ∧ (st.matched ||| s.matchedNow (0) en l (BitVec.toNat f)) &&& en ≠ en ∧ st.rep.getD arg ≠ 0)
    ∧ (let s : State := State.reset |>.modGrp 0 (fun x => { x with pat := [(3, 96)], cur := some { steps := [{ handle := 0, sites := 1 }] } })
       let st : Machine.Stream := ((s.grp 0).cur).getD {}
       let l : List Word := (s.grp 0).line st.line
       (s.grp 0).cur = some st ∧ st.line < 131071 ∧ s.is (GS 0) R.GS_PSTAT_FHOLD = false ∧ (s.grp 0).cmp.length < 512 ∧
       lineOp l = 6 ∧ (s.grp 0).route = none)
    ∧ (let s : State := State.reset |>.modGrp 0 (fun x => { x with pat := [(3, 112)], cur := some { steps := [{ handle := 0, sites := 1 }] } })
       let st : Machine.Stream := ((s.grp 0).cur).getD {}
       let l : List Word := (s.grp 0).line st.line
       (s.grp 0).cur = some st ∧ st.line < 131071 ∧ s.is (GS 0) R.GS_PSTAT_FHOLD = false ∧ (s.grp 0).cmp.length < 512 ∧
       lineOp l = 7)
    ∧ (let s : State := State.reset |>.modGrp 0 (fun x => { x with pat := [(3, 128)], cur := some { steps := [{ handle := 0, sites := 1 }] } })
       let st : Machine.Stream := ((s.grp 0).cur).getD {}
       let l : List Word := (s.grp 0).line st.line
       (s.grp 0).cur = some st ∧ st.line < 131071 ∧ s.is (GS 0) R.GS_PSTAT_FHOLD = false ∧ (s.grp 0).cmp.length < 512 ∧
       lineOp l = 8)
    ∧ (let s : State := State.reset |>.modGrp 0 (fun x => { x with pat := [(3, 144)], cur := some { steps := [{ handle := 0, sites := 1 }] } })
       let st : Machine.Stream := ((s.grp 0).cur).getD {}
       let l : List Word := (s.grp 0).line st.line
       (s.grp 0).cur = some st ∧ st.line < 131071 ∧ s.is (GS 0) R.GS_PSTAT_FHOLD = false ∧ (s.grp 0).cmp.length < 512 ∧
       lineOp l = 9)
    ∧ (let s : State := running |>.wr (GS 0) R.GS_PCFG_WIDTH 8 |>.modChan 0 (fun x => { x with inf := [(0, 2)] }) |>.modGrp 0 (fun x => { x with pat := [(0, 2), (3, 0)], cur := some { steps := [{ sites := 1 }] } })
       let st : Machine.Stream := ((s.grp 0).cur).getD {}
       let l : List Word := (s.grp 0).line st.line
       let f : Word := 1
       (s.grp 0).cur = some st ∧ st.line < 131071 ∧ s.is (GS 0) R.GS_PSTAT_FHOLD = false ∧ (s.grp 0).cmp.length < 512 ∧
       lineOp l = 0 ∧ (0, 0) ∈ s.compares (0) (0) l ∧ bitOf st.sites 0 = true ∧ bitOf (BitVec.toNat f) 0 = true) := by
  refine ⟨?_, ?_, ?_, ?_, ?_, ?_, ?_, ?_, ?_, ?_, ?_⟩ <;> decide +kernel

/-- The hypotheses of Obligations.CompareFifoAndPatternMailbox can be met, clause by clause. -/
theorem witness_CompareFifoAndPatternMailbox :
    (let s : State := State.reset
     let full : Bool := s.stepOn 0 && decide (512 ≤ (s.grp 0).cmp.length) && !s.is (GS 0) R.GS_PSTAT_FHOLD
     full = false)
    ∧ (let s : State := running |>.modGrp 0 (fun x => { x with cur := some {}, cmp := List.replicate 512 {} })
       let full : Bool := s.stepOn 0 && decide (512 ≤ (s.grp 0).cmp.length) && !s.is (GS 0) R.GS_PSTAT_FHOLD
       full = true)
    ∧ (let s : State := State.reset
       (s.grp 0).cmp = [])
    ∧ (let s : State := State.reset |>.modGrp 0 (fun x => { x with cmp := [{ site := 0, fails := 1 }] })
       let r : CmpResult := { site := 0, index := 0, vector := 0, fails := 1 }
       let rest : List CmpResult := []
       let p : Nat := s.physEng (32 * 0 + (s.grp 0).siteLead r.site)
       let y : Engine := s.eng p
       (s.grp 0).cmp = r :: rest ∧ (y.live = false ∨ 512 < y.inboxWords + 5))
    ∧ (let s : State := State.reset |>.modGrp 0 (fun x => { x with cmp := [{ site := 0, fails := 1 }] }) |>.modEng 0 (fun x => { x with st := 2 })
       let r : CmpResult := { site := 0, index := 0, vector := 0, fails := 1 }
       let rest : List CmpResult := []
       let p : Nat := s.physEng (32 * 0 + (s.grp 0).siteLead r.site)
       let y : Engine := s.eng p
       (s.grp 0).cmp = r :: rest ∧ y.live = true ∧ y.inboxWords + 5 ≤ 512)
    ∧ (let s : State := running
       let l : List Word := List.map (fun j => s.word (GS 0 + R.GS_PMB_D0.off + 4 * j)) (List.range 4)
       let res : Nat := s.lineResult (0) l
       s.Takes .pcie (GS 0) R.GS_PMB_CTRL_GO ∧ res = 0)
    ∧ (let s : State := up
       let l : List Word := List.map (fun j => s.word (GS 0 + R.GS_PMB_D0.off + 4 * j)) (List.range 4)
       let res : Nat := s.lineResult (0) l
       s.Takes .pcie (GS 0) R.GS_PMB_CTRL_GO ∧ res ≠ 0)
    ∧ (let s : State := State.reset
       let x : Box := { busy := false, result := 0, q := [], op := 0, aux := 0 }
       s.box (GS 0 + R.GS_PMB_CTRL_GO.off) = x ∧ x.busy = false)
    ∧ (let s : State := State.reset |>.setBox (GS 0 + R.GS_PMB_CTRL_GO.off) { busy := true, q := [] }
       let x : Box := { busy := true, result := 0, q := [], op := 0, aux := 0 }
       s.box (GS 0 + R.GS_PMB_CTRL_GO.off) = x ∧ x.busy = true ∧ x.q.length ≤ 4) := by
  refine ⟨?_, ?_, ?_, ?_, ?_, ?_, ?_, ?_, ?_⟩ <;> decide +kernel

/-- The hypotheses of Obligations.EngineRegisterResults can be met, clause by clause. -/
theorem witness_EngineRegisterResults :
    (let x : Engine := (issuing 0x04000000).eng 0
     x.Issues 1 16383 ∧ x.fall.pc < 1024)
    ∧ (let s : State := State.reset |>.modEng 0 (fun x => { x with on := true, st := E_RUN, prog := [(0, 0x6C000000)] })
       let x : Engine := s.eng 0
       x.Issues 27 262143 ∧ x.fall.pc < 1024 ∧ fieldA x.insn ≤ 3)
    ∧ (let s : State := State.reset |>.modEng 0 (fun x => { x with on := true, st := E_RUN, prog := [(0, 0x6C100000)] })
       let x : Engine := s.eng 0
       x.Issues 27 262143 ∧ x.fall.pc < 1024 ∧ 3 < fieldA x.insn)
    ∧ (let s : State := State.reset |>.modEng 0 (fun x => { x with on := true, st := E_RUN, prog := [(0, 0x58000000)] })
       let x : Engine := s.eng 0
       let n : Nat := getBits x.insn 0 6
       x.Issues 22 4194240 ∧ x.fall.pc < 1024 ∧ n ≤ 20)
    ∧ (let s : State := issuing 0x58000015
       let x : Engine := s.eng 0
       let n : Nat := getBits x.insn 0 6
       x.Issues 22 4194240 ∧ x.fall.pc < 1024 ∧ 20 < n) := by
  refine ⟨?_, ?_, ?_, ?_, ?_⟩ <;> decide +kernel

/-- The hypotheses of Obligations.EngineComparesBranchesAndLoops can be met, clause by clause. -/
theorem witness_EngineComparesBranchesAndLoops :
    (let s : State := State.reset |>.modEng 0 (fun x => { x with on := true, st := E_RUN, prog := [(0, 0x0)] })
     let x : Engine := s.eng 0
     x.fall.pc < 1024 ∧ x.Issues 0 67108863)
    ∧ (let s : State := issuing 0x30C00000
       let x : Engine := s.eng 0
       x.fall.pc < 1024 ∧ x.Issues 12 8191 ∧ 5 < getBits x.insn 21 3)
    ∧ (let s : State := issuing 0x32A00000
       let x : Engine := s.eng 0
       x.fall.pc < 1024 ∧ x.Issues 12 8191 ∧ getBits x.insn 21 3 = 5 ∧ getBits x.insn 24 2 = 2)
    ∧ (let s : State := issuing 0x8F000000
       let x : Engine := s.eng 0
       let q : Nat := getBits x.insn 24 2
       x.fall.pc < 1024 ∧ x.Issues 35 14811135 ∧ q = 3)
    ∧ (let s : State := State.reset |>.modEng 0 (fun x => { x with on := true, st := E_RUN, prog := [(0, 0x8C000000)] })
       let x : Engine := s.eng 0
       let q : Nat := getBits x.insn 24 2
       x.fall.pc < 1024 ∧ x.Issues 35 14811135 ∧ q < 3)
    ∧ (let s : State := issuing 0x40C00000
       let x : Engine := s.eng 0
       let a : Nat := getBits x.insn 22 1
       x.fall.pc < 1024 ∧ x.Issues 16 4193280 ∧ a = 1 ∧ getBits x.insn 23 3 ≠ 0)
    ∧ (let s : State := State.reset |>.modEng 0 (fun x => { x with on := true, st := E_RUN, prog := [(0, 0x40000000)] })
       let x : Engine := s.eng 0
       let a : Nat := getBits x.insn 22 1
       x.fall.pc < 1024 ∧ x.Issues 16 4193280 ∧ (a = 0 ∨ getBits x.insn 23 3 = 0))
    ∧ (let s : State := State.reset |>.modEng 0 (fun x => { x with on := true, st := E_RUN, prog := [(0, 0x44000000)] })
       let x : Engine := s.eng 0
       x.Issues 17 67107840)
    ∧ (let s : State := State.reset |>.modEng 0 (fun x => { x with on := true, st := E_RUN, prog := [(0, 0x48000000)] })
       let x : Engine := s.eng 0
       x.Issues 18 67108863 ∧ x.ret = [])
    ∧ (let s : State := State.reset |>.modEng 0 (fun x => { x with on := true, st := E_RUN, prog := [(0, 0x48000000)] }) |>.modEng 0 (fun x => { x with ret := [3] })
       let x : Engine := s.eng 0
       let r : List Nat := []
       x.Issues 18 67108863 ∧ x.ret = 3 :: r ∧ 3 < 1024)
    ∧ (let s : State := State.reset |>.modEng 0 (fun x => { x with on := true, st := E_RUN, prog := [(0, 0x4C000000)] })
       let p : Fin 528 := 0
       let x : Engine := s.eng 0
       let r : Instr × Nat × Nat × Nat := (Instr.engLoop 0, 19, 29621248, 0)
       let c : Nat := getBits x.insn 25 1
       let e : Nat := getBits x.insn 0 10
       let used : Bool := if c = 0 then x.loop0.isSome else x.loop1.isSome
       r ∈ [(Instr.engLoop p, 19, 29621248, BitVec.toNat (x.gr (fieldA x.insn))), (Instr.engLoopi p, 20, 0, getBits x.insn 10 15)] ∧
       x.Issues r.snd.fst r.snd.snd.fst ∧ (used = true ∨ e ≤ x.pc))
    ∧ (let s : State := issuing 0x50000005
       let x : Engine := s.eng 0
       x.Issues 20 0 ∧ x.loop0 = none ∧ x.pc < getBits x.insn 0 10 ∧ getBits x.insn 10 15 = 0 ∧
       getBits x.insn 0 10 < 1023)
    ∧ (let s : State := issuing 0x50000405
       let x : Engine := s.eng 0
       x.Issues 20 0 ∧ x.loop0 = none ∧ x.pc < getBits x.insn 0 10 ∧ getBits x.insn 10 15 ≠ 0 ∧
       Engine.pc ({ x with loop0 := some (1, 5, 1) } : Engine).fall < 1024)
    ∧ (let s : State := State.reset |>.modEng 0 (fun x => { x with on := true, st := E_RUN, prog := [(0, 0x54000000)] })
       let x : Engine := s.eng 0
       x.Issues 21 67108863)
    ∧ (let x : Engine := {}
       x.loop1 = none ∧ x.loop0 = none)
    ∧ (let x : Engine := { loop0 := some (0, 0, 2) }
       x.loop1 = none ∧ x.loop0 = some (0, x.pc, 2))
    ∧ (let x : Engine := { loop0 := some (0, 3, 2) }
       x.loop1 = none ∧ x.loop0 = some (0, 3, 2) ∧ 3 ≠ x.pc) := by
  refine ⟨?_, ?_, ?_, ?_, ?_, ?_, ?_, ?_, ?_, ?_, ?_, ?_, ?_, ?_, ?_, ?_, ?_⟩ <;> decide +kernel

/-- The hypotheses of Obligations.EngineMemoryAndAccumulators can be met, clause by clause. -/
theorem witness_EngineMemoryAndAccumulators :
    (let s : State := State.reset |>.modEng 0 (fun x => { x with on := true, st := E_RUN, prog := [(0, 0x38000000)] })
     let x : Engine := s.eng 0
     let w : Word := x.insn
     let a : Word := x.gr (fieldA w) + BitVec.ofInt 32 (toSigned 18 (getBits w 0 18))
     let okA : Prop := BitVec.toNat a % 4 = 0 ∧ BitVec.toNat a ≤ 8188
     x.fall.pc < 1024 ∧ x.Issues 14 0 ∧ okA)
    ∧ (let s : State := State.reset |>.modEng 0 (fun x => { x with on := true, st := E_RUN, prog := [(0, 0x38040003)] })
       let x : Engine := s.eng 0
       let w : Word := x.insn
       let a : Word := x.gr (fieldA w) + BitVec.ofInt 32 (toSigned 18 (getBits w 0 18))
       let okA : Prop := BitVec.toNat a % 4 = 0 ∧ BitVec.toNat a ≤ 8188
       x.fall.pc < 1024 ∧ x.Issues 14 0 ∧ ¬okA)
    ∧ (let s : State := State.reset |>.modEng 0 (fun x => { x with on := true, st := E_RUN, prog := [(0, 0x3C000000)] })
       let x : Engine := s.eng 0
       let w : Word := x.insn
       let a : Word := x.gr (fieldA w) + BitVec.ofInt 32 (toSigned 18 (getBits w 0 18))
       let okA : Prop := BitVec.toNat a % 4 = 0 ∧ BitVec.toNat a ≤ 8188
       x.fall.pc < 1024 ∧ x.Issues 15 0 ∧ okA)
    ∧ (let s : State := State.reset |>.modEng 0 (fun x => { x with on := true, st := E_RUN, prog := [(0, 0x3C040003)] })
       let x : Engine := s.eng 0
       let w : Word := x.insn
       let a : Word := x.gr (fieldA w) + BitVec.ofInt 32 (toSigned 18 (getBits w 0 18))
       let okA : Prop := BitVec.toNat a % 4 = 0 ∧ BitVec.toNat a ≤ 8188
       x.fall.pc < 1024 ∧ x.Issues 15 0 ∧ ¬okA)
    ∧ (let s : State := issuing 0x65000000
       let x : Engine := s.eng 0
       let w : Word := x.insn
       let k : Nat := fieldD w
       x.fall.pc < 1024 ∧ x.Issues 25 16383 ∧ 3 < k)
    ∧ (let s : State := State.reset |>.modEng 0 (fun x => { x with on := true, st := E_RUN, prog := [(0, 0x64000000)] })
       let x : Engine := s.eng 0
       let w : Word := x.insn
       let k : Nat := fieldD w
       x.fall.pc < 1024 ∧ x.Issues 25 16383 ∧ k ≤ 3)
    ∧ (let s : State := issuing 0x69000000
       let x : Engine := s.eng 0
       let w : Word := x.insn
       let k : Nat := fieldD w
       x.fall.pc < 1024 ∧ x.Issues 26 0 ∧ 3 < k)
    ∧ (let s : State := State.reset |>.modEng 0 (fun x => { x with on := true, st := E_RUN, prog := [(0, 0x68040003)] })
       let x : Engine := s.eng 0
       let w : Word := x.insn
       let a : Word := x.gr (fieldA w) + BitVec.ofInt 32 (toSigned 18 (getBits w 0 18))
       let k : Nat := fieldD w
       x.fall.pc < 1024 ∧ x.Issues 26 0 ∧ k ≤ 3 ∧ (¬(BitVec.toNat a % 4 = 0 ∧ BitVec.toNat a ≤ 8184)))
    ∧ (let s : State := State.reset |>.modEng 0 (fun x => { x with on := true, st := E_RUN, prog := [(0, 0x68000000)] })
       let x : Engine := s.eng 0
       let w : Word := x.insn
       let a : Word := x.gr (fieldA w) + BitVec.ofInt 32 (toSigned 18 (getBits w 0 18))
       let k : Nat := fieldD w
       x.fall.pc < 1024 ∧ x.Issues 26 0 ∧ k ≤ 3 ∧ BitVec.toNat a % 4 = 0 ∧ BitVec.toNat a ≤ 8184)
    ∧ (let s : State := State.reset |>.modEng 0 (fun x => { x with on := true, st := E_RUN, prog := [(0, 0x60000000)] })
       let x : Engine := s.eng 0
       x.fall.pc < 1024 ∧ x.Issues 24 4128769)
    ∧ (let s : State := issuing 0x5C000015
       let x : Engine := s.eng 0
       let w : Word := x.insn
       let n : Nat := getBits w 0 6
       x.fall.pc < 1024 ∧ x.Issues 23 63176640 ∧ 20 < n)
    ∧ (let s : State := State.reset |>.modEng 0 (fun x => { x with on := true, st := E_RUN, prog := [(0, 0x5C000000)] })
       let x : Engine := s.eng 0
       let w : Word := x.insn
       let n : Nat := getBits w 0 6
       x.fall.pc < 1024 ∧ x.Issues 23 63176640 ∧ n ≤ 20)
    ∧ (let s : State := State.reset |>.modEng 0 (fun x => { x with on := true, st := E_RUN, prog := [(0, 0x80000000)] })
       let x : Engine := s.eng 0
       x.fall.pc < 1024 ∧ x.Issues 32 63176703)
    ∧ (let s : State := State.reset |>.modEng 0 (fun x => { x with on := true, st := E_RUN, prog := [(0, 0x88000000)] })
       let x : Engine := s.eng 0
       x.fall.pc < 1024 ∧ x.Issues 34 63176703) := by
  refine ⟨?_, ?_, ?_, ?_, ?_, ?_, ?_, ?_, ?_, ?_, ?_, ?_, ?_, ?_⟩ <;> decide +kernel

/-- The hypotheses of Obligations.EngineStreams can be met, clause by clause. -/
theorem witness_EngineStreams :
    (let s : State := issuing 0x70000000
     let x : Engine := s.eng 0
     x.fall.pc < 1024 ∧ x.Issues 28 4194303 ∧ x.fifo = [])
    ∧ (let s : State := issuing 0x74000000 |>.modEng 0 (fun x => { x with fifo := [{ mark := true }] })
       let x : Engine := s.eng 0
       x.fall.pc < 1024 ∧ x.Issues 29 4194303 ∧ fieldD x.insn ≤ 1 ∧ s.variant.coh = true ∧ x.fifo = [{ mark := true }])
    ∧ (let s : State := issuing 0x74000000 |>.modEng 0 (fun x => { x with fifo := [{ s := 4 }] })
       let x : Engine := s.eng 0
       x.fall.pc < 1024 ∧ x.Issues 29 4194303 ∧ fieldD x.insn ≤ 1 ∧ s.variant.coh = true ∧ x.fifo = [{ s := 4 }])
    ∧ (let s : State := State.reset |>.modEng 0 (fun x => { x with on := true, st := E_RUN, prog := [(0, 0x70000000)] }) |>.modEng 0 (fun x => { x with fifo := [{ s := 4 }] })
       let x : Engine := s.eng 0
       let e : Entry := { mark := false, code := 0, s := 4, phase := 0, rst := false, unset := false, coast := false, cont := false, sat := false, susp := false, freq := 0, vcnt := 0 }
       let l : List Entry := []
       x.fall.pc < 1024 ∧ x.Issues 28 4194303 ∧ x.fifo = e :: l ∧ e.mark = false)
    ∧ (let s : State := issuing 0x74800000
       let x : Engine := s.eng 0
       x.fall.pc < 1024 ∧ x.Issues 29 4194303 ∧ ¬ fieldD x.insn ≤ 1)
    ∧ (let s : State := State.reset |>.modEng 0 (fun x => { x with on := true, st := E_RUN, prog := [(0, 0x74000000)] }) |>.modEng 0 (fun x => { x with fifo := [{ s := 4 }] })
       let x : Engine := s.eng 0
       let w : Word := x.insn
       let lki : Prop := fieldD w ≤ 1 ∧ s.variant.coh = true
       let e : Entry := { mark := false, code := 0, s := 4, phase := 0, rst := false, unset := false, coast := false, cont := false, sat := false, susp := false, freq := 0, vcnt := 0 }
       let l : List Entry := []
       x.fall.pc < 1024 ∧ x.Issues 29 4194303 ∧ lki ∧ x.fifo = e :: l ∧ e.mark = false)
    ∧ (let s : State := State.reset |>.modEng 0 (fun x => { x with on := true, st := E_RUN, prog := [(0, 0x78000000)] })
       let x : Engine := s.eng 0
       let w : Word := x.insn
       let n : Nat := x.skipLeft.getD (BitVec.toNat (x.gr (fieldA w)))
       x.fall.pc < 1024 ∧ x.Issues 30 63176703 ∧ (n ≤ beforeMark x.fifo ∨ beforeMark x.fifo < x.fifo.length))
    ∧ (let s : State := State.reset |>.modEng 0 (fun x => { x with on := true, st := E_RUN, prog := [(0, 0x78000000)] }) |>.modEng 0 (fun x => { x with skipLeft := some 1 })
       let x : Engine := s.eng 0
       let w : Word := x.insn
       let n : Nat := x.skipLeft.getD (BitVec.toNat (x.gr (fieldA w)))
       x.fall.pc < 1024 ∧ x.Issues 30 63176703 ∧ beforeMark x.fifo = x.fifo.length ∧ x.fifo.length < n)
    ∧ (let s : State := State.reset |>.modEng 0 (fun x => { x with on := true, st := E_RUN, prog := [(0, 0x7C000000)] })
       let x : Engine := s.eng 0
       let k : Nat := beforeMark x.fifo
       x.fall.pc < 1024 ∧ x.Issues 31 4194303 ∧ k = x.fifo.length)
    ∧ (let s : State := State.reset |>.modEng 0 (fun x => { x with on := true, st := E_RUN, prog := [(0, 0x7C000000)] }) |>.modEng 0 (fun x => { x with fifo := [{ mark := true, code := 5 }, { s := 4 }] })
       let x : Engine := s.eng 0
       let k : Nat := beforeMark x.fifo
       let e : Entry := { mark := true, code := 5, s := 0, phase := 0, rst := false, unset := false, coast := false, cont := false, sat := false, susp := false, freq := 0, vcnt := 0 }
       x.fall.pc < 1024 ∧ x.Issues 31 4194303 ∧ x.fifo[k]? = some e)
    ∧ (let s : State := State.reset |>.modEng 0 (fun x => { x with on := true, st := E_RUN, prog := [(0, 0x90000000)] })
       let x : Engine := s.eng 0
       x.fall.pc < 1024 ∧ x.Issues 36 262143 ∧ x.inbox = [])
    ∧ (let s : State := State.reset |>.modEng 0 (fun x => { x with on := true, st := E_RUN, prog := [(0, 0x90000000)] }) |>.modEng 0 (fun x => { x with inbox := [[5, 6]] })
       let x : Engine := s.eng 0
       let r : List Word := [0x5#32, 0x6#32]
       let l : List (List Word) := []
       x.fall.pc < 1024 ∧ x.Issues 36 262143 ∧ x.inbox = r :: l)
    ∧ (let s : State := State.reset |>.modEng 0 (fun x => { x with on := true, st := E_RUN, prog := [(0, 0x9C000000)] })
       let x : Engine := s.eng 0
       x.fall.pc < 1024 ∧ x.Issues 39 4194303 ∧ x.cfifo = [])
    ∧ (let s : State := State.reset |>.modEng 0 (fun x => { x with on := true, st := E_RUN, prog := [(0, 0x9C000000)] }) |>.modEng 0 (fun x => { x with cfifo := [7] })
       let x : Engine := s.eng 0
       let v : Word := 0x7#32
       let l : List Word := []
       x.fall.pc < 1024 ∧ x.Issues 39 4194303 ∧ x.cfifo = v :: l)
    ∧ (let s : State := State.reset |>.modEng 0 (fun x => { x with on := true, st := E_RUN, prog := [(0, 0x98000000)] })
       let x : Engine := s.eng 0
       let g : Nat := s.logEng 0 / 32
       x.fall.pc < 1024 ∧ x.Issues 38 67108863 ∧ (s.grp g).route = none) := by
  refine ⟨?_, ?_, ?_, ?_, ?_, ?_, ?_, ?_, ?_, ?_, ?_, ?_, ?_, ?_, ?_⟩ <;> decide +kernel

/-- The hypotheses of Obligations.ProgramStartSetsTheEngine can be met. -/
theorem witness_ProgramStartSetsTheEngine :
    let s : State := State.reset |>.modEng 0 (fun x => { x with req := some { entry := 5 } }) |>.wr GLB R.GLB_MODE_CUR 3
    let x : Engine := s.eng 0
    let q : StartReq := { entry := 5, args := [], handle := none }
    x.req = some q ∧ x.crcBusy = false ∧ s.imageOk 0 = true ∧ (q.handle.isSome = true → q.args.length = 8) ∧
    (q.handle = none → (s.mode = MODE_CONFIGURE ∨ s.mode = MODE_ARMED) ∧ x.live = false ∧ s.cmdOn (s.logEng 0 / 32) = false) := by
  decide +kernel

/-- The hypotheses of Obligations.StreamInstructionsStopAtMarks can be met, clause by clause. -/
theorem witness_StreamInstructionsStopAtMarks :
    (let s : State := State.reset |>.modEng 0 (fun x => { x with on := true, st := E_RUN, prog := [(0, 0x70000000)] })
     let p : Fin 528 := 0
     let x : Engine := s.eng 0
     let r : Instr × Nat × Nat := (Instr.engPop 0, 28, 4194303)
     x.fall.pc < 1024 ∧
     r ∈ [(Instr.engPop p, 28, 4194303), (Instr.engLki p, 29, 4194303), (Instr.engSkip p, 30, 63176703)] ∧
     x.Issues r.snd.fst r.snd.snd)
    ∧ (let s : State := State.reset |>.modEng 0 (fun x => { x with on := true, st := E_RUN, prog := [(0, 0x7C000000)] })
       let x : Engine := s.eng 0
       x.fall.pc < 1024 ∧ x.Issues 31 4194303) := by
  refine ⟨?_, ?_⟩ <;> decide +kernel

/-- The hypotheses of Obligations.EngineRequestsRecordsAndWaits can be met, clause by clause. -/
theorem witness_EngineRequestsRecordsAndWaits :
    (let s : State := up |>.modEng 0 (fun x => { x with on := true })
     s.Takes .pcie (ENG (s.physEng 0)) R.ENG_ECTL_START)
    ∧ (let s : State := State.reset |>.modEng 0 (fun x => { x with req := some { entry := 5 } }) |>.modEng 0 (fun x => { x with crcBusy := true })
       let x : Engine := s.eng 0
       let q : StartReq := { entry := 5, args := [], handle := none }
       x.req = some q ∧ x.crcBusy = true)
    ∧ (let s : State := State.reset |>.modEng 0 (fun x => { x with req := some { entry := 5 } })
       let x : Engine := s.eng 0
       let q : StartReq := { entry := 5, args := [], handle := none }
       let no : Nat := firstOf [(!(s.mode == MODE_CONFIGURE || s.mode == MODE_ARMED), 3), (x.live || s.cmdOn (s.logEng 0 / 32), 1)]
       x.req = some q ∧ x.crcBusy = false ∧ q.handle = none ∧ no ≠ 0)
    ∧ (let s : State := up |>.modEng 0 (fun x => { x with on := true }) |>.wr (ENG 0) R.ENG_ECTL_START 1
       let entry : BitVec 10 := 0x1#10
       s.access .pcie = true ∧ s.blockOn (ENG (s.physEng 0) + R.ENG_ECTL_STOP.off) = true ∧
       s.is (ENG (s.physEng 0)) R.ENG_ECTL_START = true ∧ s.rd (ENG (s.physEng 0)) R.ENG_ECTL_ENTRY ≠ entry.toNat)
    ∧ (let s : State := up |>.modEng 0 (fun x => { x with on := true })
       let entry : BitVec 10 := 0x0#10
       s.access .pcie = true ∧ s.blockOn (ENG (s.physEng 0) + R.ENG_ECTL_STOP.off) = true ∧
       (s.is (ENG (s.physEng 0)) R.ENG_ECTL_START = false ∨ s.rd (ENG (s.physEng 0)) R.ENG_ECTL_ENTRY = entry.toNat))
    ∧ (let s : State := up |>.modEng 0 (fun x => { x with on := true }) |>.modEng 0 (fun x => { x with st := 2 })
       let v : Word := 0x0#32
       let p : Nat := s.physEng 0
       let a : Nat := ENG p + if 0 < 1024 then 4096 + 4 * 0 else 8192 + 4 * (0 - 1024)
       let x : Engine := s.eng p
       let old : Word := if 0 < 1024 then Tab.get 0 x.prog 0 else x.dm (0 - 1024)
       s.access .pcie = true ∧ s.blockOn a = true ∧ x.live = true ∧ v = old)
    ∧ (let s : State := up |>.modEng 0 (fun x => { x with on := true })
       let p : Nat := s.physEng 0
       let a : Nat := ENG p + if 0 < 1024 then 4096 + 4 * 0 else 8192 + 4 * (0 - 1024)
       let x : Engine := s.eng p
       s.access .pcie = true ∧ s.blockOn a = true ∧ x.live = false)
    ∧ (let s : State := up |>.modEng 0 (fun x => { x with on := true }) |>.modEng 0 (fun x => { x with st := 2 })
       let v : Word := 0x1#32
       let p : Nat := s.physEng 0
       let a : Nat := ENG p + if 0 < 1024 then 4096 + 4 * 0 else 8192 + 4 * (0 - 1024)
       let x : Engine := s.eng p
       let old : Word := if 0 < 1024 then Tab.get 0 x.prog 0 else x.dm (0 - 1024)
       s.access .pcie = true ∧ s.blockOn a = true ∧ x.live = true ∧ v ≠ old)
    ∧ (let s : State := State.reset |>.modEng 0 (fun x => { x with on := true }) |>.modEng 0 (fun x => { x with crcBusy := true })
       (s.eng 0).on = true ∧ (s.eng 0).crcBusy = true)
    ∧ (let s : State := State.reset |>.modEng 0 (fun x => { x with on := true, st := E_RUN, prog := [(0, 0xC8000000)] })
       let x : Engine := s.eng 0
       x.Issues (opcodeOf x.insn) 0 ∧ 50 ≤ opcodeOf x.insn)
    ∧ (let s : State := State.reset |>.modEng 0 (fun x => { x with on := true, st := E_RUN, prog := [(0, 0x94000000)] })
       let x : Engine := s.eng 0
       let host : Bool := true
       x.Issues 37 16383 ∧ x.fall.pc < 1024 ∧ fieldD x.insn ≠ b2n host ∧ (host = true ∨ fieldD x.insn = 1))
    ∧ (let s : State := State.reset |>.modEng 0 (fun x => { x with on := true, st := E_RUN, prog := [(0, 0x94000000)] })
       let x : Engine := s.eng 0
       let host : Bool := false
       let e : Nat := s.logEng 0
       let n : Nat := BitVec.toNat (x.gr (fieldB x.insn))
       let site : Option Nat := (s.grp (e / 32)).siteOf (e % 32)
       let badLen : Bool := decide (n < 2) || decide ((if host = true then 512 else 16) < n) || !host && site.isNone
       x.Issues 37 16383 ∧ x.fall.pc < 1024 ∧ fieldD x.insn = b2n host ∧ badLen = true)
    ∧ (let s : State := issuing 0x94048000|>.modEng 0 (fun x => { x with g := [(1, 3), (2, 2)] })
       let x : Engine := s.eng 0
       let host : Bool := false
       let e : Nat := s.logEng 0
       let n : Nat := BitVec.toNat (x.gr (fieldB x.insn))
       let site : Option Nat := (s.grp (e / 32)).siteOf (e % 32)
       let badLen : Bool := decide (n < 2) || decide ((if host = true then 512 else 16) < n) || !host && site.isNone
       x.Issues 37 16383 ∧ x.fall.pc < 1024 ∧ fieldD x.insn = b2n host ∧ badLen = false ∧
       dataBlock (x.gr (fieldA x.insn)) n = none)
    ∧ (let s : State := issuing 0x94048000|>.modEng 0 (fun x => { x with g := [(1, 4), (2, 2)], emitter := some {} })
       let x : Engine := s.eng 0
       let host : Bool := false
       let e : Nat := s.logEng 0
       let n : Nat := BitVec.toNat (x.gr (fieldB x.insn))
       let site : Option Nat := (s.grp (e / 32)).siteOf (e % 32)
       let badLen : Bool := decide (n < 2) || decide ((if host = true then 512 else 16) < n) || !host && site.isNone
       x.Issues 37 16383 ∧ x.fall.pc < 1024 ∧ fieldD x.insn = b2n host ∧ badLen = false ∧
       dataBlock (x.gr (fieldA x.insn)) n = some 1 ∧ x.emitter.isSome = true)
    ∧ (let s : State := issuing 0x94448000|>.modEng 0 (fun x => { x with g := [(1, 4), (2, 2)] })
       let x : Engine := s.eng 0
       let host : Bool := true
       let e : Nat := s.logEng 0
       let n : Nat := BitVec.toNat (x.gr (fieldB x.insn))
       let site : Option Nat := (s.grp (e / 32)).siteOf (e % 32)
       let badLen : Bool := decide (n < 2) || decide ((if host = true then 512 else 16) < n) || !host && site.isNone
       x.Issues 37 16383 ∧ x.fall.pc < 1024 ∧ fieldD x.insn = b2n host ∧ badLen = false ∧
       dataBlock (x.gr (fieldA x.insn)) n = some 1 ∧ x.emitter = none)
    ∧ (let s : State := issuing 0x94048000|>.modEng 0 (fun x => { x with g := [(1, 4), (2, 2)] })
       let x : Engine := s.eng 0
       let host : Bool := false
       let e : Nat := s.logEng 0
       let n : Nat := BitVec.toNat (x.gr (fieldB x.insn))
       let site : Option Nat := (s.grp (e / 32)).siteOf (e % 32)
       let badLen : Bool := decide (n < 2) || decide ((if host = true then 512 else 16) < n) || !host && site.isNone
       x.Issues 37 16383 ∧ x.fall.pc < 1024 ∧ fieldD x.insn = b2n host ∧ badLen = false ∧
       dataBlock (x.gr (fieldA x.insn)) n = some 1 ∧ x.emitter = none ∧ x.handle = none)
    ∧ (let s : State := issuing 0x94448000|>.modEng 0 (fun x => { x with g := [(1, 4), (2, 2)], handle := some 0 }) |>.withCmds [{ rlen := 256 }]
       let x : Engine := s.eng 0
       let host : Bool := true
       let e : Nat := s.logEng 0
       let n : Nat := BitVec.toNat (x.gr (fieldB x.insn))
       let site : Option Nat := (s.grp (e / 32)).siteOf (e % 32)
       let badLen : Bool := decide (n < 2) || decide ((if host = true then 512 else 16) < n) || !host && site.isNone
       let c : Cmd := (s.cmd? 0).getD {}
       x.Issues 37 16383 ∧ x.fall.pc < 1024 ∧ fieldD x.insn = b2n host ∧ badLen = false ∧
       dataBlock (x.gr (fieldA x.insn)) n = some 1 ∧ x.emitter = none ∧ x.handle = some 0 ∧ s.cmd? 0 = some c ∧
       s.bufRoom 0 n = true)
    ∧ (let s : State := State.reset |>.modEng 0 (fun x => { x with emitter := some { words := [1, 2] } }) |>.modGrp 0 (fun x => { x with siteMap := [3, 12, 0, 0], siteCfg := [1, 1, 1, 1] }) |>.modEng 0 (fun x => { x with st := 2 })
       let m : Emit := { host := false, words := [0x1#32, 0x2#32], handle := 0, off := 0 }
       let e : Nat := s.logEng 0
       let l : Nat := s.physEng (32 * (e / 32) + (s.grp (e / 32)).siteLead 0)
       (s.eng 0).emitter = some m ∧ m.host = false ∧ (s.grp (e / 32)).siteOf (e % 32) = some 0 ∧ (s.eng l).live = true ∧
       (s.eng l).inboxWords + m.words.length ≤ 512)
    ∧ (let s : State := State.reset |>.modEng 0 (fun x => { x with emitter := some { words := [1, 2] } }) |>.modGrp 0 (fun x => { x with siteMap := [3, 12, 0, 0], siteCfg := [1, 1, 1, 1] })
       let m : Emit := { host := false, words := [0x1#32, 0x2#32], handle := 0, off := 0 }
       let e : Nat := s.logEng 0
       let l : Nat := s.physEng (32 * (e / 32) + (s.grp (e / 32)).siteLead 0)
       (s.eng 0).emitter = some m ∧ m.host = false ∧ (s.grp (e / 32)).siteOf (e % 32) = some 0 ∧
       ((s.eng l).live = false ∨ 512 < (s.eng l).inboxWords + m.words.length))
    ∧ (let s : State := up |>.wr HIF R.HIF_LINK_BME 1 |>.modEng 0 (fun x => { x with emitter := some { host := true, words := [1, 2], handle := 0, off := 16 } })
       let m : Emit := { host := true, words := [0x1#32, 0x2#32], handle := 0, off := 16 }
       s.paused = false ∧ (s.eng 0).emitter = some m ∧ m.host = true)
    ∧ (let s : State := up |>.wr HIF R.HIF_LINK_BME 1 |>.withModRecs [(0, 0, [1])]
       let ws : List Word := [1]
       let rest : List (Nat × Nat × List Word) := []
       s.paused = false ∧ s.modRecs = (0, 0, ws) :: rest)
    ∧ (let s : State := State.reset
       let x : Engine := s.eng 0
       x.st ≠ E_WAIT)
    ∧ (let s : State := issuing 0x9C000000|>.modEng 0 (fun x => { x with st := E_WAIT, cfifo := [7] })
       let x : Engine := s.eng 0
       let v : Word := 7
       let l : List Word := []
       x.st = E_WAIT ∧ x.on = true ∧ x.gated = false ∧ x.brk = none ∧ opcodeOf x.insn = 39 ∧
       BitVec.toNat x.insn &&& 4194303 = 0 ∧ x.fall.pc < 1024 ∧ x.cfifo = v :: l)
    ∧ (let s : State := issuing 0x0|>.modEng 0 (fun x => { x with st := E_WAIT, waitOn := 1 })
       s.starves 0 = true)
    ∧ (let s : State := State.reset
       s.starves 0 = false) := by
  refine ⟨?_, ?_, ?_, ?_, ?_, ?_, ?_, ?_, ?_, ?_, ?_, ?_, ?_, ?_, ?_, ?_, ?_, ?_, ?_, ?_, ?_, ?_, ?_, ?_, ?_⟩ <;> decide +kernel

/-- The hypotheses of Obligations.RingSetUpDoorbellsAndFetch can be met, clause by clause. -/
theorem witness_RingSetUpDoorbellsAndFetch :
    (let s : State := up
     let r : BitVec 5 := 17
     let n : Nat := r.toNat
     s.Takes .pcie HIF R.HIF_RSET_CTRL_GO ∧ 16 < n)
    ∧ (let s : State := up
       let r : BitVec 5 := 0x0#5
       let n : Nat := r.toNat
       s.Takes .pcie HIF R.HIF_RSET_CTRL_GO ∧ n ≤ 16)
    ∧ (let s : State := State.reset |>.setBox (HIF + R.HIF_RSET_CTRL_GO.off) { busy := true, q := [] }
       let a : Nat := HIF + R.HIF_RSET_CTRL_GO.off
       let x : Box := s.box a
       x.busy = true ∧ x.q.length ≤ 7 ∧ x.result < 8)
    ∧ (let s : State := up |>.wr (RB 0) R.HIF_RSTAT_STATE 1
       let v : Word := 0x0#32
       let n : Nat := (s.ring 0).depth
       let old : Nat := s.rd (RB 0) R.HIF_RNEXT_SQTAIL
       let free : Nat := (s.rd (RB 0) R.HIF_RSTAT_SQHEAD + 2 * n - 1 - old) % n
       let up : Prop := s.rstate 0 = RS_ACTIVE ∨ s.rstate 0 = RS_STOPPING
       s.access Src.pcie = true ∧ up ∧ BitVec.toNat v < n ∧ (BitVec.toNat v + n - old % n) % n ≤ free ∧
       BitVec.toNat v < 4096)
    ∧ (let s : State := up
       let v : Word := 0x0#32
       let whole : Bool := false
       let n : Nat := (s.ring 0).depth
       let old : Nat := s.rd (RB 0) R.HIF_RNEXT_SQTAIL
       let free : Nat := (s.rd (RB 0) R.HIF_RSTAT_SQHEAD + 2 * n - 1 - old) % n
       let up : Prop := s.rstate 0 = RS_ACTIVE ∨ s.rstate 0 = RS_STOPPING
       s.access Src.pcie = true ∧ (¬up ∨ whole = false ∨ n ≤ BitVec.toNat v ∨ free < (BitVec.toNat v + n - old % n) % n))
    ∧ (let s : State := up |>.wr (RB 0) R.HIF_RSTAT_STATE RS_ACTIVE
       let n : Nat := (s.ring 0).depth
       s.access .pcie = true ∧ s.rstate 0 = RS_ACTIVE ∧ 0 < n ∧
       (n - (s.ring 0).cqHead % n) % n ≤ (s.rd (RB 0) R.HIF_RSTAT_CQTAIL + n - (s.ring 0).cqHead) % n)
    ∧ (let s : State := up
       let v : Word := 0x0#32
       let whole : Bool := false
       let n : Nat := (s.ring 0).depth
       let posted : Nat := (s.rd (RB 0) R.HIF_RSTAT_CQTAIL + n - (s.ring 0).cqHead) % n
       let up : Prop := s.rstate 0 = RS_ACTIVE ∨ s.rstate 0 = RS_STOPPING
       s.access Src.pcie = true ∧
       (¬up ∨ whole = false ∨ n ≤ BitVec.toNat v ∨ posted < (BitVec.toNat v + n - (s.ring 0).cqHead % n) % n))
    ∧ (let s : State := up |>.wr (RB 16) R.HIF_RSTAT_STATE 1
       let v : Word := 0x0#32
       let n : Nat := (s.ring 16).depth
       let old : Nat := s.rd HIF R.HIF_EVHEAD
       let fits : Prop := (s.rstate 16 = RS_ACTIVE ∨ s.rstate 16 = RS_STOPPING) ∧ BitVec.toNat v < n ∧ (BitVec.toNat v + n - old % n) % n ≤ (s.rd (RB 16) R.HIF_RSTAT_CQTAIL + n - old) % n
       s.access .pcie = true ∧ fits ∧ BitVec.toNat v < 4096)
    ∧ (let s : State := up
       let v : Word := 0x0#32
       let n : Nat := (s.ring 16).depth
       let old : Nat := s.rd HIF R.HIF_EVHEAD
       let fits : Prop := (s.rstate 16 = RS_ACTIVE ∨ s.rstate 16 = RS_STOPPING) ∧ BitVec.toNat v < n ∧ (BitVec.toNat v + n - old % n) % n ≤ (s.rd (RB 16) R.HIF_RSTAT_CQTAIL + n - old) % n
       s.access .pcie = true ∧ ¬fits)
    ∧ (let s : State := State.reset
       (s.paused = true ∨ s.fetchStopped = true ∨ s.fetchRing = none))
    ∧ (let s : State := up |>.wr HIF R.HIF_LINK_BME 1 |>.wr (RB 0) R.HIF_RSTAT_STATE RS_ACTIVE |>.wr (RB 0) R.HIF_RNEXT_SQTAIL 1
       let d : List Word := []
       let slot : Nat := s.rd (RB 0) R.HIF_RSTAT_SQHEAD
       let issue : Nat := s.rd (RB 0) R.HIF_RNEXT_ISSUE
       let c : Cmd := cmdOf 0 slot issue d
       s.paused = false ∧ s.fetchStopped = false ∧ s.fetchRing = some 0 ∧ s.cmd? c.handle = none) := by
  refine ⟨?_, ?_, ?_, ?_, ?_, ?_, ?_, ?_, ?_, ?_, ?_⟩ <;> decide +kernel

/-- The hypotheses of Obligations.CompletionsTimersAndBusErrors can be met, clause by clause. -/
theorem witness_CompletionsTimersAndBusErrors :
    (let s : State := State.reset
     (s.paused = true ∨ s.ringUp 0 = false ∨ s.cqFull 0 = true ∨ (s.ring 0).waiting = []))
    ∧ (let s : State := up |>.wr HIF R.HIF_LINK_BME 1 |>.wr (RB 0) R.HIF_RSTAT_STATE RS_ACTIVE |>.modRing 0 (fun x => { x with waiting := [0], d := [0, 0, 0, 0, 8, 0, 0] }) |>.withCmds [{}]
       let rest : List Nat := []
       let c : Cmd := {}
       s.paused = false ∧ s.ringUp 0 = true ∧ s.cqFull 0 = false ∧ (s.ring 0).waiting = 0 :: rest ∧ s.cmd? 0 = some c)
    ∧ (let s : State := State.reset
       let x : Ring := s.ring 0
       (s.rstate 0 = RS_DISABLED ∨ x.ctime = 0 ∨ x.unsig = 0))
    ∧ (let s : State := State.reset |>.wr (RB 0) R.HIF_RSTAT_STATE 1 |>.modRing 0 (fun x => { x with d := [0, 0, 0x1000, 0, BitVec.ofNat 32 (6 + 2 ^ 10 + 5 * 2 ^ 24), 0xFF, 0], stored := true }) |>.modRing 0 (fun x => { x with unsig := 1 })
       let x : Ring := s.ring 0
       s.rstate 0 ≠ RS_DISABLED ∧ x.ctime ≠ 0 ∧ x.unsig ≠ 0)
    ∧ (let s : State := State.reset
       s.ringUp 0 = false)
    ∧ (let s : State := State.reset
       let h : Word := 0x0#32
       s.cmd? (BitVec.toNat h) = none)
    ∧ (let s : State := State.reset |>.withCmds [{ phase := .waiting }] |>.wr (RB 0) R.HIF_RSTAT_STATE 1
       let h : Word := 0x0#32
       let c : Cmd := (s.cmd? (BitVec.toNat h)).getD {}
       s.cmd? (BitVec.toNat h) = some c ∧ s.rstate c.ring ≠ RS_DISABLED) := by
  refine ⟨?_, ?_, ?_, ?_, ?_, ?_, ?_⟩ <;> decide +kernel

/-- The hypotheses of Obligations.EventMasksLinkAndFunctionResets can be met, clause by clause. -/
theorem witness_EventMasksLinkAndFunctionResets :
    (let s : State := up
     s.access .pcie = true)
    ∧ (let s : State := up
       s.access Src.pcie = true)
    ∧ (let s : State := inMode 1
       s.power.host = true ∧ s.power.perst = false ∧ s.mode = MODE_BOOT)
    ∧ (let s : State := up
       let up : Bool := false
       s.power.host = true ∧ s.power.perst = false ∧ (up = false ∨ s.extest = false))
    ∧ (let s : State := State.reset
       let up : Bool := false
       (s.power.host = false ∨ s.power.perst = true ∨ up = true ∧ s.extest = true))
    ∧ (let s : State := up |>.wr HIF R.HIF_LINK_UP 0 |>.withLinkLost true
       s.power.host = true ∧ s.is HIF R.HIF_LINK_UP = false ∧ s.linkLost = true)
    ∧ (let s : State := up
       s.power.host = true ∧ (s.is HIF R.HIF_LINK_UP = true ∨ s.linkLost = false))
    ∧ (let s : State := up
       s.power.host = true ∧ s.is HIF R.HIF_LINK_UP = true) := by
  refine ⟨?_, ?_, ?_, ?_, ?_, ?_, ?_, ?_⟩ <;> decide +kernel

/-- The hypotheses of Obligations.CommandsOfTheRings can be met, clause by clause. -/
theorem witness_CommandsOfTheRings :
    (let s : State := State.reset
     let h : Word := 0x0#32
     let left : Word := 0x0#32
     let rem : List (Word × Word) := [(0x3#32, 0x5#32)]
     let ws : List Word := []
     let r : Instr × Nat := (Instr.cmdNop 0x0#32, 0)
     r ∈ [(Instr.cmdNop h, 0), (Instr.exec h left rem, 1), (Instr.hop h left rem, 2), (Instr.cancel h, 3), (Instr.load h ws, 4), (Instr.hold h left rem, 5), (Instr.release h, 6)] ∧
     s.startable (BitVec.toNat h) r.snd = none)
    ∧ (let s : State := State.reset
       let h : Word := 0x0#32
       let left : Word := 0x0#32
       let rem : List (Word × Word) := [(0x3#32, 0x5#32)]
       let ws : List Word := []
       let r : Instr × Nat := (Instr.exec 0x0#32 0x0#32 [(0x3#32, 0x5#32)], 1)
       r ∈ [(Instr.cmdNop h, 0), (Instr.exec h left rem, 1), (Instr.hop h left rem, 2), (Instr.cancel h, 3), (Instr.load h ws, 4), (Instr.hold h left rem, 5), (Instr.release h, 6)] ∧
       s.testMode = false ∧ (r.snd = 1 ∨ r.snd = 2))
    ∧ (let s : State := State.reset |>.wr (RB 0) R.HIF_RSTAT_STATE 1 |>.withCmds [{ phase := .waiting }]
       let h : Word := 0x0#32
       let left : Word := 0x0#32
       let rem : List (Word × Word) := [(0x3#32, 0x5#32)]
       let ws : List Word := []
       let r : Instr × Nat := (Instr.cmdNop 0x0#32, 0)
       let c : Cmd := (s.startable (BitVec.toNat h) r.snd).getD {}
       r ∈ [(Instr.cmdNop h, 0), (Instr.exec h left rem, 1), (Instr.hop h left rem, 2), (Instr.cancel h, 3), (Instr.load h ws, 4), (Instr.hold h left rem, 5), (Instr.release h, 6)] ∧
       s.startable (BitVec.toNat h) r.snd = some c ∧ r.snd = 0)
    ∧ (let s : State := State.reset |>.wr (RB 0) R.HIF_RSTAT_STATE 1 |>.withCmds [{ op := 1, phase := .waiting, sites := 1, args := [BitVec.ofNat 32 (268435456 + 3), 5], rbuf := 0x1000, rlen := 256, groupsLeft := 2 }] |>.wr GLB R.GLB_MODE_CUR 4 |>.wr FLT R.FLT_LEAFRET 3
       let h : Word := 0x0#32
       let left : Word := 0x0#32
       let rem : List (Word × Word) := [(0x3#32, 0x5#32)]
       let ws : List Word := []
       let r : Instr × Nat := (Instr.exec 0x0#32 0x0#32 [(0x3#32, 0x5#32)], 1)
       let c : Cmd := (s.startable (BitVec.toNat h) r.snd).getD {}
       r ∈ [(Instr.cmdNop h, 0), (Instr.exec h left rem, 1), (Instr.hop h left rem, 2), (Instr.cancel h, 3), (Instr.load h ws, 4), (Instr.hold h left rem, 5), (Instr.release h, 6)] ∧
       s.startable (BitVec.toNat h) r.snd = some c ∧ (r.snd = 1 ∨ r.snd = 2) ∧ s.testMode = true ∧
       (r.snd = 2 ∧ s.slewWaits c = false ∨ s.execWaits c = false) ∧ s.anyDown c = true)
    ∧ (let s : State := State.reset |>.wr (RB 0) R.HIF_RSTAT_STATE 1 |>.wr GLB R.GLB_MODE_CUR 4 |>.withCmds [{ op := 1, phase := .waiting, sites := 1, args := [BitVec.ofNat 32 (536870912 + 3), 5], rbuf := 0x1000, rlen := 256, groupsLeft := 2 }]
       let h : Word := 0x0#32
       let c : Cmd := (s.startable (BitVec.toNat h) 1).getD {}
       s.cmd? (BitVec.toNat h) = some c ∧ s.testMode = true ∧ s.anyDown c = false ∧ s.holds = [] ∧
       s.startable (BitVec.toNat h) 1 = some c ∧ s.execWaits c = false ∧ c.rte = false ∧ c.stp = true)
    ∧ (let c : Cmd := { op := 2, sites := 1, args := [1] }
       let s : State := inMode MODE_ARMED |>.wr (RB 0) R.HIF_RSTAT_STATE RS_ACTIVE |>.withCmds [c]
       s.cmd? 0 = some c ∧ s.testMode = true ∧ s.anyDown c = false ∧ s.holds = [] ∧ s.startable 0 2 = some c ∧
       0 ∈ s.groupsOf c.sites)
    ∧ (let s : State := running |>.wr HIF R.HIF_LINK_BME 1 |>.wr (RB 0) R.HIF_RSTAT_STATE RS_ACTIVE |>.modEng 0 (fun x => { x with on := true }) |>.withCmds [{ op := 4, args := [13], rbuf := 0x1000, rlen := 16 }]|>.modEng 0 (fun x => { x with on := false })
       let h : Word := 0
       let c : Cmd := (s.startable (BitVec.toNat h) 4).getD {}
       let unitOn : Bool := if c.target ≤ 3 then (s.grp c.unit).on else (s.eng (s.physEng c.unit)).on
       s.startable (BitVec.toNat h) 4 = some c ∧ c.legal = true ∧
       (unitOn = false ∨ s.paused = true ∨ s.slewWaits c = true))
    ∧ (let s : State := running |>.wr HIF R.HIF_LINK_BME 1 |>.wr (RB 0) R.HIF_RSTAT_STATE RS_ACTIVE |>.modEng 0 (fun x => { x with on := true }) |>.withCmds [{ op := 4, args := [13], rbuf := 0x1000, rlen := 16 }]
       let h : Word := 0
       let c : Cmd := (s.startable (BitVec.toNat h) 4).getD {}
       let unitOn : Bool := if c.target ≤ 3 then (s.grp c.unit).on else (s.eng (s.physEng c.unit)).on
       s.startable (BitVec.toNat h) 4 = some c ∧ c.legal = true ∧ unitOn = true ∧ s.paused = false ∧
       s.slewWaits c = false ∧ c.toHost = true)
    ∧ (let s : State := running |>.wr HIF R.HIF_LINK_BME 1 |>.wr (RB 0) R.HIF_RSTAT_STATE RS_ACTIVE |>.modEng 0 (fun x => { x with on := true }) |>.withCmds [{ op := 4, args := [5], rbuf := 0x1000, rlen := 16 }]
       let h : Word := 0
       let c : Cmd := (s.startable (BitVec.toNat h) 4).getD {}
       let unitOn : Bool := if c.target ≤ 3 then (s.grp c.unit).on else (s.eng (s.physEng c.unit)).on
       let p : Nat := s.physEng c.unit
       s.startable (BitVec.toNat h) 4 = some c ∧ c.legal = true ∧ unitOn = true ∧ s.paused = false ∧
       s.slewWaits c = false ∧ c.toHost = false ∧ c.target = 5 ∧ (s.eng p).live = false)
    ∧ (let s : State := running |>.wr HIF R.HIF_LINK_BME 1 |>.wr (RB 0) R.HIF_RSTAT_STATE RS_ACTIVE |>.modEng 0 (fun x => { x with on := true }) |>.withCmds [{ op := 4, args := [0], rbuf := 0x1000, rlen := 16 }]
       let h : Word := 0
       let ws : List Word := [0, 0, 0, 0]
       let c : Cmd := (s.startable (BitVec.toNat h) 4).getD {}
       let unitOn : Bool := if c.target ≤ 3 then (s.grp c.unit).on else (s.eng (s.physEng c.unit)).on
       s.startable (BitVec.toNat h) 4 = some c ∧ c.legal = true ∧ unitOn = true ∧ s.paused = false ∧
       s.slewWaits c = false ∧ c.toHost = false ∧
       (s.loadWrite c.target c.unit c.first (List.take (c.entryBytes / 4) ws)).fst = some 1)
    ∧ (let s : State := up |>.wr (RB 0) R.HIF_RSTAT_STATE RS_ACTIVE |>.withCmds [{ op := 5 }]
       let h : Word := 0
       let c : Cmd := (s.startable (BitVec.toNat h) 5).getD {}
       s.startable (BitVec.toNat h) 5 = some c ∧ s.holds = [] ∧ getBits (c.arg 0) 0 1 = 0)
    ∧ (let s : State := State.reset
       let h : Word := 0x0#32
       let mine : Hold → Bool := fun x => x.handle == BitVec.toNat h && !x.granted
       List.find? mine s.holds = none)
    ∧ (let s : State := State.reset |>.withHolds [{ handle := 0, groups := 1, length := 7 }]
       let h : Word := 0x0#32
       let mine : Hold → Bool := fun x => x.handle == BitVec.toNat h && !x.granted
       let x : Hold := { handle := 0, ring := 0, groups := 1, guarded := false, granted := false, length := 7, ahead := [] }
       List.find? mine s.holds = some x ∧ x.guarded = false)
    ∧ (let s : State := State.reset |>.wr (RB 0) R.HIF_RSTAT_STATE 1 |>.withCmds [{ op := 6, sites := 1, args := [0, 0, 0, 0, 0, 0, 0, 0, 0] }] |>.withHolds [{ handle := 0, groups := 1, granted := true, length := 7 }]
       let h : Word := 0x0#32
       let c : Cmd := (s.startable (BitVec.toNat h) 6).getD {}
       let x : Nat := BitVec.toNat (c.arg 0)
       s.cmd? (BitVec.toNat h) = some c ∧ s.startable (BitVec.toNat h) 6 = some c ∧ s.heldBy x = true ∧
       x / 2 ^ 28 = c.ring)
    ∧ (let s : State := State.reset |>.wr (RB 0) R.HIF_RSTAT_STATE 1 |>.withCmds [{ op := 6, sites := 1, args := [0, 0, 0, 0, 0, 0, 0, 0, 0] }]
       let h : Word := 0x0#32
       let c : Cmd := (s.startable (BitVec.toNat h) 6).getD {}
       let x : Nat := BitVec.toNat (c.arg 0)
       s.cmd? (BitVec.toNat h) = some c ∧ s.startable (BitVec.toNat h) 6 = some c ∧
       (x / 2 ^ 28 ≠ c.ring ∨ s.heldBy x = false ∧ (s.cmd? x = none ∧ s.unfetched c.ring x = false ∨ ∃ y, s.cmd? x = some y ∧ y.op ≠ 5)))
    ∧ (let s : State := State.reset |>.wr (RB 0) R.HIF_RSTAT_STATE 1 |>.withCmds [{ op := 3, args := [0x10000001, 0] }]
       let h : Word := 0x0#32
       let c : Cmd := (s.startable (BitVec.toNat h) 3).getD {}
       let x : Nat := BitVec.toNat (c.arg 0)
       s.cmd? (BitVec.toNat h) = some c ∧ s.startable (BitVec.toNat h) 3 = some c ∧
       (x / 2 ^ 28 ≠ c.ring ∨ s.cmd? x = none ∧ s.unfetched c.ring x = false) ∧ s.holds = [])
    ∧ (let s : State := State.reset |>.wr (RB 0) R.HIF_RSTAT_STATE 1 |>.withCmds [{ op := 3, args := [1, 0] }, { issue := 1, op := 2, phase := .waiting, sites := 16 }]
       let h : Word := 0x0#32
       let c : Cmd := (s.startable (BitVec.toNat h) 3).getD {}
       let x : Nat := BitVec.toNat (c.arg 0)
       let y : Cmd := (s.cmd? x).getD {}
       s.cmd? (BitVec.toNat h) = some c ∧ s.startable (BitVec.toNat h) 3 = some c ∧ x / 2 ^ 28 = c.ring ∧ x ≠ c.handle ∧
       s.holds = [] ∧ s.cmd? x = some y ∧ y.phase = CmdPhase.waiting ∧ s.stepping x = false ∧
       ((s.groupsOf y.sites).all fun g => !s.onRoute x g) = true ∧ s.engines = [])
    ∧ (let s : State := State.reset
       let h : Word := 0x0#32
       s.cmd? (BitVec.toNat h) = none)
    ∧ (let s : State := State.reset |>.withCmds [{ op := 6, sites := 1, args := [0, 0, 0, 0, 0, 0, 0, 0, 0] }]
       let h : Word := 0x0#32
       let c : Cmd := (s.cmd? (BitVec.toNat h)).getD {}
       s.cmd? (BitVec.toNat h) = some c ∧ (c.deadline = 0 ∨ c.phase = CmdPhase.done))
    ∧ (let s : State := State.reset |>.withCmds [{ op := 1, sites := 1, args := [BitVec.ofNat 32 (2 ^ 29 + 3), 5], deadline := 9 }]
       let h : Word := 0x0#32
       let rem : List (Word × Word) := [(0x3#32, 0x5#32)]
       let tie : Bool := false
       let c : Cmd := (s.cmd? (BitVec.toNat h)).getD {}
       s.cmd? (BitVec.toNat h) = some c ∧ c.deadline ≠ 0 ∧ c.phase ≠ CmdPhase.done ∧
       (s.blockers c rem = [] ∨ tie = true))
    ∧ (let s : State := up |>.wr (RB 0) R.HIF_RSTAT_STATE RS_ACTIVE |>.withCmds [{ op := 2, sites := 1, deadline := 9 }] |>.withHolds [{ handle := 5, ring := 1, groups := 1, granted := true, length := 7 }]
       let h : Word := 0
       let rem : List (Word × Word) := []
       let c : Cmd := (s.cmd? (BitVec.toNat h)).getD {}
       s.cmd? (BitVec.toNat h) = some c ∧ c.deadline ≠ 0 ∧ c.phase ≠ CmdPhase.done ∧ s.blockers c rem ≠ [] ∧
       s.rstate c.ring ≠ RS_DISABLED) := by
  refine ⟨?_, ?_, ?_, ?_, ?_, ?_, ?_, ?_, ?_, ?_, ?_, ?_, ?_, ?_, ?_, ?_, ?_, ?_, ?_, ?_, ?_⟩ <;> decide +kernel

/-- The hypotheses of Obligations.CalibrationMailboxItemsAndTrims can be met, clause by clause. -/
theorem witness_CalibrationMailboxItemsAndTrims :
    (let s : State := up
     s.Takes .pcie CAL R.CAL_CTRL_GO)
    ∧ (let s : State := up |>.setBox (CAL + R.CAL_CTRL_GO.off) { busy := true }
       let a : Nat := CAL + R.CAL_CTRL_GO.off
       let x : Box := s.box a
       x.busy = true ∧ x.q.length ≤ 4 ∧ x.result < 8)
    ∧ (let s : State := up
       s.cal.storing = none)
    ∧ (let s : State := up |>.modCal (fun c => { c with storing := some false })
       let b : Bool := false
       s.cal.storing = some b ∧ s.reco.erase ≠ some (EraseOf.calSlot b) ∧
       s.reco.eraseQ.contains (EraseOf.calSlot b) = false ∧ s.power.downStep ≠ 2)
    ∧ (let s : State := up
       s.calDue 0 0 0 = false)
    ∧ (let s : State := up |>.modCal (fun c => { c with run := true, todo := [0] })
       s.calDue 0 0 0 = true ∧ 0 = 0)
    ∧ (let s : State := up |>.modCal (fun c => { c with run := true, items := 1, groups := 1, todo := [0], reached := [(0, 1)] })
       let coast : Bool := false
       let moved : Bool := false
       let parts : List CalPart := []
       s.calDue 0 1 0 = true ∧ 1 ≠ 0 ∧ s.itemCause (0) (1) (0) coast moved parts = 1 ∧ 0 < 528 ∧ 1 ≠ 0)
    ∧ (let s : State := up |>.modCal (fun c => { c with run := true, items := 1, groups := 1, todo := [0], reached := [(0, 1)] })
       let coast : Bool := false
       let moved : Bool := false
       let parts : List CalPart := [(0, 0, 0)]
       let last : Bool := (unitItems s.cal.items 0).all fun i => decide (i ≤ 1)
       let f : Nat × Fld := (trimParts 0 1 0).headD (0, ⟨0, 0, 0⟩)
       let p : CalPart := (0, 0, 0)
       s.calDue 0 1 0 = true ∧ 1 ≠ 0 ∧ s.itemCause (0) (1) (0) coast moved parts = 0 ∧ 0 < 528 ∧ 0 = 0 ∧ last = true ∧
       1 ≤ 6 ∧ s.cal.fresh = [] ∧ f ∈ trimParts 0 1 0 ∧ p ∈ parts.head?)
    ∧ (let s : State := up
       let due : Bool := s.cal.run && s.mode == MODE_CALIBRATE && s.cal.todo.all fun u => s.unitGone u
       due = false)
    ∧ (let s : State := inMode MODE_CALIBRATE |>.modCal (fun c => { c with run := true })
       let due : Bool := s.cal.run && s.mode == MODE_CALIBRATE && s.cal.todo.all fun u => s.unitGone u
       due = true)
    ∧ (let s : State := up
       let en : Bool := bitOf (s.rd CAL R.CAL_ROLL_EN) 0 && (s.mode == MODE_ARMED || s.mode == MODE_RUN)
       (en = false ∨ (s.roll 0).step ≠ 0 ∨ s.spareFree 0 = false ∨ s.rollNext 0 = none))
    ∧ (let s : State := (running |>.wr GLB R.GLB_MODE_CUR MODE_ARMED) |>.modCal (fun c => { c with run := true, groups := 1 }) |>.wr CAL R.CAL_ROLL_EN 1 |>.modChan 0 (fun x => { x with inf := [(0, 1)] })
       let en : Bool := bitOf (s.rd CAL R.CAL_ROLL_EN) 0 && (s.mode == MODE_ARMED || s.mode == MODE_RUN)
       en = true ∧ (s.roll 0).step = 0 ∧ s.spareFree 0 = true ∧ s.rollNext 0 = some 0)
    ∧ (let s : State := up
       let r : Roll := s.roll 0
       r.step ≠ 2)
    ∧ (let s : State := running |>.modCal (fun c => { c with rolls := [(0, { step := 2 })] })
       let r : Roll := s.roll 0
       r.step = 2 ∧ r.ch < 32)
    ∧ (let s : State := running |>.modCal (fun c => { c with rolls := [(0, { step := 2, ch := 31 })] })
       let r : Roll := s.roll 0
       r.step = 2 ∧ r.ch < 32) := by
  refine ⟨?_, ?_, ?_, ?_, ?_, ?_, ?_, ?_, ?_, ?_, ?_, ?_, ?_, ?_, ?_⟩ <;> decide +kernel

/-- The hypotheses of Obligations.FaultsRetriesStoresAndReplay can be met, clause by clause. -/
theorem witness_FaultsRetriesStoresAndReplay :
    (let s : State := State.reset
     let g : Nat := if 0 < 512 then 0 / 32 else 0 - 512
     let taken : Bool := decide (0 < 512) && s.is (FLT + 4 * g) R.FLT_SPMAP_SERVES && s.rd (FLT + 4 * g) R.FLT_SPMAP_CH == 0 % 32
     let hit : Bool := s.setOn 0 && !taken && (s.chan 0).cause == 0
     hit = false)
    ∧ (let s : State := running |>.modCal (fun c => { c with run := true, groups := 1 })
       let g : Nat := if 0 < 512 then 0 / 32 else 0 - 512
       let taken : Bool := decide (0 < 512) && s.is (FLT + 4 * g) R.FLT_SPMAP_SERVES && s.rd (FLT + 4 * g) R.FLT_SPMAP_CH == 0 % 32
       let hit : Bool := s.setOn 0 && !taken && (s.chan 0).cause == 0
       let u : Nat := setUnit 0
       let now : Nat := s.opMs 0
       let times : List Nat := List.drop ((Tab.get [] s.flt.hist u).length - 2) (Tab.get [] s.flt.hist u ++ [now])
       let n : Nat := (List.filter (fun x => decide (now ≤ x + 10000)) times).length
       hit = true ∧ n < 3)
    ∧ (let s : State := running |>.modCal (fun c => { c with run := true, groups := 1 }) |>.modFlt (fun f => { f with hist := [(0, [0, 0])] })
       let g : Nat := if 0 < 512 then 0 / 32 else 0 - 512
       let taken : Bool := decide (0 < 512) && s.is (FLT + 4 * g) R.FLT_SPMAP_SERVES && s.rd (FLT + 4 * g) R.FLT_SPMAP_CH == 0 % 32
       let hit : Bool := s.setOn 0 && !taken && (s.chan 0).cause == 0
       let u : Nat := setUnit 0
       let now : Nat := s.opMs 0
       let times : List Nat := List.drop ((Tab.get [] s.flt.hist u).length - 2) (Tab.get [] s.flt.hist u ++ [now])
       let n : Nat := (List.filter (fun x => decide (now ≤ x + 10000)) times).length
       hit = true ∧ 3 ≤ n ∧ 0 < 512)
    ∧ (let s : State := State.reset
       let x : Chan := s.chan 0
       (x.cause = 0 ∨ x.iso = false ∨ x.swing.isSome = true))
    ∧ (let s : State := State.reset |>.modChan 0 (fun x => { x with cause := 3 }) |>.modChan 0 (fun x => { x with iso := true })
       let x : Chan := s.chan 0
       x.cause ≠ 0 ∧ x.iso = true ∧ x.swing = none)
    ∧ (let s : State := State.reset |>.modChan 0 (fun x => { x with cause := 3 }) |>.modChan 0 (fun x => { x with iso := true })
       let x : Chan := s.chan 0
       x.cause ≠ 0 ∧ x.iso = true ∧ x.swing = none ∧ x.tries < 2)
    ∧ (let s : State := State.reset |>.modChan 0 (fun x => { x with cause := 3 }) |>.modChan 0 (fun x => { x with iso := true }) |>.modChan 0 (fun x => { x with tries := 2 })
       let x : Chan := s.chan 0
       x.cause ≠ 0 ∧ x.iso = true ∧ x.swing = none ∧ 2 ≤ x.tries ∧ 0 < 512)
    ∧ (let s : State := State.reset
       let due : Bool := s.setOn 0 && (s.chan 0).testing
       due = false)
    ∧ (let s : State := running |>.modCal (fun c => { c with run := true, groups := 1 }) |>.modChan 0 (fun x => { x with testing := true })
       let due : Bool := s.setOn 0 && (s.chan 0).testing
       due = true)
    ∧ (let s : State := running |>.modCal (fun c => { c with run := true, groups := 1 }) |>.modChan 511 (fun x => { x with testing := true }) |>.modGrp 15 (fun x => { x with on := true }) |>.modCal (fun c => { c with groups := 0x8000 })
       let due : Bool := s.setOn 511 && (s.chan 511).testing
       due = true ∧ 511 < 512)
    ∧ (let s : State := State.reset
       let x : Engine := s.eng 0
       (x.on = false ∨ x.testing = false))
    ∧ (let s : State := State.reset |>.modEng 0 (fun x => { x with on := true }) |>.modEng 0 (fun x => { x with testing := true })
       let x : Engine := s.eng 0
       x.on = true ∧ x.testing = true ∧ x.failing = false)
    ∧ (let s : State := State.reset |>.modEng 0 (fun x => { x with on := true }) |>.modEng 0 (fun x => { x with testing := true }) |>.modEng 0 (fun x => { x with failing := true })
       let x : Engine := s.eng 0
       x.on = true ∧ x.testing = true ∧ x.failing = true)
    ∧ (let s : State := State.reset |>.modEng 0 (fun x => { x with on := true }) |>.modEng 0 (fun x => { x with testing := true }) |>.modEng 0 (fun x => { x with failing := true })
       let x : Engine := s.eng 0
       x.on = true ∧ x.testing = true ∧ x.failing = true ∧ x.tries < 2)
    ∧ (let s : State := State.reset |>.modEng 0 (fun x => { x with on := true }) |>.modEng 0 (fun x => { x with testing := true })
       let x : Engine := s.eng 0
       x.on = true ∧ x.testing = true ∧ (x.failing = false ∨ 2 ≤ x.tries) ∧ 0 < 512)
    ∧ (let s : State := State.reset
       let q : Nat := 512 + 0
       (s.eng q).copyFrom = none)
    ∧ (let s : State := State.reset |>.modEng 512 (fun x => { x with copyFrom := some 0 })
       let q : Nat := 512 + 0
       (s.eng q).copyFrom = some 0 ∧ 0 ≠ q ∧ 0 < 528)
    ∧ (let s : State := State.reset
       let e : Nat := s.logEng 0
       ((s.eng 0).returning = false ∨ (s.eng 0).failing = true ∨ s.siteBusy e = true))
    ∧ (let s : State := State.reset |>.modEng 0 (fun x => { x with returning := true }) |>.wr (ENG 512) R.ENG_SERVES_VALID 1
       let e : Nat := s.logEng 0
       let q : Nat := s.physEng e
       (s.eng 0).returning = true ∧ (s.eng 0).failing = false ∧ s.siteBusy e = false ∧ q ≠ 0 ∧ s.flt.freed = [])
    ∧ (let s : State := State.reset
       let st : Option Bool := if s.flt.store.isSome = true then s.flt.store else s.prot.store
       st = none)
    ∧ (let s : State := State.reset |>.modFlt (fun f => { f with store := some true })
       let st : Option Bool := if s.flt.store.isSome = true then s.flt.store else s.prot.store
       let b : Bool := true
       st = some b ∧ s.reco.erase ≠ some (EraseOf.cfgSlot b) ∧ s.reco.eraseQ.contains (EraseOf.cfgSlot b) = false ∧
       s.prot.storeNext = false ∧ s.flt.storeAgain = false ∧ s.power.downStep ≠ 2)
    ∧ (let s : State := State.reset
       ((s.grp 0).replay = [] ∨ s.stepOn 0 = true ∨ (s.grp 0).on = false))
    ∧ (let s : State := inMode MODE_ARMED |>.wr (GS 0) R.GS_PCFG_WIDTH 8 |>.modGrp 0 (fun x => { x with on := true, siteCfg := [1, 0, 0, 0], replay := [{ sites := 1 }] }) |>.withCmds [{}]
       let r : TStep := ((s.grp 0).replay).headD {}
       let c : Cmd := {}
       (s.grp 0).replay = [r] ∧ (s.grp 0).on = true ∧ s.stepOn 0 = false ∧ s.stepReady (0) r = true ∧
       s.cmd? r.handle = some c ∧ c.engs = false)
    ∧ (let s : State := State.reset
       (s.flt.unret = none ∨ s.flt.unretTest = true))
    ∧ (let s : State := State.reset |>.modFlt (fun f => { f with unret := some 0 }) |>.withCmds [{ op := 1, phase := .running, sites := 1, args := [BitVec.ofNat 32 (268435456 + 3), 5], rbuf := 0x1000, rlen := 256, groupsLeft := 2 }]
       s.flt.unret = some 0 ∧ s.flt.unretTest = false ∧ s.unitFree 0 = false)
    ∧ (let s : State := State.reset |>.modFlt (fun f => { f with unret := some 0 })
       s.flt.unret = some 0 ∧ s.flt.unretTest = false ∧ s.unitFree 0 = true)
    ∧ (let s : State := State.reset
       (s.flt.unret = none ∨ s.flt.unretTest = false))
    ∧ (let s : State := State.reset |>.modFlt (fun f => { f with unret := some 0 }) |>.modFlt (fun f => { f with unretTest := true })
       let pass : Bool := false
       let leaf : Prop := 528 ≤ 0 ∧ 0 < 562
       s.flt.unret = some 0 ∧ 0 < 1090 ∧ s.flt.unretTest = true ∧
       (pass = false ∨ leaf ∧ (s.leaf (0 - 528)).on = true ∧ s.lst (0 - 528) ≠ L_LOCKED))
    ∧ (let s : State := State.reset |>.modFlt (fun f => { f with unret := some 0 }) |>.modFlt (fun f => { f with unretTest := true })
       let leaf : Prop := 528 ≤ 0 ∧ 0 < 562
       s.flt.unret = some 0 ∧ 0 < 1090 ∧ s.flt.unretTest = true ∧ (¬leaf ∨ s.lst (0 - 528) = L_LOCKED)) := by
  refine ⟨?_, ?_, ?_, ?_, ?_, ?_, ?_, ?_, ?_, ?_, ?_, ?_, ?_, ?_, ?_, ?_, ?_, ?_, ?_, ?_, ?_, ?_, ?_, ?_, ?_, ?_, ?_, ?_, ?_⟩ <;> decide +kernel

/-- The hypotheses of Obligations.HousekeepingAndTheRecorder can be met, clause by clause. -/
theorem witness_HousekeepingAndTheRecorder :
    (let s : State := State.reset
     let ready : Bool := s.power.aon && (s.mode != MODE_BOOT || decide (4 ≤ s.power.bootPhase))
     ready = false)
    ∧ (let s : State := running |>.modCal (fun c => { c with run := true, groups := 1 })
       let ready : Bool := s.power.aon && (s.mode != MODE_BOOT || decide (4 ≤ s.power.bootPhase))
       let u : Nat := setUnit 0
       ready = true ∧ s.setOn 0 = true ∧ (s.chan 0).cause = 0 ∧ Tab.get [] s.flt.hist u = [] ∧
       s.is (SPM (u / 33)) R.FLT_SPMAP_SERVES = false)
    ∧ (let s : State := up
       let ready : Bool := s.power.aon && (s.mode != MODE_BOOT || decide (4 ≤ s.power.bootPhase))
       let x : Word := 0x0#32
       let y : Word := 0x1#32
       ready = true ∧ getBits x 0 2 ≠ getBits y 0 2)
    ∧ (let s : State := State.reset
       s.power.aon = false)
    ∧ (let s : State := up
       s.power.aon = true)
    ∧ (let s : State := State.reset
       let spent : Prop := s.rd PROT R.PROT_STATE_PSTATE = 2 ∧ s.is PROT R.PROT_STATE_LEASE = false
       ¬spent)
    ∧ (let s : State := State.reset |>.wr PROT R.PROT_STATE_PSTATE 2
       let spent : Prop := s.rd PROT R.PROT_STATE_PSTATE = 2 ∧ s.is PROT R.PROT_STATE_LEASE = false
       spent)
    ∧ (let s : State := State.reset
       let m : Nat := if s.rd REC R.REC_CFG = 0 then 60 else min 1440 (s.rd REC R.REC_CFG)
       let due : Prop := s.power.aon = true ∧ s.reco.lastTrigSec + 60 * m ≤ s.reco.opsec
       ¬due)
    ∧ (let s : State := up |>.modReco (fun r => { r with opsec := 7200 })
       let m : Nat := if s.rd REC R.REC_CFG = 0 then 60 else min 1440 (s.rd REC R.REC_CFG)
       let due : Prop := s.power.aon = true ∧ s.reco.lastTrigSec + 60 * m ≤ s.reco.opsec
       due)
    ∧ (let s : State := State.reset
       let r : Recorder := s.reco
       r.page = false)
    ∧ (let s : State := State.reset |>.modReco (fun r => { r with page := true })
       let r : Recorder := s.reco
       r.page = true ∧ r.pageDone = false)
    ∧ (let s : State := State.reset |>.modReco (fun r => { r with page := true })
       let r : Recorder := s.reco
       r.page = true ∧ r.attempts < 2 ∧ r.die.maps.length < 256 ∧ r.pageDone = false)
    ∧ (let s : State := State.reset |>.modReco (fun r => { r with page := true }) |>.modReco (fun r => { r with pageDone := true })
       let r : Recorder := s.reco
       r.page = true ∧ r.attempts < 2 ∧ r.die.maps.length < 256 ∧ r.pageDone = true)
    ∧ (let s : State := State.reset |>.modReco (fun r => { r with page := true }) |>.modReco (fun r => { r with waiting := [{ seq := 9, typ := 1 }] }) |>.modReco (fun r => { r with attempts := 2 })
       let r : Recorder := s.reco
       let d : RecData := (r.waiting).headD {}
       let rest : List RecData := []
       r.page = true ∧ r.waiting = d :: rest ∧ 2 ≤ r.attempts ∧ r.pageDone = false)
    ∧ (let s : State := State.reset |>.modReco (fun r => { r with page := true }) |>.modReco (fun r => { r with waiting := [{ seq := 9, typ := 1 }] }) |>.modReco (fun r => { r with pageDone := true })
       let r : Recorder := s.reco
       let d : RecData := (r.waiting).headD {}
       let rest : List RecData := []
       r.page = true ∧ r.waiting = d :: rest ∧ r.pageDone = true)
    ∧ (let s : State := State.reset
       s.reco.erase = none)
    ∧ (let s : State := State.reset |>.modReco (fun r => { r with erase := some (.sector 70) })
       let e : EraseOf := EraseOf.sector 70
       s.reco.erase = some e ∧ s.reco.eraseQ = [])
    ∧ (let s : State := State.reset
       s.reco.recovering = false)
    ∧ (let s : State := State.reset |>.modReco (fun r => { r with recovering := true })
       s.reco.recovering = true)
    ∧ (let s : State := up
       s.Takes .pcie REC R.REC_CTRL_GO)
    ∧ (let s : State := State.reset |>.setBox (REC + R.REC_CTRL_GO.off) { busy := true, q := [] }
       let a : Nat := REC + R.REC_CTRL_GO.off
       let x : Box := s.box a
       x.busy = true ∧ x.result < 8 ∧ x.q.length ≤ 2) := by
  refine ⟨?_, ?_, ?_, ?_, ?_, ?_, ?_, ?_, ?_, ?_, ?_, ?_, ?_, ?_, ?_, ?_, ?_, ?_, ?_, ?_, ?_⟩ <;> decide +kernel

/-- The hypotheses of Obligations.TwoKeyCommit can be met, clause by clause. -/
theorem witness_TwoKeyCommit :
    (let s : State := up
     s.Takes .pcie PROT R.PROT_CTRL_ARM ∧ s.is PROT R.PROT_CTRL_ABORT = false)
    ∧ (let s : State := up |>.wr PROT R.PROT_CTRL_LIVE 1
       let live : Bool := s.is PROT R.PROT_CTRL_LIVE
       s.Takes .pcie PROT R.PROT_CTRL_ABORT ∧ live = true)
    ∧ (let s : State := up
       let live : Bool := s.is PROT R.PROT_CTRL_LIVE
       s.Takes .pcie PROT R.PROT_CTRL_ABORT ∧ live = false)
    ∧ (let s : State := State.reset
       s.access .pcie = false)
    ∧ (let s : State := up
       let live : Bool := s.is PROT R.PROT_CTRL_LIVE
       s.access .pcie = true ∧ (.pcie ≠ Src.pcie ∨ live = false ∨ s.is PROT R.PROT_CTRL_AOK = true))
    ∧ (let s : State := up |>.wr PROT R.PROT_CTRL_LIVE 1
       let v : Word := 0x1#32
       let live : Bool := s.is PROT R.PROT_CTRL_LIVE
       let chal : Nat := s.rd PROT R.PROT_CHAL
       s.access .pcie = true ∧ .pcie = Src.pcie ∧ live = true ∧ s.is PROT R.PROT_CTRL_AOK = false ∧
       BitVec.toNat v ≠ chal)
    ∧ (let s : State := up |>.wr PROT R.PROT_CTRL_LIVE 1
       let v : Word := 0x0#32
       let live : Bool := s.is PROT R.PROT_CTRL_LIVE
       let chal : Nat := s.rd PROT R.PROT_CHAL
       s.access .pcie = true ∧ .pcie = Src.pcie ∧ live = true ∧ s.is PROT R.PROT_CTRL_AOK = false ∧
       BitVec.toNat v = chal ∧ s.is PROT R.PROT_CTRL_BOK = false)
    ∧ (let s : State := up |>.wr PROT R.PROT_CTRL_LIVE 1 |>.wr PROT R.PROT_CTRL_BOK 1
       let v : Word := 0x0#32
       let live : Bool := s.is PROT R.PROT_CTRL_LIVE
       let chal : Nat := s.rd PROT R.PROT_CHAL
       let p : ProtSt := s.prot
       let pst : Nat := s.rd PROT R.PROT_STATE_PSTATE
       let passes : Nat → Nat → Nat → Bool := fun k a u => match k with | 1 => pst == 0 | 2 => (pst == 1 || pst == 3) && decide (1 ≤ a) && decide (a ≤ 240) | 3 => pst == 2 | 4 => decide (u ≤ 1089) | 5 => true | 6 => true | _ => false
       s.access .pcie = true ∧ .pcie = Src.pcie ∧ live = true ∧ s.is PROT R.PROT_CTRL_AOK = false ∧
       BitVec.toNat v = chal ∧ s.is PROT R.PROT_CTRL_BOK = true ∧ passes p.kind p.arg p.unit = false)
    ∧ (let s : State := up |>.wr PROT R.PROT_CTRL_LIVE 1 |>.wr PROT R.PROT_CTRL_BOK 1 |>.modProt (fun p => { p with kind := 2, arg := 240 })
       let v : Word := 0x0#32
       let live : Bool := s.is PROT R.PROT_CTRL_LIVE
       let chal : Nat := s.rd PROT R.PROT_CHAL
       let p : ProtSt := s.prot
       let pst : Nat := s.rd PROT R.PROT_STATE_PSTATE
       let passes : Nat → Nat → Nat → Bool := fun k a u => match k with | 1 => pst == 0 | 2 => (pst == 1 || pst == 3) && decide (1 ≤ a) && decide (a ≤ 240) | 3 => pst == 2 | 4 => decide (u ≤ 1089) | 5 => true | 6 => true | _ => false
       s.access .pcie = true ∧ .pcie = Src.pcie ∧ live = true ∧ s.is PROT R.PROT_CTRL_AOK = false ∧
       BitVec.toNat v = chal ∧ s.is PROT R.PROT_CTRL_BOK = true ∧ passes p.kind p.arg p.unit = true)
    ∧ (let s : State := up
       let live : Bool := s.is PROT R.PROT_CTRL_LIVE
       s.access .pcie = true ∧ (.pcie ≠ Src.keyway ∨ live = false ∨ s.is PROT R.PROT_CTRL_BOK = true))
    ∧ (let s : State := up |>.wr PROT R.PROT_CTRL_LIVE 1
       let v : Word := 0x1#32
       let live : Bool := s.is PROT R.PROT_CTRL_LIVE
       let chal : Nat := s.rd PROT R.PROT_CHAL
       s.access .keyway = true ∧ .keyway = Src.keyway ∧ live = true ∧ s.is PROT R.PROT_CTRL_BOK = false ∧
       BitVec.toNat v ≠ chal)
    ∧ (let s : State := up |>.wr PROT R.PROT_CTRL_LIVE 1
       let v : Word := 0x0#32
       let live : Bool := s.is PROT R.PROT_CTRL_LIVE
       let chal : Nat := s.rd PROT R.PROT_CHAL
       s.access .keyway = true ∧ .keyway = Src.keyway ∧ live = true ∧ s.is PROT R.PROT_CTRL_BOK = false ∧
       BitVec.toNat v = chal ∧ s.is PROT R.PROT_CTRL_AOK = false)
    ∧ (let s : State := up |>.wr PROT R.PROT_CTRL_LIVE 1 |>.wr PROT R.PROT_CTRL_AOK 1
       let v : Word := 0x0#32
       let live : Bool := s.is PROT R.PROT_CTRL_LIVE
       let chal : Nat := s.rd PROT R.PROT_CHAL
       let p : ProtSt := s.prot
       let pst : Nat := s.rd PROT R.PROT_STATE_PSTATE
       let passes : Nat → Nat → Nat → Bool := fun k a u => match k with | 1 => pst == 0 | 2 => (pst == 1 || pst == 3) && decide (1 ≤ a) && decide (a ≤ 240) | 3 => pst == 2 | 4 => decide (u ≤ 1089) | 5 => true | 6 => true | _ => false
       s.access .keyway = true ∧ .keyway = Src.keyway ∧ live = true ∧ s.is PROT R.PROT_CTRL_BOK = false ∧
       BitVec.toNat v = chal ∧ s.is PROT R.PROT_CTRL_AOK = true ∧ passes p.kind p.arg p.unit = false)
    ∧ (let s : State := up |>.wr PROT R.PROT_CTRL_LIVE 1 |>.wr PROT R.PROT_CTRL_AOK 1 |>.modProt (fun p => { p with kind := 2, arg := 240 })
       let v : Word := 0x0#32
       let live : Bool := s.is PROT R.PROT_CTRL_LIVE
       let chal : Nat := s.rd PROT R.PROT_CHAL
       let p : ProtSt := s.prot
       let pst : Nat := s.rd PROT R.PROT_STATE_PSTATE
       let passes : Nat → Nat → Nat → Bool := fun k a u => match k with | 1 => pst == 0 | 2 => (pst == 1 || pst == 3) && decide (1 ≤ a) && decide (a ≤ 240) | 3 => pst == 2 | 4 => decide (u ≤ 1089) | 5 => true | 6 => true | _ => false
       s.access .keyway = true ∧ .keyway = Src.keyway ∧ live = true ∧ s.is PROT R.PROT_CTRL_BOK = false ∧
       BitVec.toNat v = chal ∧ s.is PROT R.PROT_CTRL_AOK = true ∧ passes p.kind p.arg p.unit = true)
    ∧ (let s : State := State.reset |>.wr PROT R.PROT_CTRL_LIVE 1 |>.wr PROT R.PROT_CTRL_AOK 1
       let live : Bool := s.is PROT R.PROT_CTRL_LIVE
       let half : Prop := live = true ∧ (s.is PROT R.PROT_CTRL_AOK = true ∨ s.is PROT R.PROT_CTRL_BOK = true)
       half)
    ∧ (let s : State := State.reset
       let live : Bool := s.is PROT R.PROT_CTRL_LIVE
       let half : Prop := live = true ∧ (s.is PROT R.PROT_CTRL_AOK = true ∨ s.is PROT R.PROT_CTRL_BOK = true)
       ¬half)
    ∧ (let s : State := State.reset |>.wr PROT R.PROT_CTRL_LIVE 1
       let live : Bool := s.is PROT R.PROT_CTRL_LIVE
       let none_ : Prop := live = true ∧ s.is PROT R.PROT_CTRL_AOK = false ∧ s.is PROT R.PROT_CTRL_BOK = false
       none_)
    ∧ (let s : State := State.reset
       let live : Bool := s.is PROT R.PROT_CTRL_LIVE
       let none_ : Prop := live = true ∧ s.is PROT R.PROT_CTRL_AOK = false ∧ s.is PROT R.PROT_CTRL_BOK = false
       ¬none_) := by
  refine ⟨?_, ?_, ?_, ?_, ?_, ?_, ?_, ?_, ?_, ?_, ?_, ?_, ?_, ?_, ?_, ?_, ?_, ?_⟩ <;> decide +kernel

/-- The hypotheses of Obligations.TestAccessPort can be met, clause by clause. -/
theorem witness_TestAccessPort :
    (let s : State := inMode 3
     let up : Prop := s.power.aon = true ∧ (s.mode = MODE_BOOT → 4 ≤ s.power.bootPhase)
     let power : Nat := if s.mode = MODE_SAFE then 2 else if MODE_CONFIGURE ≤ s.mode then 1 else 0
     up ∧ power ≠ 0)
    ∧ (let s : State := up
       let up : Prop := s.power.aon = true ∧ (s.mode = MODE_BOOT → 4 ≤ s.power.bootPhase)
       let power : Nat := if s.mode = MODE_SAFE then 2 else if MODE_CONFIGURE ≤ s.mode then 1 else 0
       up ∧ power = 0)
    ∧ (State.reset.power.aon = false ∧ 18 < (0x13 : BitVec 8).toNat)
    ∧ (up.power.aon = true ∧ up.mode ≠ MODE_BOOT ∧ 18 < (0xFF : BitVec 8).toNat)
    ∧ (let s : State := State.reset
       s.power.aon = false)
    ∧ (let s : State := up
       s.power.aon = true)
    ∧ (let s : State := up
       let up : Prop := s.power.aon = true ∧ (s.mode = MODE_BOOT → 4 ≤ s.power.bootPhase)
       let lvl : Nat := s.rd PROT R.PROT_STATE_DBGLVL
       let waddr : BitVec 22 := 0x0#22
       let a : Nat := 4 * waddr.toNat
       up ∧ s.kwReady (a / 4096 * 4096) = true ∧ lvl = 0)
    ∧ (let s : State := up |>.wr PROT R.PROT_STATE_DBGLVL 1
       let up : Prop := s.power.aon = true ∧ (s.mode = MODE_BOOT → 4 ≤ s.power.bootPhase)
       let lvl : Nat := s.rd PROT R.PROT_STATE_DBGLVL
       let pst : Nat := s.rd PROT R.PROT_STATE_PSTATE
       let wr : Bool := false
       let waddr : BitVec 22 := 0x100401#22
       let a : Nat := 4 * waddr.toNat
       let program : Prop := wr = false ∧ (pst = 1 ∨ pst = 3) ∧ programWindow a = true
       up ∧ s.kwReady (a / 4096 * 4096) = true ∧ 1 ≤ lvl ∧ (wr = true ∧ lvl = 1 ∨ program))
    ∧ (let s : State := up |>.wr PROT R.PROT_STATE_DBGLVL 1
       let up : Prop := s.power.aon = true ∧ (s.mode = MODE_BOOT → 4 ≤ s.power.bootPhase)
       let lvl : Nat := s.rd PROT R.PROT_STATE_DBGLVL
       let pst : Nat := s.rd PROT R.PROT_STATE_PSTATE
       let wr : Bool := false
       let waddr : BitVec 22 := 0x0#22
       let a : Nat := 4 * waddr.toNat
       let program : Prop := wr = false ∧ (pst = 1 ∨ pst = 3) ∧ programWindow a = true
       up ∧ s.kwReady (a / 4096 * 4096) = true ∧ 1 ≤ lvl ∧ (wr = false ∨ 2 ≤ lvl) ∧ ¬program)
    ∧ (let s : State := up |>.wr PROT R.PROT_STATE_DBGLVL 1
       let up : Prop := s.power.aon = true ∧ (s.mode = MODE_BOOT → 4 ≤ s.power.bootPhase)
       let lvl : Nat := s.rd PROT R.PROT_STATE_DBGLVL
       let pst : Nat := s.rd PROT R.PROT_STATE_PSTATE
       let wr : Bool := false
       let waddr : BitVec 22 := 0x0#22
       let a : Nat := 4 * waddr.toNat
       let program : Prop := wr = false ∧ (pst = 1 ∨ pst = 3) ∧ programWindow a = true
       up ∧ s.kwReady (a / 4096 * 4096) = true ∧ 1 ≤ lvl ∧ ¬program)
    ∧ (let s : State := up |>.wr PROT R.PROT_STATE_DBGLVL 2
       let up : Prop := s.power.aon = true ∧ (s.mode = MODE_BOOT → 4 ≤ s.power.bootPhase)
       let lvl : Nat := s.rd PROT R.PROT_STATE_DBGLVL
       let waddr : BitVec 22 := 0x1400#22
       let a : Nat := 4 * waddr.toNat
       up ∧ s.kwReady (a / 4096 * 4096) = true ∧ 2 ≤ lvl ∧ a = REC + R.REC_CFG.off)
    ∧ (let s : State := up |>.wr PROT R.PROT_STATE_DBGLVL 2
       let up : Prop := s.power.aon = true ∧ (s.mode = MODE_BOOT → 4 ≤ s.power.bootPhase)
       let lvl : Nat := s.rd PROT R.PROT_STATE_DBGLVL
       let e : BitVec 10 := 0x0#10
       let n : Nat := e.toNat
       let x : Engine := s.eng n
       let there : Prop := n < 528 ∧ s.hasEng n = true ∧ x.on = true
       up ∧ 1 ≤ lvl ∧ (lvl < 2 ∨ ¬there))
    ∧ (let s : State := up |>.wr PROT R.PROT_STATE_DBGLVL 2 |>.modEng 0 (fun x => { x with on := true })
       let up : Prop := s.power.aon = true ∧ (s.mode = MODE_BOOT → 4 ≤ s.power.bootPhase)
       let lvl : Nat := s.rd PROT R.PROT_STATE_DBGLVL
       let e : BitVec 10 := 0x0#10
       let n : Nat := e.toNat
       let x : Engine := s.eng n
       let there : Prop := n < 528 ∧ s.hasEng n = true ∧ x.on = true
       up ∧ 2 ≤ lvl ∧ there) := by
  refine ⟨?_, ?_, ?_, ?_, ?_, ?_, ?_, ?_, ?_, ?_, ?_, ?_, ?_⟩ <;> decide +kernel

/-- The hypotheses of Obligations.StepTakesTheFrontCommand can be met. -/
theorem witness_StepTakesTheFrontCommand :
    let s : State := State.reset
    s.pending = [] := by
  decide +kernel

/-- The hypotheses of Obligations.ResetState can be met, clause by clause. -/
theorem witness_ResetState :
    (0 < 32)
    ∧ (0 < 64) := by
  refine ⟨?_, ?_⟩ <;> decide +kernel

/-- The hypotheses of Obligations.TablesStayCanonical can be met. -/
theorem witness_TablesStayCanonical :
    let s : State := State.reset
    s.Canonical := by
  decide +kernel

end
end

/-! Proofs: frames update by update, the refutation of O23 (LOCK_IN_WINDOW) and the entry of samples into the FIFO (O37). -/

namespace Sys2Proof.Machine

/-! ### What a completed command says of its effect -/

/-- A command that answers a state with `P` reaches it from its effect by reporting events alone. -/
theorem Next.reported {s : State} {f : State → State} {P : State → Prop} (h : Next (run s f) P) :
    ∃ t, Reported (effect s f) t ∧ P t := by
  obtain ⟨t, ht, hP⟩ := h
  rw [run_eq] at ht
  cases ht
  exact ⟨_, reported_finish _, hP⟩

/-! ### Frames: one rule for each update of the state -/

section
variable {s : State} {ps : List Part} {rs : Nat → Bool}

theorem frame_wr {b : Nat} {f : Fld} {v : Nat} (h : rs (b + f.off) = true) : Frame s (s.wr b f v) ps rs := by
  refine ⟨fun p _ => by cases p <;> simp [Part.same], fun a ha _ => State.word_wr_ne _ _ _ _ _ ?_⟩
  rintro rfl
  simp [h] at ha

theorem frame_inc {b : Nat} {f : Fld} {n : Nat} (h : rs (b + f.off) = true) : Frame s (s.inc b f n) ps rs := frame_wr h

theorem frame_modGrp {g : Nat} {f : Grp → Grp} (h : Part.grp g ∈ ps) : Frame s (s.modGrp g f) ps rs := by
  refine ⟨fun p hp => ?_, fun _ _ _ => rfl⟩
  cases p with
  | grp k =>
    have hk : k ≠ g := fun e => hp (e ▸ h)
    exact (State.grp_modGrp s g k f).trans (if_neg hk)
  | _ => simp [Part.same]

theorem frame_modChan {c : Nat} {f : Chan → Chan} (h : Part.chan c ∈ ps) : Frame s (s.modChan c f) ps rs := by
  refine ⟨fun p hp => ?_, fun _ _ _ => rfl⟩
  cases p with
  | chan k =>
    have hk : k ≠ c := fun e => hp (e ▸ h)
    exact (State.chan_modChan s c k f).trans (if_neg hk)
  | _ => simp [Part.same]

theorem frame_setEng {e : Nat} {x : Engine} (h : Part.eng e ∈ ps) : Frame s (s.setEng e x) ps rs := by
  refine ⟨fun p hp => ?_, fun _ _ _ => rfl⟩
  cases p with
  | eng k =>
    have hk : k ≠ e := fun i => hp (i ▸ h)
    exact (State.eng_setEng s e k x).trans (if_neg hk)
  | _ => simp [Part.same]

theorem frame_tick (h : Part.free ∈ ps) : Frame s s.tick ps rs := by
  refine ⟨fun p hp => ?_, fun _ _ _ => rfl⟩
  cases p with
  | free => exact absurd h hp
  | _ => simp [Part.same]

theorem frame_raise {e d : Nat} : Frame s (s.raise e d) ps rs :=
  ⟨fun p _ => by cases p <;> simp [Part.same], fun a _ _ => s.raise_word e d a⟩

theorem frame_fresh : Frame s s.fresh ps rs :=
  ⟨fun p _ => by cases p <;> simp [Part.same], fun a _ _ => s.fresh_word a⟩

theorem frame_gate {c : Bool} {f : State → State} (h : c = true → Frame s (f s) ps rs) : Frame s (s.gate c f) ps rs :=
  State.gate_ind (P := fun t => Frame s t ps rs) s c f (Frame.refl s _ _) h

end

/-- A command whose effect keeps a frame without the queue and the configuration. -/
theorem next_of_frame {s u : State} {f : State → State} {ps : List Part} {rs : Nat → Bool} {P : State → Prop} (e : f s.fresh = u)
    (hf : Frame s u ps rs) (hq : Part.queue ∉ ps) (hc : Part.config ∉ ps) (h : ∀ t, Reported u t → P t) : Next (run s f) P :=
  next_upd e (hf.1 _ hq) (hf.1 _ hc).1 fun t hr _ => h t hr

/-- What a gated step leaves as it was. -/
theorem State.gate_keeps {α : Type} (π : State → α) (s : State) (c : Bool) (f : State → State) (h : π (f s) = π s) :
    π (s.gate c f) = π s := by
  cases c
  · rfl
  · exact h

/-! ### LOCK_IN_WINDOW: a hop that the idle leaf did not make -/

/-- LOCK_IN_WINDOW runs the completion of the in-window count. -/
theorem exec_lockInWindow (n : Fin 34) (vt : BitVec 16) (s : State) :
    exec (.lockInWindow n vt) s = run s fun s => s.inWindow n vt.toNat := rfl

/-- A GUARDED hop of group 0 in progress that leaf B could not make (R83, R98): leaf A acquires the new setting, and leaf B, whose
loop bandwidth is still the old one, is in RELOCK. -/
def hopWithoutTwin : State :=
  ((((State.reset.modGrp 0 fun x => { x with hop := some { begun := true } }).modLeaf 1 fun l => { l with on := true, lbw := 1 }).flag
    (GS 0) R.GS_RSTAT_HOPPING true).wr (LP 0) R.LP_LSTATE_STATE L_ACQUIRE).wr (LP 1) R.LP_LSTATE_STATE L_RELOCK

/-- When leaf B's in-window count completes, it reports LOCKED and at once searches a band to join leaf A (R146). -/
theorem hopWithoutTwin_searches : (effect hopWithoutTwin fun s => s.inWindow 1 0).lst 1 = L_SEARCH := by
  decide +kernel

/-- Refutes O23: with a hop in progress the statement does not ask that the idle leaf have joined or be elsewhere; an idle leaf that
could not hop with the active one starts to join it in the cycle in which it reports LOCKED, and ends that cycle in SEARCH. -/
theorem not_lockInWindowReportsLocked : ¬ Obligations.LockInWindowReportsLocked := by
  rintro ⟨-, hgroup, -⟩
  obtain ⟨hlock, -⟩ := hgroup hopWithoutTwin 1 0 (by decide) _ rfl (by decide +kernel) (by decide +kernel)
    (by decide +kernel) (by decide +kernel) (.inl (by decide +kernel))
  have hrun := hlock (.inr ⟨by decide +kernel, by decide +kernel⟩)
  rw [exec_lockInWindow] at hrun
  obtain ⟨t, hrep, hlocked, -⟩ := hrun.reported
  have hsearch : t.lst 1 = L_SEARCH := (hrep.rd (by decide)).trans hopWithoutTwin_searches
  exact absurd (hsearch.symm.trans hlocked) (by decide)

/-! ### What a sample reads -/

@[simp] theorem State.fresh_setsOn (s : State) (g : Nat) : s.fresh.setsOn g = s.setsOn g := rfl
@[simp] theorem State.wr_infF (s : State) (b : Nat) (f : Fld) (v c : Nat) (f' : Fld) : (s.wr b f v).infF c f' = s.infF c f' := rfl

/-- Whether phase words run is read from the group and from registers below its output block (R213). -/
theorem State.wordsRun_congr {s t : State} {g : Nat} (hg : g < 16) (hon : (t.grp g).on = (s.grp g).on)
    (hen : (t.grp g).pwEn = (s.grp g).pwEn) (hrd : ∀ b f, b + f.off < 0x20000 → t.rd b f = s.rd b f) :
    t.wordsRun g = s.wordsRun g := by
  have hact : t.actLeaf g = s.actLeaf g := by
    simp only [State.actLeaf]
    rw [hrd]
    simp only [GS, R.GS_SWSTAT_ACT]; omega
  have hlt : s.rd (GS g) R.GS_SWSTAT_ACT < 2 := s.rd_lt _ R.GS_SWSTAT_ACT
  have hst : t.lst (s.actLeaf g) = s.lst (s.actLeaf g) := hrd _ _ (by
    have hleaf : s.actLeaf g < 32 := by simp only [State.actLeaf]; omega
    simp only [LP, hleaf, if_true, GS, R.LP_LSTATE_STATE]; omega)
  have hgap : t.is (GS g) R.GS_SWSTAT_GAP = s.is (GS g) R.GS_SWSTAT_GAP := by
    simp only [State.is]
    rw [hrd]
    simp only [GS, R.GS_SWSTAT_GAP]; omega
  simp only [State.wordsRun, State.treeLow, hon, hen, hact, hst, hgap]

/-- Which engine works for another is read from the SERVES registers of the spare engines. -/
theorem State.physEng_congr {s t : State} (e : Nat) (hrd : ∀ b f, 0xC00000 ≤ b → t.rd b f = s.rd b f) :
    t.physEng e = s.physEng e := by
  have hp (i : Nat) (f : Fld) : t.rd (ENG (512 + 4 * (e / 128) + i)) f = s.rd (ENG (512 + 4 * (e / 128) + i)) f :=
    hrd _ _ (by simp only [ENG]; omega)
  simp only [State.physEng, State.is, hp]

/-! ### What a sample does before the FIFO -/

/-- The clamp bit of channel c, the end of the intervals after a hop and a recovery, the word of the group's stream, and the draw
of a free phase word: what every sample of an enabled converter does before its FIFO is looked at (R177, R203, R207). -/
def State.beforeFifo (s : State) (c : Nat) (settled pclamp : Bool) : State :=
  (((s.wr (CH c) R.CH_CSTAT_PCLAMP (b2n (pclamp && s.infF c R.CH_CMODE_MODE == 4))).settled (c / 32) settled).wordOut (c / 32)).gate
    (!(s.grp (c / 32)).pwEn) (·.tick)

/-- The word of the group's stream that goes with a sample carries RST (R207). -/
def State.firstWord (s : State) (g : Nat) : Bool := s.wordsRun g && (s.grp g).rstWord

@[simp] theorem State.settled_rd (s : State) (g : Nat) (yes : Bool) (b : Nat) (f : Fld) : (s.settled g yes).rd b f = s.rd b f :=
  State.gate_keeps (·.rd b f) _ _ _ rfl

@[simp] theorem State.settled_chan (s : State) (g : Nat) (yes : Bool) (k : Nat) : (s.settled g yes).chan k = s.chan k :=
  State.gate_keeps (·.chan k) _ _ _ rfl

@[simp] theorem State.settled_eng (s : State) (g : Nat) (yes : Bool) (k : Nat) : (s.settled g yes).eng k = s.eng k :=
  State.gate_keeps (·.eng k) _ _ _ rfl

@[simp] theorem State.settled_freeCtr (s : State) (g : Nat) (yes : Bool) : (s.settled g yes).freeCtr = s.freeCtr :=
  State.gate_keeps (·.freeCtr) _ _ _ rfl

theorem State.settled_grp (s : State) (g : Nat) (yes : Bool) :
    (s.settled g yes).grp g
      = { s.grp g with settling := (s.grp g).settling && !yes, gapSusp := (s.grp g).gapSusp && !yes } := by
  cases yes <;> simp [State.settled]

@[simp] theorem State.wordOut_chan (s : State) (g k : Nat) : (s.wordOut g).chan k = s.chan k := by
  unfold State.wordOut
  exact State.gate_keeps (·.chan k) _ _ _ (by simp)

@[simp] theorem State.wordOut_eng (s : State) (g k : Nat) : (s.wordOut g).eng k = s.eng k := by
  unfold State.wordOut
  exact State.gate_keeps (·.eng k) _ _ _ (by simp)

@[simp] theorem State.wordOut_freeCtr (s : State) (g : Nat) : (s.wordOut g).freeCtr = s.freeCtr := by
  unfold State.wordOut
  exact State.gate_keeps (·.freeCtr) _ _ _ (by simp)

theorem State.wordOut_grp (s : State) (g : Nat) :
    (s.wordOut g).grp g = { s.grp g with rstWord := (s.grp g).rstWord && !s.firstWord g } := by
  unfold State.wordOut State.firstWord
  cases s.wordsRun g && (s.grp g).rstWord
  · simp
  · simp

theorem State.wordOut_rd_ne (s : State) (g b : Nat) (f : Fld) (h : b + f.off ≠ OUT g + R.OUT_PWRST.off) :
    (s.wordOut g).rd b f = s.rd b f := by
  unfold State.wordOut
  exact State.gate_keeps (·.rd b f) _ _ _ ((State.rd_wr_ne _ _ _ _ _ _ h).trans (by simp))

theorem State.wordOut_rd_pwrst (s : State) (g : Nat) :
    (s.wordOut g).rd (OUT g) R.OUT_PWRST = (s.rd (OUT g) R.OUT_PWRST + b2n (s.firstWord g)) % 2 ^ R.OUT_PWRST.width := by
  unfold State.wordOut State.firstWord
  cases s.wordsRun g && (s.grp g).rstWord
  · exact (Nat.mod_eq_of_lt (s.rd_lt _ _)).symm
  · exact (State.rd_inc _ _ _ _ (by decide)).trans (by simp)

section
variable (s : State) (c : Nat) (settled pclamp : Bool)

@[simp] theorem State.beforeFifo_chan (k : Nat) : (s.beforeFifo c settled pclamp).chan k = s.chan k := by
  unfold State.beforeFifo
  exact (State.gate_keeps (·.chan k) _ _ _ (by simp)).trans (by simp)

@[simp] theorem State.beforeFifo_eng (k : Nat) : (s.beforeFifo c settled pclamp).eng k = s.eng k := by
  unfold State.beforeFifo
  exact (State.gate_keeps (·.eng k) _ _ _ (by simp)).trans (by simp)

theorem State.beforeFifo_freeCtr :
    (s.beforeFifo c settled pclamp).freeCtr = s.freeCtr + if (s.grp (c / 32)).pwEn then 0 else 1 := by
  unfold State.beforeFifo
  cases (s.grp (c / 32)).pwEn <;> simp

theorem State.beforeFifo_rd_ne (b : Nat) (f : Fld) (h : b + f.off ≠ CH c + R.CH_CSTAT_PCLAMP.off)
    (h' : b + f.off ≠ OUT (c / 32) + R.OUT_PWRST.off) : (s.beforeFifo c settled pclamp).rd b f = s.rd b f := by
  unfold State.beforeFifo
  refine (State.gate_keeps (·.rd b f) _ _ _ (by simp)).trans ?_
  rw [State.wordOut_rd_ne _ _ _ _ h', State.settled_rd, State.rd_wr_ne _ _ _ _ _ _ h]

/-- The clamp bit is a field of a channel's page, which lies above the registers that the stream is read from. -/
theorem State.settled_wr_firstWord (hc : c < 512) (v : Nat) :
    ((s.wr (CH c) R.CH_CSTAT_PCLAMP v).settled (c / 32) settled).firstWord (c / 32) = s.firstWord (c / 32) := by
  have hrun : ((s.wr (CH c) R.CH_CSTAT_PCLAMP v).settled (c / 32) settled).wordsRun (c / 32) = s.wordsRun (c / 32) :=
    State.wordsRun_congr (by omega) (by simp [State.settled_grp]) (by simp [State.settled_grp]) fun b f h => by
      rw [State.settled_rd, State.rd_wr_ne]
      simp only [CH, R.CH_CSTAT_PCLAMP]; omega
  simp only [State.firstWord, hrun, State.settled_grp, State.wr_grp]

theorem State.beforeFifo_grp (hc : c < 512) :
    (s.beforeFifo c settled pclamp).grp (c / 32)
      = { s.grp (c / 32) with
          settling := (s.grp (c / 32)).settling && !settled, gapSusp := (s.grp (c / 32)).gapSusp && !settled,
          rstWord := (s.grp (c / 32)).rstWord && !s.firstWord (c / 32) } := by
  unfold State.beforeFifo
  refine (State.gate_keeps (·.grp (c / 32)) _ _ _ (by simp)).trans ?_
  rw [State.wordOut_grp, State.settled_wr_firstWord s c settled hc, State.settled_grp, State.wr_grp]

theorem State.beforeFifo_rd_pclamp :
    (s.beforeFifo c settled pclamp).rd (CH c) R.CH_CSTAT_PCLAMP = b2n (pclamp && s.infF c R.CH_CMODE_MODE == 4) := by
  unfold State.beforeFifo
  refine (State.gate_keeps (·.rd (CH c) R.CH_CSTAT_PCLAMP) _ _ _ (by simp)).trans ?_
  rw [State.wordOut_rd_ne, State.settled_rd]
  · exact State.rd_flag s _ _ _ (by decide) rfl
  · simp only [CH, OUT, R.CH_CSTAT_PCLAMP, R.OUT_PWRST]; omega

theorem State.beforeFifo_rd_pwrst (hc : c < 512) :
    (s.beforeFifo c settled pclamp).rd (OUT (c / 32)) R.OUT_PWRST
      = (s.rd (OUT (c / 32)) R.OUT_PWRST + b2n (s.firstWord (c / 32))) % 2 ^ R.OUT_PWRST.width := by
  unfold State.beforeFifo
  refine (State.gate_keeps (·.rd (OUT (c / 32)) R.OUT_PWRST) _ _ _ (by simp)).trans ?_
  rw [State.wordOut_rd_pwrst, State.settled_wr_firstWord s c settled hc, State.settled_rd, State.rd_wr_ne]
  simp only [CH, OUT, R.CH_CSTAT_PCLAMP, R.OUT_PWRST]; omega

theorem State.beforeFifo_physEng (hc : c < 512) (e : Nat) : (s.beforeFifo c settled pclamp).physEng e = s.physEng e :=
  State.physEng_congr e fun b f hb => s.beforeFifo_rd_ne c settled pclamp b f
    (by simp only [CH, R.CH_CSTAT_PCLAMP]; omega) (by simp only [OUT, R.OUT_PWRST]; omega)

theorem frame_beforeFifo {ps : List Part} {rs : Nat → Bool} (hg : Part.grp (c / 32) ∈ ps)
    (hfree : (s.grp (c / 32)).pwEn = false → Part.free ∈ ps) (hclamp : rs (CH c + R.CH_CSTAT_PCLAMP.off) = true)
    (hpwrst : rs (OUT (c / 32) + R.OUT_PWRST.off) = true) : Frame s (s.beforeFifo c settled pclamp) ps rs :=
  (frame_wr hclamp).trans <| (frame_gate fun _ => frame_modGrp hg).trans <|
    (frame_gate fun _ => (frame_modGrp hg).trans (frame_inc hpwrst)).trans <|
      frame_gate fun hen => frame_tick (hfree (by simpa using hen))

end

/-! ### The three ways of a sample -/

/-- The converter of channel c delivers samples: its mode is not OFF and it is enabled (R177). -/
def State.converts (s : State) (c : Nat) : Bool := s.infF c R.CH_CMODE_MODE != 0 && s.infF c R.CH_CMODE_ADCEN != 0

/-- The value of a converter's code: two's complement from source 1, offset binary from the others (R177). -/
def sampleValue (src code : Nat) : Int := if src = 1 then toSigned 18 code else (code : Int) - 131072

/-- A converter's code lies at an end of its range (R204). -/
def sampleSat (src code : Nat) : Bool :=
  if src = 1 then sampleValue src code == -131072 || sampleValue src code == 131071 else code == 0 || code == 262143

/-- The phase word of O33 edge n of group g: a free value while the stream is disabled (R203). -/
def State.samplePhase (s : State) (g n : Nat) : Nat :=
  if (s.grp g).pwEn then s.phaseWord g n else (Config.idlePhase s.freeCtr).toNat

/-- The FIFO entry of a sample of channel c at O33 edge n (R19, R204, R207, R221). -/
def State.sampleEntry (s : State) (c code n : Nat) (susp settled pclamp : Bool) : Entry :=
  let g := c / 32
  let y := s.eng (s.physEng c)
  let u := s.beforeFifo c settled pclamp
  { s := sampleValue (s.infF c R.CH_CMODE_ADCSRC) code, phase := s.samplePhase g n,
    rst := y.rstNext || (s.chan c).rstSeen != (s.grp g).rstGen, unset := u.unset g, coast := u.coasting g || u.segmented,
    cont := s.contNow g, sat := sampleSat (s.infF c R.CH_CMODE_ADCSRC) code,
    susp := susp || u.leafSuspect g || u.nocal c || u.faulted c || u.debugD2, lost := y.lostNext }

/-- An engine whose FIFO takes an entry: what was due on it has been told (R221). -/
def Engine.take (x : Engine) (e : Entry) : Engine := { x with fifo := x.fifo ++ [e], rstNext := false, lostNext := false }

/-- A phase word is read from the group's outputs, grid, source and offset (R203). -/
theorem State.phaseWord_congr {s t : State} {g n : Nat} (houts : (t.grp g).outs = (s.grp g).outs)
    (hcont : (t.grp g).cont = (s.grp g).cont) (hsrc : (t.grp g).pwSrc = (s.grp g).pwSrc)
    (hofs : (t.grp g).pwOfs = (s.grp g).pwOfs) : t.phaseWord g n = s.phaseWord g n := by
  simp only [State.phaseWord, State.phaseDist, State.outSet, houts, hcont, hsrc, hofs]

section
variable (s : State) (c code n : Nat) (susp settled pclamp : Bool)

theorem State.sample_off (h : (s.setsOn (c / 32)).testBit (c % 32) = false) : s.sample c code n susp settled pclamp = s := by
  simp only [State.sample, h, Bool.not_false, if_true]

theorem State.sample_idle (h : (s.setsOn (c / 32)).testBit (c % 32) = true) (hconv : s.converts c = false) :
    s.sample c code n susp settled pclamp
      = s.wr (CH c) R.CH_CSTAT_PCLAMP (b2n (pclamp && s.infF c R.CH_CMODE_MODE == 4)) := by
  have hidle : (s.infF c R.CH_CMODE_MODE == 0 || s.infF c R.CH_CMODE_ADCEN == 0) = true := by
    rw [← Bool.not_eq_false', Bool.not_or]; exact hconv
  simp only [State.sample, h, Bool.not_true, Bool.false_eq_true, if_false, State.wr_infF, hidle, if_true]

/-- A sample of a channel that converts: what comes before the FIFO, then one of three ways by the engine that takes it. -/
theorem State.sample_converts (hc : c < 512) (h : (s.setsOn (c / 32)).testBit (c % 32) = true) (hconv : s.converts c = true) :
    s.sample c code n susp settled pclamp =
      let p := s.physEng c
      let y := s.eng p
      let u := s.beforeFifo c settled pclamp
      let x := s.grp (c / 32)
      if !y.live then u.modChan c fun z => { z with rstSeen := x.rstGen }
      else if 64 ≤ (y.fifo.filter fun e => !e.mark).length then
        let v := (u.setEng p { y with rstNext := true, lostNext := true }).inc (CH c) R.CH_OVFCNT
        if (s.chan c).ovfSeen then v else (v.modChan c fun z => { z with ovfSeen := true }).raise 207 c
      else
        (u.setEng p (y.take (s.sampleEntry c code n susp settled pclamp))).modChan c fun z => { z with rstSeen := x.rstGen } := by
  have hbusy : (s.infF c R.CH_CMODE_MODE == 0 || s.infF c R.CH_CMODE_ADCEN == 0) = false := by
    rw [← Bool.not_eq_true', Bool.not_or]; exact hconv
  have hphase (v : Nat) : (((s.wr (CH c) R.CH_CSTAT_PCLAMP v).settled (c / 32) settled).wordOut (c / 32)).phaseWord (c / 32) n
      = s.phaseWord (c / 32) n :=
    State.phaseWord_congr (by simp [State.wordOut_grp, State.settled_grp]) (by simp [State.wordOut_grp, State.settled_grp])
      (by simp [State.wordOut_grp, State.settled_grp]) (by simp [State.wordOut_grp, State.settled_grp])
  have hcont : (s.beforeFifo c settled pclamp).contNow (c / 32) = s.contNow (c / 32) := by
    simp [State.contNow, State.beforeFifo_grp s c settled pclamp hc]
  have hfold : ((((s.wr (CH c) R.CH_CSTAT_PCLAMP (b2n (pclamp && s.infF c R.CH_CMODE_MODE == 4))).settled (c / 32) settled).wordOut
      (c / 32)).gate (!(s.grp (c / 32)).pwEn) (·.tick)) = s.beforeFifo c settled pclamp := rfl
  simp only [State.sample, h, Bool.not_true, Bool.false_eq_true, if_false, State.wr_infF, hbusy, hphase, State.wordOut_freeCtr,
    State.settled_freeCtr, State.wr_freeCtr, hfold, State.beforeFifo_physEng s c settled pclamp hc, State.beforeFifo_eng,
    State.beforeFifo_chan, hcont, State.inc_chan, State.setEng_chan, Engine.take, State.sampleEntry, sampleValue, sampleSat, State.samplePhase]

/-- After the common part of a sample the FIFO's engine, the channel and its count of overflows are all that changes. -/
theorem frame_sample_fifo (hc : c < 512) (h : (s.setsOn (c / 32)).testBit (c % 32) = true) (hconv : s.converts c = true) :
    Frame (s.beforeFifo c settled pclamp) (s.sample c code n susp settled pclamp) [.eng (s.physEng c), .chan c]
      (words [CH c + R.CH_OVFCNT.off]) := by
  rw [s.sample_converts c code n susp settled pclamp hc h hconv]
  dsimp only
  split
  · exact frame_modChan (by simp)
  · split
    · split
      · exact (frame_setEng (by simp)).trans (frame_inc (by simp [words]))
      · exact ((frame_setEng (by simp)).trans (frame_inc (by simp [words]))).trans ((frame_modChan (by simp)).trans frame_raise)
    · exact (frame_setEng (by simp)).trans (frame_modChan (by simp))

/-- An engine that does not run keeps its FIFO; the channel notes the restart (R207). -/
theorem State.sample_dead (hc : c < 512) (h : (s.setsOn (c / 32)).testBit (c % 32) = true) (hconv : s.converts c = true)
    (hdead : (s.eng (s.physEng c)).live = false) :
    let t := s.sample c code n susp settled pclamp
    t.chan c = { s.chan c with rstSeen := (s.grp (c / 32)).rstGen }
    ∧ Frame (s.beforeFifo c settled pclamp) t [.chan c] (words []) := by
  rw [s.sample_converts c code n susp settled pclamp hc h hconv]
  simp only [hdead, Bool.not_false, if_true]
  exact ⟨by simp, frame_modChan (by simp)⟩

/-- An engine that runs and has room takes the sample's entry (R19, R221). -/
theorem State.sample_enters (hc : c < 512) (h : (s.setsOn (c / 32)).testBit (c % 32) = true) (hconv : s.converts c = true)
    (hlive : (s.eng (s.physEng c)).live = true) (hroom : ((s.eng (s.physEng c)).fifo.filter fun e => !e.mark).length < 64) :
    let t := s.sample c code n susp settled pclamp
    t.eng (s.physEng c) = (s.eng (s.physEng c)).take (s.sampleEntry c code n susp settled pclamp)
    ∧ (t.chan c).rstSeen = (s.grp (c / 32)).rstGen
    ∧ Frame (s.beforeFifo c settled pclamp) t [.eng (s.physEng c), .chan c] (words []) := by
  rw [s.sample_converts c code n susp settled pclamp hc h hconv]
  simp only [hlive, Nat.not_le.mpr hroom, Bool.not_true, Bool.false_eq_true, if_false]
  exact ⟨by simp, by simp, (frame_setEng (by simp)).trans (frame_modChan (by simp))⟩

/-- An engine that runs and holds 64 samples drops this one: the drop is counted, and the next entry tells of it (R221). -/
theorem State.sample_drops (hc : c < 512) (h : (s.setsOn (c / 32)).testBit (c % 32) = true) (hconv : s.converts c = true)
    (hlive : (s.eng (s.physEng c)).live = true) (hfull : 64 ≤ ((s.eng (s.physEng c)).fifo.filter fun e => !e.mark).length) :
    let t := s.sample c code n susp settled pclamp
    t.eng (s.physEng c) = { s.eng (s.physEng c) with rstNext := true, lostNext := true }
    ∧ t.rd (CH c) R.CH_OVFCNT = (s.rd (CH c) R.CH_OVFCNT + 1) % 2 ^ 32 ∧ (t.chan c).ovfSeen = true := by
  have hcount : (((s.beforeFifo c settled pclamp).setEng (s.physEng c)
      { s.eng (s.physEng c) with rstNext := true, lostNext := true }).inc (CH c) R.CH_OVFCNT).rd (CH c) R.CH_OVFCNT
      = (s.rd (CH c) R.CH_OVFCNT + 1) % 2 ^ 32 := by
    rw [State.rd_inc _ _ _ _ (by decide), State.setEng_rd, State.beforeFifo_rd_ne]
    · rfl
    · simp only [CH, R.CH_OVFCNT, R.CH_CSTAT_PCLAMP]; omega
    · simp only [CH, OUT, R.CH_OVFCNT, R.OUT_PWRST]; omega
  rw [s.sample_converts c code n susp settled pclamp hc h hconv]
  simp only [hlive, hfull, Bool.not_true, Bool.false_eq_true, if_false, if_true]
  split
  · next hseen => exact ⟨by simp, hcount, by simpa using hseen⟩
  · exact ⟨by simp, by simpa using hcount, by simp⟩

/-- A frame from the FIFO on, widened by what comes before the FIFO. -/
theorem frame_sample {u : State} {parts : List Part} {regs : List Nat}
    (hf : Frame (s.beforeFifo c settled pclamp) u parts (words regs)) :
    Frame s u (parts ++ [.grp (c / 32)] ++ if (s.grp (c / 32)).pwEn then [] else [.free])
      (words (regs ++ [CH c + R.CH_CSTAT_PCLAMP.off, OUT (c / 32) + R.OUT_PWRST.off])) :=
  (frame_beforeFifo s c settled pclamp (by simp) (fun hen => by simp [hen]) (by simp [words]) (by simp [words])).trans
    (hf.mono (fun p hp => by simp [hp]) fun a ha => by
      simp only [words, List.contains_eq_mem, decide_eq_false_iff_not, List.mem_append, not_or] at ha ⊢
      exact ha.1)

end

/-- The words that event reporting changes lie in the pages of the module. -/
theorem eventWords_lt : ∀ a ∈ eventWords, a < 0x10000 := by decide

theorem notMem_eventWords {a : Nat} (h : 0x10000 ≤ a) : a ∉ eventWords := fun hm => absurd (eventWords_lt a hm) (by omega)

/-- ADC_SAMPLE_ENTRY runs the entry of a sample. -/
theorem exec_adcSampleEntry (c : Fin 512) (code : BitVec 18) (n : BitVec 48) (susp settled pclamp : Bool) (s : State) :
    exec (.adcSampleEntry c code n susp settled pclamp) s
      = run s fun s => s.sample c code.toNat n.toNat susp settled pclamp := rfl

section
variable (s : State) (c code n : Nat) (susp settled pclamp : Bool)

/-- What every sample of a channel that converts leaves behind it: the state of its group, the count of words with RST, the draw of a
free phase word, and the clamp bit. -/
theorem State.sample_common (hc : c < 512) (h : (s.setsOn (c / 32)).testBit (c % 32) = true) (hconv : s.converts c = true) :
    let u := s.sample c code n susp settled pclamp
    u.grp (c / 32) = (s.beforeFifo c settled pclamp).grp (c / 32)
    ∧ u.rd (OUT (c / 32)) R.OUT_PWRST = (s.beforeFifo c settled pclamp).rd (OUT (c / 32)) R.OUT_PWRST
    ∧ u.freeCtr = (s.beforeFifo c settled pclamp).freeCtr
    ∧ u.rd (CH c) R.CH_CSTAT_PCLAMP = (s.beforeFifo c settled pclamp).rd (CH c) R.CH_CSTAT_PCLAMP := by
  have hf := frame_sample_fifo s c code n susp settled pclamp hc h hconv
  have hrd (b : Nat) (f : Fld) (hb : b + f.off ≠ CH c + R.CH_OVFCNT.off) (hlo : 0x10000 ≤ b) :
      (s.sample c code n susp settled pclamp).rd b f = (s.beforeFifo c settled pclamp).rd b f := by
    simp only [State.rd, hf.2 (b + f.off) (by simpa [words] using hb) (notMem_eventWords (by omega))]
  refine ⟨hf.1 (.grp _) (by simp), hrd _ _ ?_ ?_, hf.1 .free (by simp), hrd _ _ ?_ ?_⟩
  all_goals simp only [CH, OUT, R.CH_OVFCNT, R.CH_CSTAT_PCLAMP, R.OUT_PWRST]; omega

end

@[simp] theorem State.fresh_converts (s : State) (c : Nat) : s.fresh.converts c = s.converts c := rfl

section
variable {s : State} {c : Nat} (code n : Nat) (susp settled pclamp : Bool)

/-- ADC_SAMPLE_ENTRY of a set that is off changes nothing. -/
theorem next_sample_off (h : (s.setsOn (c / 32)).testBit (c % 32) = false) :
    Next (run s fun s => s.sample c code n susp settled pclamp) fun t => Frame s t [] noWords :=
  next_of_frame (State.sample_off s.fresh c code n susp settled pclamp (by simpa using h))
    (frame_fresh (ps := []) (rs := noWords)) (by simp) (by simp) fun _ hr => frame_fresh.reported hr

/-- ADC_SAMPLE_ENTRY of a channel that does not convert shows the clamp and changes nothing else. -/
theorem next_sample_idle (hc : c < 512) (h : (s.setsOn (c / 32)).testBit (c % 32) = true) (hconv : s.converts c = false) :
    Next (run s fun s => s.sample c code n susp settled pclamp) fun t =>
      t.rd (CH c) R.CH_CSTAT_PCLAMP = b2n (pclamp && s.infF c R.CH_CMODE_MODE == 4)
      ∧ Frame s t [] (words [CH c + R.CH_CSTAT_PCLAMP.off]) := by
  have hf : Frame s (s.fresh.wr (CH c) R.CH_CSTAT_PCLAMP (b2n (pclamp && s.fresh.infF c R.CH_CMODE_MODE == 4))) []
      (words [CH c + R.CH_CSTAT_PCLAMP.off]) := frame_fresh.trans (frame_wr (by simp [words]))
  refine next_of_frame (State.sample_idle s.fresh c code n susp settled pclamp (by simpa using h) (by simpa using hconv)) hf
    (by simp) (by simp) fun t hr => ⟨?_, hf.reported hr⟩
  rw [hr.rd (notMem_eventWords (by simp only [CH]; omega))]
  exact State.rd_flag s.fresh _ _ _ (by decide) rfl

/-- ADC_SAMPLE_ENTRY of a channel that converts ends in the events of the sample, and frames from the FIFO on become frames of the
command. -/
theorem next_sample_converts {P : State → Prop} (hc : c < 512) (h : (s.setsOn (c / 32)).testBit (c % 32) = true)
    (hconv : s.converts c = true)
    (hP : ∀ t, Reported (s.fresh.sample c code n susp settled pclamp) t →
      (∀ parts regs, Frame (s.fresh.beforeFifo c settled pclamp) (s.fresh.sample c code n susp settled pclamp) parts (words regs) →
        Frame s t (parts ++ [.grp (c / 32)] ++ if (s.grp (c / 32)).pwEn then [] else [.free])
          (words (regs ++ [CH c + R.CH_CSTAT_PCLAMP.off, OUT (c / 32) + R.OUT_PWRST.off]))) → P t) :
    Next (run s fun s => s.sample c code n susp settled pclamp) P := by
  have hframe {parts : List Part} {regs : List Nat}
      (hf : Frame (s.fresh.beforeFifo c settled pclamp) (s.fresh.sample c code n susp settled pclamp) parts (words regs)) :=
    (frame_fresh (s := s)).trans (frame_sample s.fresh c settled pclamp hf)
  have hfifo := frame_sample_fifo s.fresh c code n susp settled pclamp hc (by simpa using h) (by simpa using hconv)
  refine next_of_frame rfl (hframe hfifo) ?_ ?_ fun t hr => hP t hr fun parts regs hf => (hframe hf).reported hr
  all_goals split <;> simp

end

/-- Settles O37: a sample is the common part, then one of three ways by the engine that takes it, then event reporting. -/
theorem samplesEnterTheFifo : Obligations.SamplesEnterTheFifo := by
  intro s c code n susp settled pclamp g x p y src set conv clamp first v frame
  simp only [exec_adcSampleEntry]
  have hc : c.val < 512 := c.isLt
  have hclamp : CH c + R.CH_CSTAT_PCLAMP.off ∉ eventWords := notMem_eventWords (by simp only [CH]; omega)
  have hpwrst : OUT g + R.OUT_PWRST.off ∉ eventWords := notMem_eventWords (by simp only [OUT]; omega)
  have hovf : CH c + R.CH_OVFCNT.off ∉ eventWords := notMem_eventWords (by simp only [CH]; omega)
  refine ⟨fun hoff => next_sample_off _ _ _ _ _ hoff, fun hon => ?_, fun hon hconv => ?_⟩
  · cases hconv : conv with
    | false =>
      obtain ⟨t, ht, hclampt, hframe⟩ := next_sample_idle code.toNat n.toNat susp settled pclamp hc hon hconv
      exact ⟨t, ht, hclampt, fun _ => hframe⟩
    | true =>
      refine next_sample_converts _ _ _ _ _ hc hon hconv fun t hr _ => ⟨?_, nofun⟩
      obtain ⟨-, -, -, hu⟩ := State.sample_common s.fresh c code.toNat n.toNat susp settled pclamp hc hon hconv
      rw [hr.rd hclamp, hu, State.beforeFifo_rd_pclamp]
      rfl
  · refine next_sample_converts _ _ _ _ _ hc hon hconv fun t hr hframe => ?_
    obtain ⟨hgrp, hcount, hfree, -⟩ := State.sample_common s.fresh c code.toNat n.toNat susp settled pclamp hc hon hconv
    refine ⟨?_, ?_, ?_, fun hdead => ?_, fun hlive hroom => ?_, fun hlive hfull => ?_⟩
    · exact (hr.facts (.grp g)).trans (hgrp.trans (State.beforeFifo_grp s.fresh c settled pclamp hc))
    · exact (hr.rd hpwrst).trans (hcount.trans (State.beforeFifo_rd_pwrst s.fresh c settled pclamp hc))
    · exact (hr.facts .free).trans (hfree.trans (State.beforeFifo_freeCtr s.fresh c settled pclamp))
    · obtain ⟨hchan, hf⟩ := State.sample_dead s.fresh c code.toNat n.toNat susp settled pclamp hc hon hconv hdead
      exact ⟨(hr.facts (.chan c)).trans hchan, hframe _ _ hf⟩
    · obtain ⟨heng, hseen, hf⟩ := State.sample_enters s.fresh c code.toNat n.toNat susp settled pclamp hc hon hconv hlive hroom
      have hengt : t.eng p = y.take (s.fresh.sampleEntry c code.toNat n.toNat susp settled pclamp) :=
        (hr.facts (.eng p)).trans heng
      have hchan : t.chan c = _ := hr.facts (.chan c)
      refine ⟨?_, ?_, ?_, hframe _ _ hf⟩
      · rw [hengt]
        exact List.map_append
      · rw [hengt]
        rfl
      · rw [hchan]
        exact hseen
    · obtain ⟨heng, hovft, hseen⟩ := State.sample_drops s.fresh c code.toNat n.toNat susp settled pclamp hc hon hconv hlive hfull
      have hchan : t.chan c = _ := hr.facts (.chan c)
      exact ⟨(hr.facts (.eng p)).trans heng, (hr.rd hovf).trans hovft, by rw [hchan]; exact hseen,
        hframe _ _ (frame_sample_fifo s.fresh c code.toNat n.toNat susp settled pclamp hc hon hconv)⟩

end Sys2Proof.Machine
